-- ==== Sys2Proof/Word.lean ====
section
/-! DEFINITION. The word types of the S1 (R12, R13, R99) and their plainest arithmetic. -/

namespace Sys2Proof

/-- A byte of memory. -/
abbrev Byte := BitVec 8
/-- A 32-bit word: a vector lane, an accumulator word, a 32-bit register (R99, R181). -/
abbrev W32 := BitVec 32
/-- A 64-bit word: a scalar register, a predicate, an instruction word (R99, R178). -/
abbrev W64 := BitVec 64
/-- The 80-bit codeword of one stored 64-bit word (R60). -/
abbrev W80 := BitVec 80
/-- Bits [55:0] of an instruction word; the command names the major opcode, bits [63:56] (R178). -/
abbrev Body := BitVec 56

/-- Bits [lo + n - 1 : lo] of a number (R12: bit 0 is the least significant). -/
def bitsOf (x lo n : Nat) : Nat := x / 2 ^ lo % 2 ^ n

/-- The number `x` with bits [lo + n - 1 : lo] replaced by `v`. -/
def putBits (x lo n v : Nat) : Nat := x - bitsOf x lo n * 2 ^ lo + v % 2 ^ n * 2 ^ lo

/-- Bit `i` of a number. -/
def bitOf (x i : Nat) : Bool := x / 2 ^ i % 2 == 1

/-- 1 for true, 0 for false. -/
def b2n (b : Bool) : Nat := if b then 1 else 0

/-- A saturating sum with an inclusive upper limit. -/
def satAdd (limit a b : Nat) : Nat := min (a + b) limit

/-- Division rounded up. -/
def ceilDiv (a b : Nat) : Nat := (a + b - 1) / b

end Sys2Proof
end

