-- ==== Sys2Proof/Machine/Store.lean ====
section
/-! DEFINITION. Sparse stores: a list of (key, value) pairs in one canonical form (keys strictly rising, no entry
equal to what an unlisted key reads as). Memory, register files and hardware tables are held this way. -/

namespace Sys2Proof.Machine

/-- A sparse store over natural-number keys. -/
abbrev Store (α : Type) := List (Nat × α)

/-- The value at key `k`; an unlisted key reads as `d`. -/
def Store.get {α : Type} (d : α) : Store α → Nat → α
  | [], _ => d
  | (j, v) :: m, k => if j = k then v else Store.get d m k

/-- The store without any entry at key `k`. -/
def Store.drop {α : Type} : Store α → Nat → Store α
  | [], _ => []
  | (j, v) :: m, k => if j = k then Store.drop m k else (j, v) :: Store.drop m k

/-- The store with the pair (k, v) put before the first larger key. -/
def Store.put {α : Type} : Store α → Nat → α → Store α
  | [], k, v => [(k, v)]
  | (j, w) :: m, k, v => if k < j then (k, v) :: (j, w) :: m else (j, w) :: Store.put m k v

/-- Writes `v` at key `k`, keeping the canonical form: writing the default `d` removes the entry. -/
def Store.set {α : Type} [DecidableEq α] (d : α) (m : Store α) (k : Nat) (v : α) : Store α :=
  if v = d then Store.drop m k else Store.put (Store.drop m k) k v

/-- The canonical form, with every key at least `lo`. -/
def Store.wfFrom {α : Type} [DecidableEq α] (d : α) : Nat → Store α → Bool
  | _, [] => true
  | lo, (k, v) :: m => decide (lo ≤ k) && (!decide (v = d)) && Store.wfFrom d (k + 1) m

/-- The canonical form: keys strictly rising, no entry holding the default. -/
def Store.wf {α : Type} [DecidableEq α] (d : α) (m : Store α) : Bool := Store.wfFrom d 0 m

/-- Keeps the entries whose key satisfies `p`. -/
def Store.keep {α : Type} (p : Nat → Bool) : Store α → Store α
  | [] => []
  | (k, v) :: m => if p k then (k, v) :: Store.keep p m else Store.keep p m

/-- The entries of a run of values at rising keys from `k`. -/
def Store.runAt {α : Type} [DecidableEq α] (d : α) : Nat → List α → Store α
  | _, [] => []
  | k, v :: vs => if v = d then Store.runAt d (k + 1) vs else (k, v) :: Store.runAt d (k + 1) vs

/-- Writes a list of values at rising keys from `k`. -/
def Store.setAll {α : Type} [DecidableEq α] (d : α) (m : Store α) (k : Nat) (vs : List α) : Store α :=
  Store.keep (fun j => decide (j < k)) m ++ (Store.runAt d k vs ++ Store.keep (fun j => decide (k + vs.length ≤ j)) m)

/-- The `n` values at keys from `k` upward, read one by one. -/
def Store.walk {α : Type} (d : α) (m : Store α) (k : Nat) : Nat → List α
  | 0 => []
  | n + 1 => Store.get d m k :: Store.walk d m (k + 1) n

/-- The `n` values at keys from `k` upward. -/
def Store.getAll {α : Type} (d : α) (m : Store α) (k n : Nat) : List α :=
  Store.walk d (Store.keep (fun j => decide (k ≤ j ∧ j < k + n)) m) k n

/-- A byte memory: unlisted addresses read as zero. -/
abbrev Memory := Store Byte

/-- One byte of a memory. -/
def Memory.byte (m : Memory) (a : Nat) : Byte := Store.get 0 m a

/-- Writes one byte. -/
def Memory.setByte (m : Memory) (a : Nat) (b : Byte) : Memory := Store.set 0 m a b

/-- The memory's canonical form. -/
def Memory.wf (m : Memory) : Bool := Store.wf (0 : Byte) m

/-- `n` bytes from address `a`, read as one little-endian number (R13). -/
def Memory.readLE (m : Memory) (a : Nat) : Nat → Nat
  | 0 => 0
  | n + 1 => (Memory.byte m a).toNat + 256 * Memory.readLE m (a + 1) n

/-- Writes the `n` low bytes of `v` at address `a`, little-endian (R13). -/
def Memory.writeLE (m : Memory) (a : Nat) : Nat → Nat → Memory
  | 0, _ => m
  | n + 1, v => Memory.writeLE (Memory.setByte m a (BitVec.ofNat 8 v)) (a + 1) n (v / 256)

/-- `n` bytes from address `a`. -/
def Memory.bytes (m : Memory) (a n : Nat) : List Byte := Store.getAll 0 m a n

/-- Writes a list of bytes at address `a`. -/
def Memory.setBytes (m : Memory) (a : Nat) (bs : List Byte) : Memory := Store.setAll 0 m a bs

/-- A list of bytes read as one little-endian number. -/
def leNat : List Byte → Nat
  | [] => 0
  | b :: bs => b.toNat + 256 * leNat bs

/-- The `n` low bytes of `v`, lowest first. -/
def natLE : Nat → Nat → List Byte
  | 0, _ => []
  | n + 1, v => BitVec.ofNat 8 v :: natLE n (v / 256)

/-- The `n` low bytes of `v`, highest first (the big-endian fields of Frenak headers, R390). -/
def natBE (n v : Nat) : List Byte := (natLE n v).reverse

/-- A list of bytes read as one big-endian number. -/
def beNat (bs : List Byte) : Nat := leNat bs.reverse

end Sys2Proof.Machine
end

