-- ==== Sys2Proof/Machine/FabricState.lean ====
section
/-! DEFINITION. The Frenak fabric: frames, ports, transactions and what the fabric engines hold (R379 to R437). -/

namespace Sys2Proof.Machine

/-- The extension header of a collective frame (R396). -/
structure ExtHdr where
  group : Nat := 0
  seq : Nat := 0
  kind : Nat := 0
  wire : Nat := 0
  phase : Nat := 0
  rank : Nat := 0
  shard : Nat := 0
  chunk : Nat := 0
  cfgSeal : Nat := 0
  deriving DecidableEq, Repr

/-- A DATA frame from its transport header on (R389, R392). -/
structure Frame where
  vc : Nat := 0
  /-- deadlock class (R403) -/
  cls : Nat := 0
  src : Nat := 0
  dst : Nat := 0
  opc : Nat := 0
  xid : Nat := 0
  age : Nat := 0
  status : Nat := 0
  addr : Nat := 0
  operand : Nat := 0
  ext : Option ExtHdr := none
  payload : List Byte := []
  /-- poison map as a number, bit w for word w (R395) -/
  poison : Nat := 0
  deriving DecidableEq, Repr

/-- Payload bytes (LEN). -/
def Frame.len (f : Frame) : Nat := f.payload.length

/-- Bytes from the transport header through the poison map (R389, R398). -/
def Frame.size (f : Frame) : Nat :=
  32 + (if f.ext.isSome then 32 else 0) + f.len +
    (if f.poison = 0 then 0 else (ceilDiv (ceilDiv f.len 64) 8) * 8)

/-- Blocks of 256 bytes a frame consumes (R398). -/
def Frame.blocks (f : Frame) : Nat := ceilDiv f.size 256

/-- A frame on a link (R391). The CREDIT counts are for VC0 to VC3. -/
inductive LinkFrame where
  | data (lseq lack : Nat) (credit : List Nat) (f : Frame)
  | control (lack : Nat) (credit : List Nat)
  | hello (node port : Nat) (leaf laneMode fec ack : Bool) (grant : List Nat)
  | replayReq (lack : Nat) (credit : List Nat)
  | fenced (lack : Nat) (credit : List Nat)
  deriving DecidableEq, Repr

/-- A frame as it leaves a port: the MAC addresses of its Ethernet header (R382, R383). -/
structure WireFrame where
  dst : Nat
  src : Nat
  frame : LinkFrame
  deriving DecidableEq, Repr

/-- The Ethernet header of a frame that arrives, whether its FCS is correct (R383), and VER of its link header (R390, R391). -/
structure EthHdr where
  dst : Nat
  etherType : Nat := 0x88B5
  fcs : Bool := true
  ver : Nat := 1
  deriving DecidableEq, Repr

/-- The MAC address of port `port` of node `node`: 02-46-52, two bytes of the node number, the port (R382). -/
def macOf (node port : Nat) : Nat := 0x024652 * 2 ^ 24 + bitsOf node 8 6 * 2 ^ 16 + bitsOf node 0 8 * 2 ^ 8 + port % 2 ^ 8

/-- The broadcast address, to which HELLO frames go (R382). -/
def macBroadcast : Nat := 2 ^ 48 - 1

/-- Whether a frame is a HELLO. -/
def LinkFrame.isHello : LinkFrame → Bool
  | .hello .. => true | _ => false

/-- Where a port stands (R385, R386, R397). -/
inductive PortPhase where
  | down
  /-- auto-negotiation and PMD link training -/
  | training
  /-- the HELLO exchange -/
  | hello
  | up
  deriving DecidableEq, Repr

/-- A port of the fabric (R379, R397 to R400). -/
structure Port where
  phase : PortPhase := .down
  /-- a HELLO of the peer was received and found matching -/
  heard : Bool := false
  peerPort : Nat := 0
  /-- the peer's port address, learned from its HELLO; 0 before (R382) -/
  peerMac : Nat := 0
  /-- blocks the peer grants on VC0 to VC3 -/
  grant : List Nat := [0, 0, 0, 0]
  /-- blocks sent on VC0 to VC3 since link-up -/
  sentBlocks : List Nat := [0, 0, 0, 0]
  /-- the peer's CREDIT counts as last received -/
  peerCredit : List Nat := [0, 0, 0, 0]
  /-- blocks freed on VC0 to VC3 since link-up, modulo 2^16 -/
  freed : List Nat := [0, 0, 0, 0]
  /-- LSEQ of the next DATA frame sent -/
  nextSeq : Nat := 0
  /-- LSEQ of the last DATA frame accepted -/
  lastSeq : Nat := 0xFFFF
  /-- time at which an unreported LACK fell due plus one, 0 when reported -/
  lackDue : Nat := 0
  /-- frames sent and not yet covered, oldest first -/
  uncovered : List (Nat × Frame) := []
  resends : Nat := 0
  /-- time of the last LACK progress, or of the first uncovered frame -/
  progressAt : Nat := 0
  sentAt : Nat := 0
  heardAt : Nat := 0
  /-- DATA frames waiting for credit, oldest first, each with the time from which this node holds it -/
  queue : List (Nat × Frame) := []
  /-- frames sent on the link, oldest first, as their bytes (R389) -/
  out : List (List Byte) := []
  deriving DecidableEq, Repr

/-- Who waits for the reply of a transaction. -/
inductive TxnOwner where
  | core (c : Nat)
  /-- an engine acting for a command: context, tag, and the engine's own key for the transfer -/
  | eng (ctx tag key : Nat)
  /-- a SYNC of a command or a core's SIG: context and tag -/
  | sync (ctx tag : Nat)
  | mcast (ctx tag target : Nat)
  /-- a read-service request of an ingest command: context, tag, sample position and place among its requests -/
  | rs (ctx tag pos req : Nat)
  deriving DecidableEq, Repr

/-- A transaction by XID index (R406). -/
structure Txn where
  gen : Nat := 0
  active : Bool := false
  node : Nat := 0
  opc : Nat := 0
  addr : Nat := 0
  len : Nat := 0
  owner : TxnOwner := .core 0
  sentAt : Nat := 0
  /-- time before which a timed-out index is not reused -/
  heldUntil : Nat := 0
  deriving DecidableEq, Repr

/-- A transfer of an engine with remote parts, for one step of its command (R408, R410): replies outstanding, and the bytes
read, by remote-space physical address. -/
structure EngXfer where
  ctx : Nat
  tag : Nat
  key : Nat
  xids : List Nat := []
  buf : Memory := []
  bad : Store Bool := []
  /-- the writes have been sent: the step ends with their acknowledgements -/
  writing : Bool := false
  /-- 0 none, 1 refused, 2 no reply -/
  fail : Nat := 0
  /-- physical address of the request that was refused -/
  failAt : Nat := 0
  deriving DecidableEq, Repr

/-- A multicast frame a target answered BUSY, waiting for its resend time (R427). -/
structure FabResend where
  ctx : Nat
  tag : Nat
  target : Nat
  frame : Frame
  due : Nat
  deriving DecidableEq, Repr

/-- A member's contribution the root holds for a gate (R271, R424). -/
structure GateContrib where
  group : Nat
  seq : Nat
  node : Nat
  sumsq : Nat
  nf : Nat
  step : Nat
  fault : Bool
  abort : Bool
  cfgSeal : Nat
  deriving DecidableEq, Repr

/-- A gate whose root lost its command to a context reset: its result is still owed to the members (R502). -/
structure OrphanGate where
  group : Nat
  seq : Nat
  step : Nat
  clipNorm : Nat
  deriving DecidableEq, Repr

/-- The fabric engines. -/
structure Fabric where
  /-- route table by node: PORT_A, VALID_A, PORT_B, VALID_B, DATELINE as R387 lays them out; PORT_A and PORT_B, which R387 leaves open at
  reset, are 0 then (DESIGN CHOICE, assumption 74) -/
  route : Store W32 := []
  ports : Store Port := []
  txns : Store Txn := []
  xfers : List EngXfer := []
  /-- failed marks by node (R434) -/
  failed : Store Bool := []
  /-- COLL_SEQ by group (R414) -/
  collSeq : Store Nat := []
  /-- VC3 frames sent by node they go to, for the alternation of R402 -/
  vc3Count : Store Nat := []
  resends : List FabResend := []
  contribs : List GateContrib := []
  orphans : List OrphanGate := []
  /-- frames delivered to this node and not yet acted on, oldest first -/
  inbox : List Frame := []
  /-- port, plus one, on which the FAIL frame of a node in the inbox came -/
  failFrom : Store Nat := []
  /-- collective frames held ahead of their command (R420) -/
  early : List Frame := []
  /-- VC3 credits withheld per port while EARLY is full (R420) -/
  withheld : Store Nat := []
  /-- frames discarded and counted (R383, R390, R405, R406) -/
  discarded : Nat := 0
  stale : Nat := 0
  /-- HELLOs that brought no link up (R397) -/
  badHello : Nat := 0
  /-- SYNC frames refused (R411) -/
  syncBad : Nat := 0
  /-- this device fenced itself (R433) -/
  fenced : Bool := false
  deriving DecidableEq, Repr

end Sys2Proof.Machine
end

