-- ==== Sys2Proof/Machine/MemState.lean ====
section
/-! DEFINITION. The Square's banks and cache regions, the memory controllers and the patrol scrubbers (R34 to R69). -/

namespace Sys2Proof.Machine

open Sys2Proof

/-- What stands behind a port of a half's Square (R36). -/
inductive SqPort where
  | block
  | hbm
  | press
  | lpddr
  | fabric
  | room
  | seam
  | hall
  | pcie
  deriving DecidableEq, Repr

/-- The port table of a half, in its order: 30 ports in the West Half, 29 in the East Half (R36). The numbers of the ports are the
model's (assumption 60). -/
def sqPorts (half : Nat) : List SqPort :=
  List.replicate 18 .block ++ List.replicate 4 .hbm ++ List.replicate (3 - half) .press ++ [.lpddr, .fabric, .room, .seam] ++
    [if half = 0 then .hall else .pcie]

/-- Lines a port may present on one Square clock (R36). -/
def SqPort.lines : SqPort → Nat
  | .block => 6 | .hbm => 4 | .press => 2 | .lpddr => 2 | .fabric => 4 | .room => 1 | .seam => 8 | .hall => 1 | .pcie => 1

/-- What the devices of an LPDDR5X interface report: the refresh multiplier in eighths, and whether they ask for refresh management
(R57). -/
structure LpReport where
  rate : Nat
  rfm : Bool := false
  deriving DecidableEq, Repr

/-- A request for one line at a Square bank (R36, R37). -/
structure SqReq where
  /-- the port of the half it came through, by its place in the port table -/
  port : Nat
  /-- local physical address of the line -/
  addr : Nat
  write : Bool := false
  /-- byte enables of a write, bit i for byte i -/
  mask : Nat := 0
  data : BitVec 2048 := 0
  /-- a demand access allocates in the cache region; DMA and the Press do not (R46, R47) -/
  demand : Bool := true
  /-- a demand access to a page with STP: its fill enters with the reference bit clear (R81) -/
  stp : Bool := false
  /-- Square clock at which its port presented it to the bank -/
  since : Nat := 0
  /-- it missed, and the fill of its line serves it (R45) -/
  missed : Bool := false
  /-- the port of the other half it came through, for a request that crossed the Seam (R22, R373) -/
  origin : Option Nat := none
  deriving DecidableEq, Repr

/-- One way of a set of a cache region (R45). -/
structure Way where
  valid : Bool := false
  dirty : Bool := false
  ref : Bool := false
  filling : Bool := false
  /-- line address of a valid or filling way -/
  line : Nat := 0
  /-- a FLUSH with INVALIDATE met the way while it filled (R488) -/
  drop : Bool := false
  /-- words of memory under the line that a read found uncorrectable since the line was filled or written back: the data as read, by
  word number (R65) -/
  lost : Store (Option W64) := []
  deriving DecidableEq, Repr

/-- One set of a cache region: its rotating pointer and its ways (R44, R45). -/
structure CacheSet where
  pointer : Nat := 0
  ways : Store Way := []
  deriving DecidableEq, Repr

/-- A request that waits for a fill of its line, or for any fill of its set to complete. -/
structure FillWait where
  half : Nat
  /-- set index -/
  set : Nat
  req : SqReq
  deriving DecidableEq, Repr

/-- An answer of a bank or controller: the line with its poison. -/
structure LineDone where
  port : Nat
  addr : Nat
  write : Bool
  data : BitVec 2048
  poison : BitVec 32
  /-- bits [79:64] of the codeword of each word, word k at bit 16 k: the check lanes of HBM3E, the check block of the second
  tier (R63) -/
  check : BitVec 512 := 0
  deriving DecidableEq, Repr

/-- The memory system besides its contents. -/
structure MemSys where
  /-- requests waiting at each bank by half × 128 + bank, oldest first -/
  banks : Store (List SqReq) := []
  /-- port served last by each bank, plus one -/
  turn : Store Nat := []
  /-- the Square clock of each half, as far as requests have shown it -/
  clock : Store Nat := []
  /-- lines each port has presented on its half's clock, by half × 64 + port (R36) -/
  shown : Store Nat := []
  /-- the staging units an applied split change goes to, West and East, while it is in progress (R41) -/
  split : Nat × Nat := (0, 0)
  /-- the sets of the cache regions by half × 16384 + set -/
  sets : Store CacheSet := []
  waits : List FillWait := []
  /-- requests on VC2 of the Seam's Square channel, by the half they leave, oldest first (R373) -/
  seamReqs : Store (List SqReq) := []
  /-- responses on VC1 of the Square channel, by the half they leave -/
  seamDone : Store (List LineDone) := []
  /-- requests that have crossed and wait at the Seam port of a half -/
  seamIn : Store (List SqReq) := []
  /-- answers of banks and controllers, oldest first -/
  done : List LineDone := []
  /-- patrol position by 2 × kind + half: kind 0 Square, 1 HBM3E, 2 second tier; in codewords -/
  patrol : Store Nat := []
  /-- passes completed, by the same index -/
  passes : Store Nat := []
  /-- the Press buffers: byte b of engine p at 2^20 p + b (R281), and their poisoned words -/
  buffers : Memory := []
  buffersBad : Store Bool := []
  /-- on-die correction reports of each HBM3E stack read with its scrub passes (R52) -/
  onDie : Store Nat := []
  /-- all-bank refreshes of each stack during initialisation (R52) -/
  initRefresh : Store Nat := []
  /-- refresh management commands each LPDDR5X interface was asked for and given (R57) -/
  rfm : Store Nat := []
  deriving DecidableEq, Repr

end Sys2Proof.Machine
end

