-- ==== Sys2Proof/Machine/MeshState.lean ====
section
/-! DEFINITION. The mesh: flits, links, Crossing buffers, held reduction packets and what gather engines hold (R352 to
R378). -/

namespace Sys2Proof.Machine

open Sys2Proof

/-- A packet of traffic other than the mesh commands', as a source endpoint sends it (R355, R356). -/
structure MeshPkt where
  vc : Nat
  /-- destination Crossing, by Block number -/
  dst : Nat
  /-- destination port: 4 local, 5 edge -/
  port : Nat
  payload : List Byte
  deriving DecidableEq, Repr

/-- What a flit carries. -/
inductive FlitKind where
  /-- a reduction packet (R367): 128 elements as 32-bit words; `bad` lists the poisoned 64-bit payload words -/
  | reduce (ctx tag chunk count total : Nat) (words : List W32) (bad : List Nat)
  /-- a multicast packet (R370): targets as (index, engine); `bad` lists the poisoned byte ranges -/
  | mcast (ctx tag packet source : Nat) (targets : List (Nat × Nat)) (bytes : List Byte) (bad : List (Nat × Nat))
  /-- a target without a free buffer refuses a packet (R371) -/
  | refusal (ctx tag packet target : Nat)
  | other (p : MeshPkt)
  deriving DecidableEq, Repr

/-- A packet of the mesh: one flit (R355). -/
structure Flit where
  vc : Nat
  dst : Nat
  kind : FlitKind
  deriving DecidableEq, Repr

/-- What the arbiter of an output port keeps (R357). -/
structure MeshOut where
  /-- for the preceding clocks, newest first and at most 15: whether VC0 sent -/
  vc0 : List Bool := []
  /-- which of VC1 to VC3 was served last -/
  turn : Nat := 0
  /-- input port served last on VC0 to VC3 -/
  lastIn : List Nat := [0, 0, 0, 0]
  deriving DecidableEq, Repr

/-- A reduction packet a Crossing holds, with the time it arrived (R367). -/
structure HeldPkt where
  crossing : Nat
  since : Nat
  flit : Flit
  deriving DecidableEq, Repr

/-- A multicast receive buffer of a gather engine in use (R370). -/
structure McastBuf where
  engine : Nat
  ctx : Nat
  tag : Nat
  target : Nat
  packet : Nat
  bytes : List Byte
  bad : List (Nat × Nat)
  deriving DecidableEq, Repr

/-- A refused multicast packet that its source engine sends again (R371). -/
structure McastResend where
  ctx : Nat
  tag : Nat
  target : Nat
  packet : Nat
  /-- time of the refusal -/
  since : Nat
  deriving DecidableEq, Repr

/-- The two meshes. Ports of a Crossing: 0 north, 1 east, 2 south, 3 west, 4 local, 5 edge; 6 stands for the held packets
that move on, as an input, and for the gather engine, as a link. Keys are Crossing × 8 + port. -/
structure Mesh where
  /-- flits on their way to an input port, oldest first -/
  links : Store (List Flit) := []
  /-- flits in the buffers of an input port, oldest first -/
  bufs : Store (List Flit) := []
  outs : Store MeshOut := []
  held : List HeldPkt := []
  recv : List McastBuf := []
  resends : List McastResend := []
  /-- packets of other traffic handed to their endpoint, oldest first: Crossing and packet -/
  out : List (Nat × MeshPkt) := []
  /-- bytes the cores' accesses moved over each path, core × 8 + path: 0 own core store, 1 stitch edge link, 2 mesh, 3 own half's Square,
  4 Square channel of the Seam (R21, R22, R365) -/
  carried : Store Nat := []
  /-- channel of the Seam served last in each direction, 0 West to East: rows 0 to 2, 3 the Square channel (R374) -/
  seamTurn : Store Nat := []
  deriving DecidableEq, Repr

end Sys2Proof.Machine
end

