-- ==== Sys2Proof/Machine/PlatState.lean ====
section
/-! DEFINITION. What the system island, the package pins, the management endpoint, the power and thermal controllers and
the counters hold (R506 to R521, R537 to R576, R590 to R598). -/

namespace Sys2Proof.Machine

open Sys2Proof

/-! ## Fuses and boot -/

/-- The fuses (R513, R537). Digests and keys are numbers, most significant byte first. GRADE and BLOCK_MAP stand in their
registers. -/
structure Fuses where
  keyDigest : Store Nat := []
  keyRevoked : Store Bool := []
  minVersion : Nat := 0
  groupKey : Nat := 1
  lot : Nat := 0
  deriving DecidableEq, Repr

/-- The boot sequence (R508 to R519). -/
structure Boot where
  /-- step 1 has begun: the system island has left reset -/
  running : Bool := false
  /-- step 4 has ended -/
  sram : Bool := false
  /-- PCIe link training has completed -/
  link : Bool := false
  /-- a GO is held for step 7 (R512) -/
  goHeld : Bool := false
  /-- FW_WINDOW_BASE.OFFSET and FW_LENGTH as GO took them (R511) -/
  goOffset : Nat := 0
  goLength : Nat := 0
  /-- SM3(M) of the running image (R514) -/
  measurement : Nat := 0
  svn : Nat := 0
  entry : Nat := 0
  /-- SVN an advance in progress counts up to (R519) -/
  advTarget : Nat := 0
  /-- time plus one at which the reset of BOOT_CTRL.RESET starts, 0 for none (R512) -/
  resetAt : Nat := 0
  deriving DecidableEq, Repr

/-! ## Pins and JTAG -/

/-- The reset, status and strap pins and the rails (R591 to R594). -/
structure Pins where
  powered : Bool := true
  pwrok : Bool := true
  /-- level of PERST_N -/
  perstN : Bool := false
  railsOk : Bool := true
  /-- THERMTRIP_N asserted -/
  thermtrip : Bool := false
  /-- FAIL_N asserted -/
  fail : Bool := false
  /-- level of LP_RESET_N_W and LP_RESET_N_E -/
  lpResetN : Bool := false
  mgmtAddr : Nat := 0
  testEn : Bool := false
  deriving DecidableEq, Repr

/-- The JTAG test access port (R596 to R598). -/
structure Tap where
  ir : Nat := 0x01
  /-- the instruction that holds the pins, 0 to 7 plus one, 0 for none -/
  holds : Nat := 0
  /-- boundary register, bit i for cell i -/
  boundary : Nat := 0
  /-- the register selected between TDI and TDO as it was captured: bits and value -/
  drBits : Nat := 32
  dr : Nat := 0
  deriving DecidableEq, Repr

/-! ## Management -/

/-- Error codes of SPDM ERROR responses. -/
inductive SpdmErr where
  | invalidRequest
  | busy
  | unsupportedRequest
  | unexpectedRequest
  | sessionLimit
  | verification
  deriving DecidableEq, Repr

/-- Capability flags the responder sets (R546). -/
inductive SpdmCap where
  | cert | chal | measSigned | measFresh | keyEx | encrypt | mac | keyUpd | pubKeyId | setCert
  deriving DecidableEq, Repr

/-- SPDM responses (R545 to R551). A signature is its r and s. -/
inductive SpdmResp where
  | version (versions : List Nat)
  | capabilities (flags : List SpdmCap)
  | algorithms
  /-- the digest of slot 0, none while it is empty -/
  | digests (slot0 : Option Nat)
  | certificate (portion : List Byte) (remainder : Nat)
  | setCertificate
  | challengeAuth (slot r s : Nat)
  /-- blocks by index with their values, and the signature when one was asked for -/
  | measurements (blocks : List (Nat × List Byte)) (sig : Option (Nat × Nat))
  | keyExchange (session r s : Nat)
  | finish (session : Nat)
  | keyUpdate (session : Nat)
  | endSession (session : Nat)
  | error (code : SpdmErr)
  deriving DecidableEq, Repr

/-- PLDM responses (R552 to R554). -/
inductive PldmResp where
  | tid (v : Nat)
  | done
  | version (type v : Nat)
  | types (l : List Nat)
  | commands (l : List Nat)
  /-- number of records of the repository -/
  | repository (records : Nat)
  /-- a record: sensor or effecter, and its thresholds or range -/
  | pdr (id : Nat) (limits : List Int)
  | reading (id : Nat) (v : Int)
  | state (id v : Nat)
  | effecter (id v : Nat)
  /-- ERROR_INVALID_DATA -/
  | invalidData
  | invalidId
  deriving DecidableEq, Repr

/-- A message or answer the management endpoint sent. -/
inductive MgmtOut where
  /-- MCTP control: an endpoint ID was accepted on a binding -/
  | eid (binding eid : Nat)
  /-- data of an I3C common command, by the command's name -/
  | ccc (name : String) (value : Nat)
  | spdm (binding : Nat) (r : SpdmResp)
  | pldm (binding : Nat) (r : PldmResp)
  /-- PlatformEventMessage of a sensor with its reading or state -/
  | event (sensor : Nat) (value : Int)
  /-- status byte of a revocation order: 0 OK, 1 BUSY, 2 BAD_SIGNER, 3 BAD_SIGNATURE -/
  | revoke (binding status : Nat)
  deriving DecidableEq, Repr

/-- An SPDM session (R546). -/
structure Session where
  id : Nat
  binding : Nat := 0
  established : Bool := false
  /-- key updates done by KEY_UPDATE -/
  updates : Nat := 0
  deriving DecidableEq, Repr

/-- The attestation engine's own copies of the measured values (R550). -/
structure Measured where
  stepping : Nat := 0
  cores : Nat := 0
  minVersion : Nat := 0
  revoked : Nat := 0
  firmware : Nat := 0
  cfgSeal : List W32 := []
  svn : Nat := 0
  deriving DecidableEq, Repr

/-- The management endpoint (R542 to R554). -/
structure Mgmt where
  /-- endpoint ID by binding: 0 I3C, 1 SMBus, 2 PCIe -/
  eid : Store Nat := []
  i3c : Bool := false
  dynAddr : Nat := 0
  /-- events enabled by ENEC -/
  events : Nat := 0
  /-- maximum read and write length as last set, plus one; 0 stands for the initial length -/
  mrl : Nat := 0
  mwl : Nat := 0
  /-- group public key, x then y as a 512-bit number (R538) -/
  pubKey : Nat := 0
  measured : Measured := {}
  /-- SPDM connection by binding: 0 none, 1 after VERSION, 2 after CAPABILITIES, 3 after ALGORITHMS -/
  conn : Store Nat := []
  sessions : List Session := []
  nextSession : Nat := 0
  /-- certificate chain of slot 0 (R548) -/
  chain : List Byte := []
  /-- length of the chain a GET_CERTIFICATE sequence began with, plus one, by binding (R551) -/
  certLen : Store Nat := []
  tid : Nat := 0
  /-- event receiver: its endpoint ID plus one, 0 for none, and its binding -/
  receiver : Nat := 0
  receiverBinding : Nat := 0
  powerCap : Nat := 1600
  /-- last reading by sensor ID (R553) -/
  sensors : Store Int := []
  /-- state last sent and time plus one of the event, by state sensor (R554) -/
  stateSent : Store Nat := []
  stateAt : Store Nat := []
  /-- answers and messages sent, oldest first -/
  out : List MgmtOut := []
  deriving DecidableEq, Repr

/-! ## Power and temperature -/

/-- The power and thermal controllers (R555 to R562). -/
structure Power where
  /-- steps down the ladder of R556, 0 to 19 -/
  ladder : Nat := 0
  /-- intervals in a row below 0.95 of the limit -/
  low : Nat := 0
  /-- intervals in a row over the limit at the last step, and at or below it (R558) -/
  above : Nat := 0
  under : Nat := 0
  /-- steps down each half's thermal ladder (R560) -/
  thermW : Nat := 0
  thermE : Nat := 0
  /-- ticks in a row at which each half was cool enough to step up -/
  coolW : Nat := 0
  coolE : Nat := 0
  /-- halves whose thermal steps a junction, or a stack, brought about: bit 0 West, bit 1 East -/
  thrJ : Nat := 0
  thrH : Nat := 0
  clamp : Bool := false
  /-- causes of throttling in force: 0 junction, 1 HBM, 2 power, 3 clamp, 4 host ceiling (R554) -/
  causes : Nat := 0
  /-- stack temperatures (R54) and stacks at doubled refresh -/
  stackTemp : Store Int := []
  refresh2x : Store Bool := []
  /-- refresh commands issued, by stack, and by LPDDR5X interface at 8 and 9 -/
  refreshes : Store Nat := []
  /-- refresh rate multiplier of each LPDDR5X interface, in eighths, 8 when unread (R57) -/
  lpRate : Store Nat := []
  /-- consecutive out-of-range retrains of WCK tracking and of ZQ calibration by interface (R524) -/
  wckBad : Store Nat := []
  zqBad : Store Nat := []
  deriving DecidableEq, Repr

/-! ## Counters, Tape and tags -/

/-- A performance counter: its value and its event select (R564). -/
structure PmuCtr where
  value : Nat := 0
  sel : W32 := 0x07FC0000
  deriving DecidableEq, Repr

/-- An event of one clock of a unit (R565, R567, R568): its number, the part of the unit, the context of the work plus one (0
for none), how many, and what a sample of it would report (R572). -/
structure PmuEvent where
  event : Nat
  part : Nat := 0
  ctx : Nat := 0
  count : Nat := 1
  info : Nat := 0
  tag : Nat := 0
  deriving DecidableEq, Repr

/-- A tagged frame in flight (R575, R576). -/
structure FrameTag where
  dst : Nat
  opc : Nat
  vc : Nat
  xid : Nat
  len : Nat
  t0 : Nat
  tag : Nat
  deriving DecidableEq, Repr

/-- The counters and the Tape. -/
structure Pmu where
  /-- by 16 × unit + counter -/
  ctrs : Store PmuCtr := []
  /-- number of the next snapshot and the time at which it is due plus one, 0 while the Tape is off (R570) -/
  snap : Nat := 0
  snapDue : Nat := 0
  /-- tagging generators of the fabric ports; 0 stands for the seed (R575) -/
  portGen : Store W32 := []
  portTag : Store (Option FrameTag) := []
  deriving DecidableEq, Repr

/-- What a read of host space that meets a completion timeout was for (R503). -/
inductive HostReader where
  /-- a ring structure, launch record or job record of a context, at a host bus address -/
  | ring (n bus : Nat)
  /-- a DMA unit -/
  | dma (n tag unit : Nat)
  /-- a slot of the unit in a Press engine, at a virtual address -/
  | press (p va : Nat)
  /-- any other engine's read for a command -/
  | engine (n tag va : Nat)
  /-- a Cutting Room share's read for a command -/
  | room (n tag share va : Nat)
  /-- a core's access -/
  | core (c va : Nat)
  deriving DecidableEq, Repr

/-- What the host got back from an access that answers. -/
inductive HostAnswer where
  | reg (v : Nat)
  | bar2 (bytes : List Byte) (ep : Bool)
  /-- Configuration Request Retry Status (R508) -/
  | cfgRetry
  | cfgDone
  deriving DecidableEq, Repr

/-- The system island and what stands around the compute fabric. -/
structure Plat where
  fuses : Fuses := {}
  boot : Boot := {}
  pins : Pins := {}
  tap : Tap := {}
  mgmt : Mgmt := {}
  power : Power := {}
  pmu : Pmu := {}
  /-- the high half of the timestamp latched for the next read (R464) -/
  tsHigh : Nat := 0
  /-- answers to the host's reads and configuration requests, oldest first -/
  answers : List HostAnswer := []
  deriving DecidableEq, Repr

end Sys2Proof.Machine
end

