-- ==== Sys2Proof/Machine/Media.lean ====
section
/-! DEFINITION. What the demultiplexer of the Cutting Room hands to its decoders, and what a decoder reads in a stream (R317 to R328). The
formats of the codecs are those of their own standards, which the spec names and does not describe: how a stream's bytes give these
records is a free function of Config (assumption 76). -/

namespace Sys2Proof.Machine

open Sys2Proof

/-- A unit of a selected stream: the payload of a PES packet, or a sample of an ISO track. -/
structure EsUnit where
  data : List Byte := []
  /-- presentation time in 90 kHz ticks, where the container states one -/
  pts : Option Int := none
  /-- duration in ticks, where the container states one -/
  dur : Option Nat := none
  deriving DecidableEq, Repr

/-- A selected stream: its codec as VCODEC or ACODEC codes it, the decoder configuration of its sample entry, matrix and range of an nclx
colr box, and its units in stream order. -/
structure EsStream where
  codec : Nat := 0
  config : List Byte := []
  nclx : Option (Nat × Bool) := none
  units : List EsUnit := []
  deriving DecidableEq, Repr

/-- The profiles of R320, and every other. -/
inductive Profile where
  | h262Simple | h262Main | h262P422
  | h264ConstrainedBaseline | h264Main | h264High | h264High10 | h264High422 | h264High10Intra | h264High422Intra
  | h265Main | h265Main10 | h265MainStill | h265Main422x10
  | av1Main
  | h266Main10 | h266Main10Still
  | other
  deriving DecidableEq, Repr

/-- How a coded picture stands in its frame. -/
inductive PicShape where
  | frame | top | bottom
  deriving DecidableEq, Repr

/-- A coded picture as a video engine reads and decodes it. -/
structure CodedPic where
  /-- the unit it starts in, and whether it is the first that does -/
  unit : Nat := 0
  leads : Bool := true
  /-- its place in presentation order -/
  order : Nat := 0
  /-- its layer, 0 for the base layer (R321) -/
  layer : Nat := 0
  /-- what makes it a random access point (R323): a sequence header or sequence header OBU before it, an I picture, an IDR picture, the
  recovery frame count of a recovery point SEI, an IRAP picture, a shown key frame -/
  seqHeader : Bool := false
  intra : Bool := false
  idr : Bool := false
  recovery : Option Nat := none
  irap : Bool := false
  shownKey : Bool := false
  /-- it references a picture before the random access point it follows -/
  leading : Bool := false
  /-- its data holds a syntax or semantic violation, misses a reference or fails a CRC (R342) -/
  violation : Bool := false
  /-- the level ×10; for H.262 1 Low, 2 Main, 3 High 1440, 4 High -/
  profile : Profile
  level : Nat
  highTier : Bool := false
  depth : Nat := 8
  /-- 0 4:0:0, 1 4:2:0, 2 4:2:2, 3 4:4:4 -/
  chroma : Nat := 1
  /-- H.264 arbitrary slice order or flexible macroblock order; AV1 large-scale tile decoding -/
  sliceOrder : Bool := false
  largeTile : Bool := false
  /-- luma samples a line and frame lines, after the stream's cropping window -/
  w : Nat
  h : Nat
  /-- chroma sample location, matrix coefficients and full-range flag where the stream states them -/
  loc : Nat := 0
  matrix : Nat := 2
  full : Bool := false
  shape : PicShape := .frame
  progressive : Bool := true
  /-- the sources of field order (R327) -/
  topFirst : Option Bool := none
  counts : Option (Int × Int) := none
  picStruct : Option Nat := none
  /-- the frame's duration in ticks, as the stream states it -/
  dur : Nat := 0
  /-- sample planes of the frame or field, line by line -/
  y : List Nat := []
  cb : List Nat := []
  cr : List Nat := []
  deriving DecidableEq, Repr

/-- A coded audio frame as the audio engine finds it in a stream. -/
structure AudioFrame where
  unit : Nat := 0
  leads : Bool := true
  data : List Byte := []
  /-- samples each channel holds, and how many a second -/
  samples : Nat
  rate : Nat
  /-- MPEG-1 Layer II; AAC-LC channel configuration -/
  mpeg1 : Bool := true
  aacLc : Bool := true
  chanConfig : Nat := 2
  /-- the channels decoded, and which of them is LFE -/
  channels : Nat := 2
  lfe : Option Nat := none
  /-- a syntax or semantic violation, or a CRC error -/
  violation : Bool := false
  deriving DecidableEq, Repr

end Sys2Proof.Machine
end

