-- ==== Sys2Proof/Config.lean ====
section
/-! DEFINITION. What an implementation fixes and the manual does not: free values. Every constant here is opaque:
no proof can see its value, so a claim that holds holds whatever the value is. Each has a row in the assumption log. -/

namespace Sys2Proof.Config

/-- A fresh free number for each value of the counter `State.free` (assumption 4). -/
opaque freeNat : Nat → Nat

/-- The value VEXP2 would give of a finite lane, taken where it lies within the 2 ulp of R235 (assumption 5). -/
opaque vexp2 : BitVec 32 → BitVec 32
/-- The value VLOG2 would give of a finite positive lane, taken within 2 ulp (R235; assumption 5). -/
opaque vlog2 : BitVec 32 → BitVec 32
/-- Which of the values within 1 ulp VRCP gives (R235; assumption 5). -/
opaque vrcpChoice : BitVec 32 → Nat
/-- Which of the values within 1 ulp VRSQ and the Press RSQRT give (R235, R290; assumption 5). -/
opaque vrsqChoice : BitVec 32 → Nat
/-- The value a drain forward function other than identity and ReLU would give of a finite value, taken within the bound of R235: function
code, value (assumption 5). -/
opaque drainFn : Nat → BitVec 32 → BitVec 32
/-- The value a drain derivative would give, taken within the bound of R264: function code, g, s (assumption 5). -/
opaque drainDeriv : Nat → BitVec 32 → BitVec 32 → BitVec 32
/-- The value POWT would give of a above 0 and t, taken within the 2 ulp of R290 (assumption 5). -/
opaque powt : BitVec 32 → Nat → BitVec 32

/-- Whether an access of a context to a page uses a cached translation that differs from the walk's: context, page, time
(R84 allows either; assumption 6). -/
opaque useCached : Nat → Nat → Nat → Bool
/-- Whether a line-cache hit finds a parity error (R117; assumption 7), by free counter. -/
opaque lineParity : Nat → Bool

/-- The coded pictures of a video stream in decoding order: codec, decoder configuration, units (R320, R321 name the codecs and leave
their formats to the codecs' own standards; assumption 76). -/
opaque videoPics : Nat → List (BitVec 8) → List Machine.EsUnit → List Machine.CodedPic
/-- The coded frames of an audio stream: codec, decoder configuration, units (R322; assumption 76). -/
opaque audioFrames : Nat → List (BitVec 8) → List Machine.EsUnit → List Machine.AudioFrame
/-- The output of the audio decoder that starts at the first of a list of coded frames, frame by frame and channel by channel (R322;
assumption 76). -/
opaque audioPcm : Nat → List (BitVec 8) → List (List (BitVec 8)) → List (List (List (BitVec 32)))
/-- The lines of a field that its frame does not hold, plane by plane (R326 says nothing of a field picture without its second;
assumption 77). -/
opaque missingField : Nat → List Nat
/-- The presentation time of a picture or audio frame that no stated time precedes, by its place (assumption 78). -/
opaque unstatedTime : Nat → Int

/-- How the cutting stage adds up a list of taps, each a value and a weight: over both axes at once or one after the other, in which order,
with or without rounding the products (R329 and R330 give the taps and FP32 and no order of operations; assumption 16). -/
opaque tapPlan : List (List (BitVec 32 × Int × Nat)) → Nat

/-- Audio resampled from a rate to 16,000 Hz: the number of samples wanted, the source rate and the source samples (R333 gives the pass
band and no filter; assumption 79). -/
opaque resampleAudio : Nat → Nat → List (BitVec 32) → List (BitVec 32)
/-- Weight i of the 400-point Hann window (R333; assumption 79). -/
opaque hann : Nat → BitVec 32
/-- The powers of the bins of a 512-point FFT (R333; assumption 79). -/
opaque fftPower : List (BitVec 32) → List (BitVec 32)
/-- The weight of an FFT bin in a mel filter: N_MEL, filter, bin (R333; assumption 79). -/
opaque melWeight : Nat → Nat → Nat → BitVec 32
/-- The natural logarithm of a filter output above 10^-10 (R333; assumption 79). -/
opaque lnMel : BitVec 32 → BitVec 32

/-- Whether a command whose PREWAIT handle is stale is dispatched, by context and tag (R491 speaks of what a WAIT would find, and a WAIT
on a stale handle ends without its condition; assumption 19). -/
opaque stalePrewait : Nat → Nat → Bool

/-- Tollasum's JEDEC manufacturer identity (R596 names it and gives no number). -/
opaque jedecId : Nat
/-- Tollasum's MIPI manufacturer ID (R543 names it and gives no number). -/
opaque mipiId : Nat
/-- The bus and device characteristics registers, and the initial maximum read and write lengths of the I3C port (R543). -/
opaque i3cReg : Nat → Nat
/-- SM3 of the boot ROM (R549: fixed for the stepping, no value given). -/
opaque romDigest : Nat

end Sys2Proof.Config
end

