-- ==== Sys2Proof/Machine/Fp.lean ====
section
/-! DEFINITION. Exact arithmetic on floating-point values and its one rounding (R223, R231 to R237). A value is read
as an exact dyadic number, computed on exactly, and rounded once at the end. -/

namespace Sys2Proof.Machine

/-- A value: finite `± m × 2^e`, an infinity or a NaN. A zero keeps its sign. -/
inductive Fv where
  | fin (neg : Bool) (m : Nat) (e : Int)
  | inf (neg : Bool)
  | nan
  deriving DecidableEq, Repr

/-- A binary floating-point layout: exponent and mantissa widths, and what the top codes mean (R223). -/
structure Fmt where
  /-- exponent bits -/
  eb : Nat
  /-- mantissa bits -/
  mb : Nat
  /-- exponent bias -/
  bias : Nat
  /-- the largest finite magnitude code -/
  maxCode : Nat
  /-- the infinity code, where the format has one -/
  infCode : Option Nat
  /-- the positive canonical NaN code (R225), where the format has one -/
  nanCode : Option Nat
  deriving DecidableEq, Repr

def Fmt.f64 : Fmt := ⟨11, 52, 1023, 0x7FEFFFFFFFFFFFFF, some 0x7FF0000000000000, some 0x7FF8000000000000⟩
def Fmt.f32 : Fmt := ⟨8, 23, 127, 0x7F7FFFFF, some 0x7F800000, some 0x7FC00000⟩
def Fmt.bf16 : Fmt := ⟨8, 7, 127, 0x7F7F, some 0x7F80, some 0x7FC0⟩
def Fmt.f16 : Fmt := ⟨5, 10, 15, 0x7BFF, some 0x7C00, some 0x7E00⟩
def Fmt.e4m3 : Fmt := ⟨4, 3, 7, 0x7E, none, some 0x7F⟩
def Fmt.e5m2 : Fmt := ⟨5, 2, 15, 0x7B, some 0x7C, some 0x7E⟩
def Fmt.e2m3 : Fmt := ⟨2, 3, 1, 0x1F, none, none⟩
def Fmt.e3m2 : Fmt := ⟨3, 2, 3, 0x1F, none, none⟩
def Fmt.e2m1 : Fmt := ⟨2, 1, 1, 0x7, none, none⟩

/-- The exponent of one unit in the last place of a subnormal. -/
def Fmt.emin (f : Fmt) : Int := 1 - (f.bias : Int) - (f.mb : Int)

/-- Total width of a code. -/
def Fmt.width (f : Fmt) : Nat := 1 + f.eb + f.mb

/-- The sign bit's weight. -/
def Fmt.signBit (f : Fmt) : Nat := 2 ^ (f.eb + f.mb)

/-- Decodes a code (R223): every NaN encoding reads as NaN (R225). -/
def Fmt.dec (f : Fmt) (c : Nat) : Fv :=
  let neg := bitOf c (f.eb + f.mb)
  let mag := c % f.signBit
  if some mag = f.infCode then .inf neg
  else if f.maxCode < mag then .nan
  else
    let ex := mag / 2 ^ f.mb
    let fr := mag % 2 ^ f.mb
    if ex = 0 then .fin neg fr f.emin
    else .fin neg (2 ^ f.mb + fr) (f.emin + (ex : Int) - 1)

/-- Rounds the exact magnitude `m × 2^e` to nearest, ties to even, with `p` significant bits and no unit below `2^lo`.
Answers the rounded mantissa (at most `2^p`) and its exponent. -/
def roundNear (p : Nat) (lo : Int) (m : Nat) (e : Int) : Nat × Int :=
  if m = 0 then (0, lo)
  else
    let len := Nat.log2 m + 1
    let q := max (e + (len : Int) - (p : Int)) lo
    if q ≤ e then (m * 2 ^ (e - q).toNat, q)
    else
      let s := (q - e).toNat
      let r := m / 2 ^ s
      let rem := m % 2 ^ s
      let half := 2 ^ (s - 1)
      (if half < rem ∨ (rem = half ∧ r % 2 = 1) then r + 1 else r, q)

/-- As `roundNear`, always toward zero: the lower neighbour of R242 and its exponent. -/
def roundDown (p : Nat) (lo : Int) (m : Nat) (e : Int) : Nat × Int :=
  if m = 0 then (0, lo)
  else
    let len := Nat.log2 m + 1
    let q := max (e + (len : Int) - (p : Int)) lo
    if q ≤ e then (m * 2 ^ (e - q).toNat, q) else (m / 2 ^ (q - e).toNat, q)

/-- The magnitude code of a rounded mantissa in the unbounded format (no range check; R236). -/
def Fmt.magCode (f : Fmt) (r : Nat × Int) : Nat := (r.2 - f.emin).toNat * 2 ^ f.mb + r.1

/-- The magnitude code of `m × 2^e` rounded to nearest, before any range check. -/
def Fmt.nearCode (f : Fmt) (m : Nat) (e : Int) : Nat := f.magCode (roundNear (f.mb + 1) f.emin m e)

/-- Puts a sign on a magnitude code. -/
def Fmt.signed (f : Fmt) (neg : Bool) (mag : Nat) : Nat := if neg then f.signBit + mag else mag

/-- IEEE rounding of a value to a format with infinities: overflow gives infinity, NaN is canonical (R225, R235). -/
def Fmt.enc (f : Fmt) (v : Fv) : Nat :=
  match v with
  | .nan => f.nanCode.getD 0
  | .inf neg => f.signed neg (f.infCode.getD f.maxCode)
  | .fin neg m e =>
    let c := f.nearCode m e
    if f.maxCode < c then f.signed neg (f.infCode.getD f.maxCode) else f.signed neg c

namespace Fv

/-- The signed integer `± m`. -/
def sgn (neg : Bool) (m : Nat) : Int := if neg then -(m : Int) else (m : Int)

/-- A finite value from an exact signed mantissa; `z` is the sign a zero takes. -/
def ofInt (m : Int) (e : Int) (z : Bool) : Fv := if m = 0 then .fin z 0 e else .fin (decide (m < 0)) m.natAbs e

/-- The negated value. -/
def neg : Fv → Fv
  | .fin s m e => .fin (!s) m e
  | .inf s => .inf (!s)
  | .nan => .nan

/-- The exact product (infinity times zero is NaN). -/
def mul : Fv → Fv → Fv
  | .nan, _ => .nan
  | _, .nan => .nan
  | .inf a, .inf b => .inf (a != b)
  | .inf a, .fin b m _ => if m = 0 then .nan else .inf (a != b)
  | .fin a m _, .inf b => if m = 0 then .nan else .inf (a != b)
  | .fin a m e, .fin b n d => .fin (a != b) (m * n) (e + d)

/-- The exact sum (opposite infinities are NaN; an exact zero is -0 only when both operands are negative zeros). -/
def add : Fv → Fv → Fv
  | .nan, _ => .nan
  | _, .nan => .nan
  | .inf a, .inf b => if a = b then .inf a else .nan
  | .inf a, .fin _ _ _ => .inf a
  | .fin _ _ _, .inf b => .inf b
  | .fin a m e, .fin b n d =>
    let l := min e d
    ofInt (sgn a m * 2 ^ (e - l).toNat + sgn b n * 2 ^ (d - l).toNat) l (a && b && m == 0 && n == 0)

/-- The exact difference. -/
def sub (x y : Fv) : Fv := add x (neg y)

/-- The exact sum of a list. -/
def sum : List Fv → Fv
  | [] => .fin false 0 0
  | [x] => x
  | x :: xs => add x (sum xs)

/-- Whether the value is a zero. -/
def isZero : Fv → Bool
  | .fin _ m _ => m == 0
  | _ => false

/-- Whether the value is finite. -/
def isFin : Fv → Bool
  | .fin _ _ _ => true
  | _ => false

/-- Whether the value is a NaN. -/
def isNan : Fv → Bool
  | .nan => true
  | _ => false

/-- Strict order of numbers; false when either is a NaN; the two zeros are equal. -/
def lt : Fv → Fv → Bool
  | .nan, _ => false
  | _, .nan => false
  | .inf a, .inf b => a && !b
  | .inf a, .fin _ _ _ => a
  | .fin _ _ _, .inf b => !b
  | .fin a m e, .fin b n d =>
    let l := min e d
    decide (sgn a m * 2 ^ (e - l).toNat < sgn b n * 2 ^ (d - l).toNat)

/-- Equality of numbers; false when either is a NaN. -/
def eq (x y : Fv) : Bool := !isNan x && !isNan y && !lt x y && !lt y x

/-- The sign bit. -/
def isNeg : Fv → Bool
  | .fin s _ _ => s
  | .inf s => s
  | .nan => false

end Fv

/-- The integer square root of `n` by `k` bits, from the top: the largest `r` below `2^k` with `r * r ≤ n`. -/
def isqrt (n : Nat) : Nat → Nat → Nat
  | 0, r => r
  | k + 1, r => if (r + 2 ^ k) * (r + 2 ^ k) ≤ n then isqrt n k (r + 2 ^ k) else isqrt n k r

/-- The quotient of two magnitudes with one sticky bit, exact to `bits` significant bits: a mantissa and an exponent. -/
def divSticky (bits m : Nat) (e : Int) (n : Nat) (d : Int) : Nat × Int :=
  let s := bits + 2 + (Nat.log2 n + 1)
  let q := m * 2 ^ s / n
  (2 * q + b2n (m * 2 ^ s % n != 0), e - d - (s : Int) - 1)

/-- The square root of `m × 2^e` with one sticky bit, exact to `bits` significant bits. -/
def sqrtSticky (bits m : Nat) (e : Int) : Nat × Int :=
  let odd := e % 2 ≠ 0
  let m1 := if odd then 2 * m else m
  let e1 := if odd then e - 1 else e
  let s := 2 * (bits + 2)
  let n := m1 * 2 ^ s
  let r := isqrt n ((Nat.log2 n + 1) / 2 + 1) 0
  (2 * r + b2n (r * r != n), (e1 - (s : Int)) / 2 - 1)

namespace Fmt

/-- Correctly rounded sum. -/
def add (f : Fmt) (a b : Nat) : Nat := f.enc (Fv.add (f.dec a) (f.dec b))
/-- Correctly rounded difference. -/
def sub (f : Fmt) (a b : Nat) : Nat := f.enc (Fv.sub (f.dec a) (f.dec b))
/-- Correctly rounded product. -/
def mul (f : Fmt) (a b : Nat) : Nat := f.enc (Fv.mul (f.dec a) (f.dec b))
/-- Fused multiply-add, rounded once. -/
def fma (f : Fmt) (a b c : Nat) : Nat := f.enc (Fv.add (Fv.mul (f.dec a) (f.dec b)) (f.dec c))

/-- Correctly rounded quotient, with the IEEE 754 special values. -/
def div (f : Fmt) (a b : Nat) : Nat :=
  match f.dec a, f.dec b with
  | .nan, _ => f.enc .nan
  | _, .nan => f.enc .nan
  | .inf _, .inf _ => f.enc .nan
  | .inf x, .fin y _ _ => f.enc (.inf (x != y))
  | .fin x _ _, .inf y => f.enc (.fin (x != y) 0 0)
  | .fin x m e, .fin y n d =>
    if n = 0 then (if m = 0 then f.enc .nan else f.enc (.inf (x != y)))
    else
      let q := divSticky (f.mb + 1) m e n d
      f.enc (.fin (x != y) q.1 q.2)

/-- Correctly rounded square root, with the IEEE 754 special values. -/
def sqrt (f : Fmt) (a : Nat) : Nat :=
  match f.dec a with
  | .nan => f.enc .nan
  | .inf x => if x then f.enc .nan else f.enc (.inf false)
  | .fin x m e =>
    if m = 0 then f.signed x 0
    else if x then f.enc .nan
    else
      let r := sqrtSticky (f.mb + 1) m e
      f.enc (.fin false r.1 r.2)

end Fmt

/-! ## FP32 lanes -/

/-- The value of FP32 bits. -/
def f32v (a : W32) : Fv := Fmt.f32.dec a.toNat
/-- FP32 bits of a value, rounded to nearest with ties to even (R235). -/
def f32of (v : Fv) : W32 := BitVec.ofNat 32 (Fmt.f32.enc v)
/-- The canonical FP32 NaN (R225). -/
def f32nan : W32 := 0x7FC00000#32
/-- FP32 1.0. -/
def f32one : W32 := 0x3F800000#32

def f32add (a b : W32) : W32 := f32of (Fv.add (f32v a) (f32v b))
def f32sub (a b : W32) : W32 := f32of (Fv.sub (f32v a) (f32v b))
def f32mul (a b : W32) : W32 := f32of (Fv.mul (f32v a) (f32v b))
def f32fma (a b c : W32) : W32 := f32of (Fv.add (Fv.mul (f32v a) (f32v b)) (f32v c))
def f32div (a b : W32) : W32 := BitVec.ofNat 32 (Fmt.f32.div a.toNat b.toNat)
def f32sqrt (a : W32) : W32 := BitVec.ofNat 32 (Fmt.f32.sqrt a.toNat)
/-- FP32 of an exact integer, ties to even. -/
def f32ofInt (i : Int) : W32 := f32of (Fv.ofInt i 0 false)

/-- Total order key of a number for minimum and maximum: -0 is below +0 (R192). -/
def f32less (a b : W32) : Bool :=
  Fv.lt (f32v a) (f32v b) || (Fv.eq (f32v a) (f32v b) && a.getLsbD 31 && !b.getLsbD 31)

/-- Minimum; a NaN yields the other operand, two NaNs the canonical NaN (R192). -/
def f32min (a b : W32) : W32 :=
  match (f32v a).isNan, (f32v b).isNan with
  | true, true => f32nan
  | true, false => b
  | false, true => a
  | false, false => if f32less b a then b else a

/-- Maximum; a NaN yields the other operand, two NaNs the canonical NaN (R192). -/
def f32max (a b : W32) : W32 :=
  match (f32v a).isNan, (f32v b).isNan with
  | true, true => f32nan
  | true, false => b
  | false, true => a
  | false, false => if f32less a b then b else a

/-- FP32 to INT32, ties to even, saturated; NaN gives 0 (R192 VCVTI). -/
def f32toI32 (a : W32) : W32 :=
  match f32v a with
  | .nan => 0
  | .inf s => if s then 0x80000000#32 else 0x7FFFFFFF#32
  | .fin s m e =>
    let r := roundNear (Nat.log2 m + 2 + e.natAbs) 0 m e
    let n := r.1 * 2 ^ r.2.toNat
    if s then (if 2 ^ 31 ≤ n then 0x80000000#32 else BitVec.ofInt 32 (-(n : Int)))
    else (if 2 ^ 31 ≤ n then 0x7FFFFFFF#32 else BitVec.ofNat 32 n)

/-- `a` choices within an error bound: of the codes at most one step from the correctly rounded one, those whose error
is at most one unit in the last place of the correctly rounded result, as judged by `ok` (R235, R290). -/
def pickWithin (cands : List W32) (ok : W32 → Bool) (rn : W32) (choice : Nat) : W32 :=
  let good := cands.filter ok
  good.getD (choice % max good.length 1) rn

/-- The unit in the last place of an FP32 result, as an exponent of two (R235). -/
def f32ulp (c : W32) : Int :=
  let ex := bitsOf c.toNat 23 8
  if ex = 0 then Fmt.f32.emin else Fmt.f32.emin + (ex : Int) - 1

/-- Whether |c × x − 1| ≤ ulp(rn) × |x|: `c` lies within one ulp of 1 / x. -/
def rcpOk (x rn c : W32) : Bool :=
  match f32v x, f32v c with
  | .fin sx m e, .fin sc n d =>
    let err := Fv.sub (Fv.mul (.fin sx m e) (.fin sc n d)) (.fin false 1 0)
    let lim : Fv := .fin false m (e + f32ulp rn)
    match err with
    | .fin _ k g => !Fv.lt lim (.fin false k g)
    | _ => false
  | _, _ => false

/-- VRCP: within 1 ulp of 1 / a, with the special values of R235. -/
def f32rcp (a : W32) : W32 :=
  match f32v a with
  | .nan => f32nan
  | .inf s => if s then 0x80000000#32 else 0
  | .fin s m _ =>
    if m = 0 then (if s then 0xFF800000#32 else 0x7F800000#32)
    else
      let rn := f32div f32one a
      pickWithin [rn, rn - 1, rn + 1] (rcpOk a rn) rn (Config.vrcpChoice a)

/-- Whether `c` lies within one ulp of 1 / sqrt(x): (c − u)² × x ≤ 1 ≤ (c + u)² × x, c above u. -/
def rsqOk (x rn c : W32) : Bool :=
  match f32v x, f32v c with
  | .fin _ m e, .fin _ n d =>
    let u : Fv := .fin false 1 (f32ulp rn)
    let hi := Fv.add (.fin false n d) u
    let lo := Fv.sub (.fin false n d) u
    let one : Fv := .fin false 1 0
    let sq := fun (v : Fv) => Fv.mul (Fv.mul v v) (.fin false m e)
    !Fv.lt (sq hi) one && (lo.isNeg || !Fv.lt one (sq lo))
  | _, _ => false

/-- The correctly rounded 1 / sqrt(m × 2^e). -/
def rsqNear (m : Nat) (e : Int) : W32 :=
  let r := sqrtSticky 60 m e
  let q := divSticky 60 1 0 r.1 r.2
  f32of (.fin false q.1 q.2)

/-- VRSQ and RSQRT: within 1 ulp of 1 / sqrt(a), with the special values of R235. -/
def f32rsq (a : W32) : W32 :=
  match f32v a with
  | .nan => f32nan
  | .inf s => if s then f32nan else 0
  | .fin s m e =>
    if m = 0 then (if s then 0xFF800000#32 else 0x7F800000#32)
    else if s then f32nan
    else
      let rn := rsqNear m e
      pickWithin [rn, rn - 1, rn + 1] (rsqOk a rn) rn (Config.vrsqChoice a)

/-! ## FP64 totals -/

def f64add (a b : Nat) : Nat := Fmt.f64.add a b
/-- FP32 bits widened exactly to FP64 bits. -/
def f64of32 (a : W32) : Nat := Fmt.f64.enc (f32v a)
/-- FP64 bits rounded to FP32. -/
def f32of64 (a : Nat) : W32 := f32of (Fmt.f64.dec a)
def f64lt (a b : Nat) : Bool := Fv.lt (Fmt.f64.dec a) (Fmt.f64.dec b)
def f64le (a b : Nat) : Bool := f64lt a b || Fv.eq (Fmt.f64.dec a) (Fmt.f64.dec b)

end Sys2Proof.Machine
end

