-- ==== Sys2Proof/Machine/Quant.lean ====
section
/-! DEFINITION. Element formats, block scales and the conversion to narrower formats (R223 to R243), with the
generator of stochastic rounding (R243, R295). -/

namespace Sys2Proof.Machine

/-- The twelve element formats (R223), in code order. -/
inductive ElemFmt where
  | fp32 | bf16 | fp16 | e4m3 | e5m2 | e2m3 | e3m2 | e2m1 | int8 | int4 | uint8 | fb4
  deriving DecidableEq, Repr

/-- The format of a code; 0xC to 0xF are reserved (R116, R223). -/
def ElemFmt.ofCode : Nat → Option ElemFmt
  | 0 => some .fp32 | 1 => some .bf16 | 2 => some .fp16 | 3 => some .e4m3 | 4 => some .e5m2 | 5 => some .e2m3
  | 6 => some .e3m2 | 7 => some .e2m1 | 8 => some .int8 | 9 => some .int4 | 10 => some .uint8 | 11 => some .fb4
  | _ => none

/-- Bits per element (R115). -/
def ElemFmt.bits : ElemFmt → Nat
  | .fp32 => 32 | .bf16 => 16 | .fp16 => 16 | .e4m3 => 8 | .e5m2 => 8 | .e2m3 => 6 | .e3m2 => 6 | .e2m1 => 4
  | .int8 => 8 | .int4 => 4 | .uint8 => 8 | .fb4 => 4

/-- The floating-point layout of a format; FB4 elements are E2M1 (R223). -/
def ElemFmt.fmt? : ElemFmt → Option Fmt
  | .fp32 => some .f32 | .bf16 => some .bf16 | .fp16 => some .f16 | .e4m3 => some .e4m3 | .e5m2 => some .e5m2
  | .e2m3 => some .e2m3 | .e3m2 => some .e3m2 | .e2m1 => some .e2m1 | .fb4 => some .e2m1
  | .int8 => none | .int4 => none | .uint8 => none

/-- A `w`-bit two's-complement code as an integer. -/
def twos (w c : Nat) : Int := if c % 2 ^ w < 2 ^ (w - 1) then (c % 2 ^ w : Nat) else (c % 2 ^ w : Nat) - (2 ^ w : Nat)

/-- The value of an element code (R223); integer and pixel codes are exact. -/
def ElemFmt.val (f : ElemFmt) (c : Nat) : Fv :=
  match f with
  | .int8 => Fv.ofInt (twos 8 c) 0 false
  | .int4 => Fv.ofInt (twos 4 c) 0 false
  | .uint8 => Fv.ofInt ((c % 256 : Nat) : Int) 0 false
  | .fp32 => Fmt.f32.dec c | .bf16 => Fmt.bf16.dec c | .fp16 => Fmt.f16.dec c | .e4m3 => Fmt.e4m3.dec c
  | .e5m2 => Fmt.e5m2.dec c | .e2m3 => Fmt.e2m3.dec c | .e3m2 => Fmt.e3m2.dec c | .e2m1 => Fmt.e2m1.dec c
  | .fb4 => Fmt.e2m1.dec c

/-- The value as the array reads it: BF16 and FP16 subnormals are zero of the same sign (R231). -/
def ElemFmt.arrayVal (f : ElemFmt) (c : Nat) : Fv :=
  match f, f.val c with
  | .bf16, .fin s m e => if m < 2 ^ 7 then .fin s 0 e else .fin s m e
  | .fp16, .fin s m e => if m < 2 ^ 10 then .fin s 0 e else .fin s m e
  | _, v => v

/-- Element `n` of a row of `w`-bit elements: every packing of R224 places element `n` at bit `n × w` of the row read as
one little-endian number. -/
def rowElem (row w n : Nat) : Nat := bitsOf row (n * w) w

/-- The row with element `n` replaced. -/
def setRowElem (row w n v : Nat) : Nat := putBits row (n * w) w v

/-! ## Block scales -/

/-- The value of an E8M0 scale code (R226). -/
def e8m0Val (c : Nat) : Fv := if c % 256 = 255 then .nan else .fin false 1 ((c % 256 : Nat) - 127)

/-- The value of a UE4M4 scale code (R228). -/
def ue4m4Val (c : Nat) : Fv :=
  let k := c % 256
  if k = 255 then .nan
  else if k < 16 then .fin false k (-10)
  else .fin false (16 + k % 16) ((k / 16 : Nat) - 11)

/-- How the block scales of an operation are read. -/
inductive ScaleKind where
  | none | mx | fb4
  deriving DecidableEq, Repr

/-- Elements per block: 32 for MX, 16 for FB4 (R227, R228). -/
def ScaleKind.block : ScaleKind → Nat
  | .none => 1 | .mx => 32 | .fb4 => 16

/-- The value of a scale code. -/
def ScaleKind.val : ScaleKind → Nat → Fv
  | .none, _ => .fin false 1 0
  | .mx, c => e8m0Val c
  | .fb4, c => ue4m4Val c

/-- An element value under MX or FB4 before its scale: INT8 under MX is code × 2^-6 (R227). -/
def scaledElemVal (f : ElemFmt) (k : ScaleKind) (v : Fv) : Fv :=
  if k = .mx ∧ f = .int8 then Fv.mul v (.fin false 1 (-6)) else v

/-! ## Conversion -/

/-- What one conversion gave: the code, and whether it counts as a saturation or a non-finite (R237). -/
structure Conv where
  code : Nat
  sat : Bool
  nf : Bool
  deriving DecidableEq, Repr

/-- The xorshift steps of R243 on one 32-bit state. -/
def xorshift (st : W32) : W32 :=
  let a := st ^^^ (st <<< 13)
  let b := a ^^^ (a >>> 17)
  b ^^^ (b <<< 5)

/-- A generator seed, with zero replaced by one (R243, R295). -/
def seedState (seed : W32) (index : Nat) : W32 :=
  let st := seed ^^^ BitVec.ofNat 32 ((index + 1) * 0x9E3779B9)
  if st = 0 then 1 else st

/-- How a conversion rounds: to nearest, or at random with 16 bits (R236, R242). -/
inductive RoundMode where
  | near
  | rand (r : Nat)
  deriving DecidableEq, Repr

/-- The magnitude `m × 2^e` rounded in a format with `p` significant bits and least unit `2^lo`. -/
def roundMag (rm : RoundMode) (p : Nat) (lo : Int) (m : Nat) (e : Int) : Nat × Int :=
  match rm with
  | .near => roundNear p lo m e
  | .rand r =>
    let d := roundDown p lo m e
    let s := (d.2 - e).toNat
    let f := if d.2 ≤ e then 0 else (m % 2 ^ s) * 2 ^ 16 / 2 ^ s
    if 2 ^ 16 ≤ f + r then (d.1 + 1, d.2) else d

/-- The magnitude rounded to an integer. -/
def roundInt (rm : RoundMode) (m : Nat) (e : Int) : Nat :=
  let r := roundMag rm (Nat.log2 m + 2 + e.natAbs) 0 m e
  r.1 * 2 ^ r.2.toNat

/-- Conversion of a finite magnitude to a floating-point format; `over` is the code an overflow writes and whether it
counts as non-finite rather than a saturation. -/
def convFloat (f : Fmt) (rm : RoundMode) (neg : Bool) (m : Nat) (e : Int) (above : Nat × Bool) : Conv :=
  let c := f.magCode (roundMag rm (f.mb + 1) f.emin m e)
  if f.maxCode < c then ⟨f.signed neg above.1, !above.2, above.2⟩ else ⟨f.signed neg c, false, false⟩

/-- Conversion of a finite magnitude to an integer format of `w` bits: in range down to -2^(w-1) (R236, R237). -/
def convInt (w : Nat) (rm : RoundMode) (neg : Bool) (m : Nat) (e : Int) : Conv :=
  let n := roundInt rm m e
  if neg then
    (if n ≤ 2 ^ (w - 1) then ⟨(2 ^ w - n) % 2 ^ w, false, false⟩ else ⟨2 ^ (w - 1), true, false⟩)
  else (if n < 2 ^ (w - 1) then ⟨n, false, false⟩ else ⟨2 ^ (w - 1) - 1, true, false⟩)

/-- Conversion to an unsigned pixel: the manual gives none for a drain (R148); TROWW rounds and saturates to 0..255. -/
def convPixel (rm : RoundMode) (neg : Bool) (m : Nat) (e : Int) : Conv :=
  let n := roundInt rm m e
  if neg then ⟨0, n != 0, false⟩ else if n < 256 then ⟨n, false, false⟩ else ⟨255, true, false⟩

/-- The code written for a NaN or infinity (R237). `nfm` is NFMODE. -/
def convSpecial (f : ElemFmt) (nfm : Bool) (v : Fv) : Nat :=
  match f.fmt? with
  | some g =>
    match v with
    | .nan => g.nanCode.getD g.maxCode
    | .inf s =>
      match g.infCode, g.nanCode with
      | some c, _ => g.signed s c
      | none, some c => if nfm then c else g.signed s g.maxCode
      | none, none => g.signed s g.maxCode
    | .fin _ _ _ => 0
  | none =>
    let top := match f with | .int8 => 127 | .int4 => 7 | _ => 255
    let bot := match f with | .int8 => 128 | .int4 => 8 | _ => 0
    if v.isNeg then bot else top

/-- The narrowing conversion of R236, R237 and R242. `nfm` is NFMODE; `clamp` marks an element of a block whose scale
was clamped, whose overflow saturates in either mode (R239). -/
def convert (f : ElemFmt) (rm : RoundMode) (nfm clamp : Bool) (v : Fv) : Conv :=
  match v with
  | .nan => ⟨convSpecial f nfm v, false, true⟩
  | .inf _ => ⟨convSpecial f nfm v, false, true⟩
  | .fin neg m e =>
    match f with
    | .int8 => convInt 8 rm neg m e
    | .int4 => convInt 4 rm neg m e
    | .uint8 => convPixel rm neg m e
    | _ =>
      match f.fmt? with
      | none => ⟨0, false, false⟩
      | some g =>
        let above : Nat × Bool :=
          if nfm && !clamp then
            (match g.infCode, g.nanCode with
             | some c, _ => (c, true)
             | none, some c => (c, true)
             | none, none => (g.maxCode, false))
          else (g.maxCode, false)
        if f = .e4m3 ∧ above.2 = true then
          let r := convFloat g rm neg m e above
          if r.nf then ⟨0x7F, false, true⟩ else r
        else convFloat g rm neg m e above

/-- The largest finite element magnitude M of R238. -/
def maxElem : ElemFmt → Fv
  | .e4m3 => .fin false 448 0
  | .e5m2 => .fin false 57344 0
  | .e2m3 => .fin false 15 (-1)
  | .e3m2 => .fin false 28 0
  | .e2m1 => .fin false 6 0
  | .fb4 => .fin false 6 0
  | .int8 => .fin false 127 (-6)
  | _ => .fin false 1 0

/-- The largest finite |y| of a block; a zero for none (R238). -/
def blockMax (ys : List Fv) : Fv :=
  ys.foldl (fun acc v => match v with
    | .fin _ m e => if Fv.lt acc (.fin false m e) then .fin false m e else acc
    | _ => acc) (.fin false 0 0)

/-- The least integer e, from the given start upward, with amax ≤ M × 2^e. -/
def mxSearch (amax mx : Fv) : Nat → Int → Int
  | 0, e => e
  | k + 1, e => if Fv.lt (Fv.mul mx (.fin false 1 e)) amax then mxSearch amax mx k (e + 1) else e

/-- The E8M0 scale code for a block maximum, and whether the exponent was clamped (R238). -/
def mxScale (f : ElemFmt) (amax : Fv) : Nat × Bool :=
  match amax with
  | .fin _ m e =>
    if m = 0 then (127, false)
    else
      let mx := maxElem f
      let start : Int := match mx with
        | .fin _ k g => e + (Nat.log2 m : Int) - g - (Nat.log2 k : Int) - 1
        | _ => 0
      let x := mxSearch amax mx 4 start
      if x < -127 then (0, true) else if 127 < x then (254, true) else ((x + 127).toNat, false)
  | _ => (127, false)

/-- The least UE4M4 code from `c` upward whose value times 6 is at least amax, or 0xFE. -/
def fb4Search (amax : Fv) : Nat → Nat → Nat
  | 0, _ => 254
  | k + 1, c => if Fv.lt (Fv.mul (ue4m4Val c) (.fin false 6 0)) amax then fb4Search amax k (c + 1) else c

/-- The UE4M4 scale code for a block maximum, and whether it was clamped (R239). -/
def fb4Scale (amax : Fv) : Nat × Bool :=
  if amax.isZero then (0, false)
  else
    let c := fb4Search amax 254 1
    (c, Fv.lt (Fv.mul (ue4m4Val c) (.fin false 6 0)) amax || (c == 1 && Fv.lt amax (.fin false 6 (-10))))

/-- The scale code of a block (R238 to R240): under NFMODE 1 a block with a non-finite value takes the NaN code. -/
def blockScale (f : ElemFmt) (k : ScaleKind) (nfm : Bool) (ys : List Fv) : Nat × Bool :=
  if nfm && ys.any (fun v => !v.isFin) then (255, false)
  else match k with
    | .none => (0, false)
    | .mx => mxScale f (blockMax ys)
    | .fb4 => fb4Scale (blockMax ys)

/-- A value divided by its block scale, exact for a power of two and with a sticky bit otherwise (R238, R239). -/
def divScale (f : ElemFmt) (k : ScaleKind) (code : Nat) (v : Fv) : Fv :=
  match v, k.val code with
  | .fin s m e, .fin _ n d =>
    if n = 0 then .fin s 0 0
    else
      let q := if n = 1 then (m, e - d) else divSticky 60 m e n d
      if k = .mx ∧ f = .int8 then .fin s q.1 (q.2 + 6) else .fin s q.1 q.2
  | _, _ => v

/-- One element of a block-scaled destination: its conversion under the block's scale code (R238 to R240). -/
def convertScaled (f : ElemFmt) (k : ScaleKind) (rm : RoundMode) (nfm : Bool) (sc : Nat × Bool) (v : Fv) : Conv :=
  if sc.1 = 255 then ⟨0, false, !v.isFin⟩
  else if k = .fb4 ∧ sc.1 = 0 ∧ v.isFin then ⟨0, false, false⟩
  else convert f rm nfm true (divScale f k sc.1 v)

/-- The decoded value of a code under its block scale (R227, R228, R247). -/
def decodeScaled (f : ElemFmt) (k : ScaleKind) (sc code : Nat) : Fv :=
  match k with
  | .none => f.val code
  | _ => match k.val sc with
    | .nan => .nan
    | s => Fv.mul (scaledElemVal f k (f.val code)) s

end Sys2Proof.Machine
end

