-- ==== Sys2Proof/Machine/PressState.lean ====
section
/-! DEFINITION. What a Press command and the Press engines hold (R281 to R308). -/

namespace Sys2Proof.Machine

/-- Where a Press command stands. -/
inductive PressPhase where
  /-- waits for the gate of its step (R274) -/
  | gate
  /-- the gate opened; the counter word and the publication records are being read (R298, R301) -/
  | reading
  /-- slots 6 and 7 of a factored command are being read (R292) -/
  | opening
  /-- units are handed out and run (R302) -/
  | running
  /-- row and column statistics are being written (R292) -/
  | closing
  deriving DecidableEq, Repr

/-- A Press command that runs. -/
structure PressJob where
  /-- the 512 bytes of the job record as one little-endian number (R285) -/
  jrec : Nat := 0
  phase : PressPhase := .gate
  /-- half and executing engines (R282) -/
  half : Nat := 0
  engines : List Nat := []
  total : Nat := 0
  /-- next unit not handed out -/
  next : Nat := 0
  /-- units completed -/
  done : Nat := 0
  /-- an abort or a fault stopped the hand-out -/
  stop : Bool := false
  aborted : Bool := false
  timeout : Bool := false
  /-- faulted unit plus one, 0 for none -/
  faultUnit : Nat := 0
  fcause : Nat := 0
  /-- CLIP of the gate of the step (R289) -/
  clip : W32 := 0
  /-- the step counter as read plus 1; 0 while the gate has not opened -/
  t : Nat := 0
  sat : Nat := 0
  nonfinite : Nat := 0
  poisoned : Nat := 0
  /-- a poisoned block was met and its record written (R305) -/
  poisonMet : Bool := false
  /-- a unit gathered preconditioner statistics (R306) -/
  gathered : Bool := false
  leftCopy : Nat := 0
  rightCopy : Nat := 0
  leftEpoch : Nat := 0
  rightEpoch : Nat := 0
  /-- slots 6 and 7 as read, with their poisoned 32-element groups -/
  rowOld : List W32 := []
  colOld : List W32 := []
  rowBad : List Nat := []
  colBad : List Nat := []
  sumrow : W32 := 0
  /-- partial accumulators of each engine: key engine × 65536 + index -/
  racc : Store W32 := []
  cacc : Store W32 := []
  deriving DecidableEq, Repr

/-- Where a Press engine met a parity error: the engine, and whether in the array phase of a unit (R304). -/
structure PressPart where
  engine : Nat
  array : Bool := false
  deriving DecidableEq, Repr

/-- One Press engine (R281). -/
structure PressEng where
  busy : Bool := false
  ctx : Nat := 0
  tag : Nat := 0
  unit : Nat := 0
  /-- span within the unit -/
  span : Nat := 0
  /-- restarts of the span in progress, and of the array phase of the unit (R304) -/
  retries : Nat := 0
  arrayRetries : Nat := 0
  /-- preconditioned gradient of the unit, row-major (R299) -/
  gp : List W32 := []
  /-- every element of the unit is poisoned (R305) -/
  bad : Bool := false
  deriving DecidableEq, Repr

end Sys2Proof.Machine
end

