-- ==== Sys2Proof/Machine/RoomState.lean ====
section
/-! DEFINITION. The Cutting Room: what an ingest command and the samples it has started hold (R310 to R351). -/

namespace Sys2Proof.Machine

open Sys2Proof

/-- A request of the read service (R430, R432). -/
structure RsReq where
  off : Nat
  len : Nat
  xid : Nat := 0
  sent : Bool := false
  done : Bool := false
  /-- byte ranges received, as offsets in the object -/
  got : List (Nat × Nat) := []
  deriving DecidableEq, Repr

/-- How a sample ended (R338, R343): its clips as STATE entries, or the reason it is dropped for. -/
inductive SampleEnd where
  | running
  | clips (l : List Nat)
  | dropped (reason : Nat)
  deriving DecidableEq, Repr

/-- A sample that a share has started (R311, R340). -/
structure RoomSample where
  share : Nat
  /-- the video engine it runs on (R310, R311) -/
  engine : Nat := 0
  pos : Nat
  index : Nat
  /-- its table entry as one number -/
  entry : Nat
  slots : List Nat := []
  reqs : List RsReq := []
  /-- position of its range in the fetch buffer -/
  fetch : Nat := 0
  /-- what the demultiplexer has read of its range from the fetch buffer, by offset in the range -/
  src : Memory := []
  /-- a poisoned word of its range was fetched -/
  poisoned : Bool := false
  how : SampleEnd := .running
  deriving DecidableEq, Repr

/-- An ingest command that runs (R312 to R350). A clip is kept as its slot, with bit 16 set when the sample names audio. -/
structure IngestJob where
  jrec : Nat := 0
  /-- next position to start -/
  next : Nat := 0
  /-- first position not consumed -/
  first : Nat := 0
  /-- positions consumed -/
  consumed : Nat := 0
  samples : List RoomSample := []
  win : List Nat := []
  /-- clips that enter next, of the last sample consumed -/
  pend : List Nat := []
  st : W32 := 0
  /-- emissions and releases since STATE was zeroed -/
  emitted : Nat := 0
  released : Nat := 0
  /-- slots of the records emitted and not released, oldest first -/
  out : List Nat := []
  /-- records this command emitted -/
  count : Nat := 0
  sat : Nat := 0
  drops : List Nat := [0, 0, 0, 0, 0, 0, 0, 0, 0]
  noAudio : Nat := 0
  /-- next position of the fetch buffer of each share -/
  fetch : List Nat := [0, 0]
  /-- slots the next sample waits for (R341) -/
  wants : Nat := 0
  /-- status, cause and position with which the command ends once its STATE block is written in remote space -/
  ending : Option (Nat × Nat × Nat) := none
  deriving DecidableEq, Repr

end Sys2Proof.Machine
end

