-- ==== Sys2Proof/Syntax.lean ====
section
/-! DEFINITION. The commands of the S1: one constructor per row of the operation table, in its order, but that seven
rows without operands stand last (compiled code can build a command with operands only at one of the first 245 places). A core instruction
takes the core index (R11) and bits [55:0] of its word (R178); its row fixes the major opcode. The other rows take what
their step names: a context, a command's tag, a unit, or what arrives from outside (a frame, a measured value). -/

namespace Sys2Proof

open Machine

/-- The commands (95_what_each_step_holds: each is one indivisible step). -/
inductive Instr where
  /-- NOP (R219). Core instruction with no effect. -/
  | nop (c : Nat) (w : W64)
  /-- END (R218). Waits for every issued instruction, fences with scopes H and N, releases tile registers, discards run-ahead data and ends the core's work. -/
  | endWork (c : Nat) (b : Body)
  /-- ALU (R184). Scalar register arithmetic or logic selected by FN. -/
  | alu (c : Nat) (b : Body)
  /-- ALUI (R184). Scalar arithmetic or logic with a sign-extended immediate. -/
  | alui (c : Nat) (b : Body)
  /-- MOVI (R186). Loads a sign-extended 40-bit immediate into a scalar register. -/
  | movi (c : Nat) (b : Body)
  /-- MOVHI (R186). Replaces bits [63:40] of a scalar value with an immediate. -/
  | movhi (c : Nat) (b : Body)
  /-- RDSYS (R187). Reads the timestamp, core index, context, Block k or a conversion statistic into a scalar register. -/
  | rdsys (c : Nat) (b : Body)
  /-- BR (R190). Branches on a compare of two scalar registers. -/
  | br (c : Nat) (b : Body)
  /-- BRP (R190). Branches on a predicate test. -/
  | brp (c : Nat) (b : Body)
  /-- JAL (R190). Jumps relative to the PC and writes the link register. -/
  | jal (c : Nat) (b : Body)
  /-- JALR (R191). Jumps through a register and writes the link register, faulting on a misaligned target. -/
  | jalr (c : Nat) (b : Body)
  /-- LDL (R188). Loads from the local core store by offset without translation. -/
  | ldl (c : Nat) (b : Body)
  /-- STL (R188). Stores to the local core store by offset without translation. -/
  | stl (c : Nat) (b : Body)
  /-- LD (R188). Loads through a translated virtual address. -/
  | ld (c : Nat) (b : Body)
  /-- ST (R188). Stores through a translated virtual address. -/
  | st (c : Nat) (b : Body)
  /-- VOP (R192). Per-lane vector arithmetic selected by FN under the lane predicate. -/
  | vop (c : Nat) (b : Body)
  /-- VCMP (R193). Per-lane compare writing a predicate register. -/
  | vcmp (c : Nat) (b : Body)
  /-- VRED (R194). Reduces enabled lanes in a fixed tree into a scalar register. -/
  | vred (c : Nat) (b : Body)
  /-- PLOG (R195). Predicate logic and moves between predicates and scalar registers. -/
  | plog (c : Nat) (b : Body)
  /-- VLD (R196). Loads a 256-byte line through a virtual address into a vector register. -/
  | vld (c : Nat) (b : Body)
  /-- VST (R196). Stores the enabled lanes of a vector register through a virtual address. -/
  | vst (c : Nat) (b : Body)
  /-- VLDL (R196). Loads a 256-byte line from the local core store into a vector register. -/
  | vldl (c : Nat) (b : Body)
  /-- VSTL (R196). Stores the enabled lanes of a vector register to the local core store. -/
  | vstl (c : Nat) (b : Body)
  /-- VLDS (R210). Loads the next 256-byte item of a stream into a vector register. -/
  | vlds (c : Nat) (b : Body)
  /-- TROWR (R197). Converts one tile-register row group into FP32 vector lanes. -/
  | trowr (c : Nat) (b : Body)
  /-- TROWW (R197). Converts vector lanes into one tile-register row group with rounding and saturation. -/
  | troww (c : Nat) (b : Body)
  /-- TLD (R121). Strided or blocked tile load that translates every row and then writes rows to a tile register. -/
  | tld (c : Nat) (b : Body)
  /-- TST (R123). Strided or blocked tile store that translates every row and then writes them. -/
  | tst (c : Nat) (b : Body)
  /-- TLDS (R210). Tile load of rows items from a declared stream. -/
  | tlds (c : Nat) (b : Body)
  /-- TREL (R112). Releases the tile registers named by the mask, making them dead. -/
  | trel (c : Nat) (b : Body)
  /-- MMA (R203). Matrix multiply-accumulate of two tiles into an accumulator bank, single or stitched. -/
  | mma (c : Nat) (b : Body)
  /-- DRAIN (R207). Drains an accumulator bank through merge, scale, bias, function, Selvage, convert and statistics stages to a tile or the core store. -/
  | drain (c : Nat) (b : Body)
  /-- DCFG (R205). Sets the drain configuration used by later drains. -/
  | dcfg (c : Nat) (b : Body)
  /-- SDECL (R133). Declares a stream from a descriptor in the core store and resets its position. -/
  | sdecl (c : Nat) (b : Body)
  /-- SFENCE (R89). Discards run-ahead data of one or all streams until earlier accesses are performed. -/
  | sfence (c : Nat) (b : Body)
  /-- SIG (R213). Signals a sync object with ADD, SET or ARRIVE after releasing earlier accesses. -/
  | sig (c : Nat) (b : Body)
  /-- WAIT (R214). Waits on a sync object condition, sleeping with clocks gated until woken or timed out. -/
  | wait (c : Nat) (b : Body)
  /-- SPOLL (R216). Reads a sync object's counter, generation, kind and flags without waiting. -/
  | spoll (c : Nat) (b : Body)
  /-- MFENCE (R217). Blocks issue until earlier accesses are visible in the named scopes and invalidates demand lines. -/
  | mfence (c : Nat) (b : Body)
  /-- TILE_QUEUE_DISPATCH (R106). A tile-queue instruction starts on its unit once the hazards on its registers have cleared. -/
  | tileQueueDispatch (c : Nat)
  /-- GROUP_START (R165). A stitched group instruction starts 4 Block clocks after the last member arrives at the rendezvous. -/
  | groupStart (c : Nat)
  /-- MMA_COMPLETE (R157). An array instruction completes and writes its bank, tag counter and statistics. -/
  | mmaComplete (c : Nat)
  /-- DRAIN_COMPLETE (R160). A drain completes and commits its statistics and generator states. -/
  | drainComplete (c : Nat)
  /-- LINE_FILL_ARRIVAL (R119). A demand or run-ahead line arrives in the line cache and serves the waiting access, merged with stores in flight. -/
  | lineFillArrival (c : Nat) (i : Nat)
  /-- RUNAHEAD_FETCH_ISSUE (R136). The stream unit issues a run-ahead fetch for the next line within the depth in force. -/
  | runaheadFetchIssue (c : Nat) (n : Nat)
  /-- BANK_GATE (R113). A tile-register bank with no live register for 64 Block clocks is power-gated. -/
  | bankGate (c : Nat) (b : Nat)
  /-- BANK_WAKE_DONE (R113). A gated bank finishes waking 24 clocks after a write request and the waiting write proceeds. -/
  | bankWakeDone (c : Nat) (b : Nat)
  /-- PARITY_ERROR (R129). A parity error in an array, Bobbin, bank or tile read abandons and replays the instruction, faulting on the third. -/
  | parityError (c : Nat) (i : Nat)
  /-- CORE_STOP (R124). A stop request stops issue, abandons tile work into replay entries and writes the resume record. -/
  | coreStop (c : Nat)
  /-- CORE_RESUME (R126). A stopped core re-issues its replay entries and then fetches at the resume program counter. -/
  | coreResume (c : Nat)
  /-- WAKE_FLIT_ARRIVAL (R453). A Block accepts a wake flit, fires matching wake wires, and each woken WAIT acts on the snapshot. -/
  | wakeFlitArrival (b : Nat)
  /-- WAIT_DEADLINE (R454). A WAIT's deadline passes and it returns timed out. -/
  | waitDeadline (c : Nat)
  /-- CORE_WATCHDOG (R536). A core with no instruction completed for LIMIT_MS raises WATCHDOG. -/
  | coreWatchdog (c : Nat)
  /-- DOORBELL_POLL (R483). Town Hall polls a context's doorbell page at its interval, taking aborts and reading descriptors. -/
  | doorbellPoll (n : Nat)
  /-- COMMAND_DISPATCH (R491). A command is dispatched in ring order once fence, prewait and gate holds are satisfied. -/
  | commandDispatch (n : Nat)
  /-- COMPUTE (R489). Starts the launch record's program on every named core. -/
  | compute (n : Nat) (tag : Nat)
  /-- FILL_TIMEOUT (R174). The oldest held fill request reaches TIMEOUT_US and its batch is dispatched. -/
  | fillTimeout (n : Nat) (key : Nat)
  /-- DMA (R497). Copies LENGTH bytes from SRC to DST in 64 KiB units. -/
  | dma (n : Nat) (tag : Nat)
  /-- DMA_UNIT_COMPLETE (R497). A DMA unit in flight completes and the next unit is issued. -/
  | dmaUnitComplete (n : Nat) (tag : Nat) (u : Nat)
  /-- FLUSH (R488). Writes back, and optionally invalidates, every cache-region line of both halves. -/
  | flush (n : Nat) (tag : Nat)
  /-- XLATE_INV (R84). Discards the context's cached translations and run-ahead data. -/
  | xlateInv (n : Nat) (tag : Nat)
  /-- PRESS (R284). Runs a parameter-update job record once its gate opens. -/
  | press (n : Nat) (tag : Nat)
  /-- PRESS_UNIT_HANDOUT (R302). The next unit is handed to the first free executing engine. -/
  | pressUnitHandout (p : Nat)
  /-- PRESS_SPAN_COMPLETE (R304). An engine finishes computing a span and writes its outputs. -/
  | pressSpanComplete (p : Nat)
  /-- PRESS_PARITY_RESTART (R304). A parity error restarts a span or array phase, faulting on the third. -/
  | pressParityRestart (p : PressPart)
  /-- GATE (R270). Gate command of a step, checked on read and taking its COLL_SEQ. -/
  | gate (n : Nat) (tag : Nat)
  /-- GATE_START (R277). A gate command starts once dispatched and the previous gate of its context has resolved. -/
  | gateStart (n : Nat) (tag : Nat)
  /-- GATE_RESOLVE (R271). The gate takes its local contribution, obtains the group total, writes the result slot and releases or ends the Press commands. -/
  | gateResolve (n : Nat) (tag : Nat)
  /-- GATE_TIMEOUT (R277). A gate not resolved within TIMEOUT_MS resolves TIMEOUT on this device. -/
  | gateTimeout (n : Nat) (tag : Nat)
  /-- INGEST (R312). Runs an ingest job: decode, cut and shuffle samples into token records. -/
  | ingest (n : Nat) (tag : Nat)
  /-- SAMPLE_START (R340). A share takes CLIPS free slots and starts a sample on a video engine. -/
  | sampleStart (share : Nat)
  /-- SAMPLE_COMPLETE (R338). A sample finishes decoding and its clips enter the shuffle window, or it is dropped. -/
  | sampleComplete (n : Nat) (tag : Nat) (pos : Nat) (d : Nat)
  /-- FREE_TAKE (R341). The share takes one from FREE to release the oldest record when it needs a slot or entry. -/
  | freeTake (n : Nat) (tag : Nat)
  /-- MREDUCE (R366). Sums COUNT source vectors into a destination through Crossings. -/
  | mreduce (n : Nat) (tag : Nat) (k : Nat)
  /-- MMCAST (R370). Copies a source range to up to 64 gather-engine targets over the mesh. -/
  | mmcast (n : Nat) (tag : Nat) (k : Nat)
  /-- GATHER (R376). Gathers indexed table rows into a contiguous destination. -/
  | gather (n : Nat) (tag : Nat) (i : Nat)
  /-- SCATTER (R376). Scatters contiguous rows to indexed table rows, optionally adding. -/
  | scatter (n : Nat) (tag : Nat) (i : Nat)
  /-- COLL (R415). Starts a reduce-scatter, all-gather or all-reduce over a ring group. -/
  | coll (n : Nat) (tag : Nat)
  /-- FMCAST (R426). Copies a source range to up to 64 remote targets. -/
  | fmcast (n : Nat) (tag : Nat)
  /-- SYNC_INIT (R443). Initialises a free sync table entry. -/
  | syncInit (n : Nat) (tag : Nat)
  /-- SYNC_INIT_HOLD_END (R444). A held SYNC_INIT is applied once 100 µs have passed since the entry was retired. -/
  | syncInitHoldEnd (n : Nat) (tag : Nat)
  /-- SYNC_RETIRE (R443). Frees an entry, advances its generation and wakes every waiter. -/
  | syncRetire (n : Nat) (tag : Nat)
  /-- SYNC_SIGNAL (R458). Signals a local or remote sync object on behalf of the host. -/
  | syncSignal (n : Nat) (tag : Nat)
  /-- SYNC_WAIT (R459). Puts the host among the waiters of a local object until the condition, time limit or abort. -/
  | syncWait (n : Nat) (tag : Nat)
  /-- SYNC_DUMP (R465). Writes a snapshot of sync table entries and optional wait records. -/
  | syncDump (n : Nat) (tag : Nat)
  /-- COMMAND_COMPLETE (R492). A command makes its writes visible, signals SIGNAL and has its completion record written. -/
  | commandComplete (n : Nat) (tag : Nat)
  /-- COMPLETION_RECORD_WRITE (R483). A completion record is written once the completion ring has room, then CPL_TAIL and the optional MSI-X. -/
  | completionRecordWrite (n : Nat)
  /-- PROGRESS_WRITE (R496). A command's progress slot is rewritten at least every 1 ms. -/
  | progressWrite (n : Nat) (tag : Nat)
  /-- CTX_ENABLE (R479). Setting CTX_CTRL.ENABLE takes every index as 0 and starts polling. -/
  | ctxEnable (n : Nat)
  /-- CTX_DISABLE (R479). Clearing CTX_CTRL.ENABLE stops polling while commands already read complete. -/
  | ctxDisable (n : Nat)
  /-- CTX_PREEMPT (R501). Setting PREEMPT stops dispatch, freezes the context's objects and stops its cores. -/
  | ctxPreempt (n : Nat)
  /-- CTX_RESUME (R501). Clearing PREEMPT resumes every core and clears FROZEN. -/
  | ctxResume (n : Nat)
  /-- CTX_RESET (R502). Writing RESET abandons objects, stops cores, ends engine commands and discards commands of the context. -/
  | ctxReset (n : Nat)
  /-- CTX_PT_ROOT_WRITE (R79). Writing a page-table root discards cached translations and run-ahead data of the context. -/
  | ctxPtRootWrite (n : Nat) (v : W64)
  /-- DBG_HALT (R131). Writing HALT stops a core, and its stitch group, for debugging. -/
  | dbgHalt (c : Nat)
  /-- DBG_RESUME (R131). Writing RESUME resumes a debug-halted core and every member halted with it. -/
  | dbgResume (c : Nat)
  /-- BLOCK_RESET (R132). Stops, saves, resets and restores a Block's cores without ending their work. -/
  | blockReset (b : Nat)
  /-- SQUARE_SPLIT_APPLY (R41). Writing APPLY starts a change of the staging and cache split. -/
  | squareSplitApply (v : W32)
  /-- SQUARE_SPLIT_COMPLETE (R41). The split change finishes writing back and discarding units, updates ACTIVE, clears BUSY and sets DONE. -/
  | squareSplitComplete
  /-- SQUARE_BANK_REQUEST (R37). A Square bank arbitrates and serves one line request. -/
  | squareBankRequest (half : Nat) (bank : Nat) (clk : Nat) (new : List SqReq) (flips : List (Nat × W80))
  /-- CACHE_FILL_COMPLETE (R45). A cache-region fill completes and serves the waiting request. -/
  | cacheFillComplete (half : Nat) (set : Nat) (way : Nat)
  /-- MEMORY_LINE_ACCESS (R51). An HBM3E or LPDDR5X controller reads or writes one whole line. -/
  | memoryLineAccess (line : Nat) (write : Bool) (data : BitVec 2048) (poison : BitVec 32) (flips : List (Nat × W80)) (fails : Nat)
  /-- PATROL_SCRUB_READ (R67). The patrol scrubber reads the next codeword in an idle or reserved slot. -/
  | patrolScrubRead (half : Nat) (kind : Nat) (flip : W80)
  /-- HBM_TEMP_SAMPLE (R54). Each stack temperature is sampled every 1 ms and the refresh rate adjusted. -/
  | hbmTempSample (stack : Nat) (temp : Int)
  /-- HBM_REFRESH (R54). A per-bank refresh is issued at the rate in force. -/
  | hbmRefresh (stack : Nat)
  /-- LPDDR_REFRESH_RATE_READ (R57). The LPDDR5X refresh multiplier is read every 4 ms and applied. -/
  | lpddrRefreshRateRead (i : Nat) (rate : LpReport)
  /-- WCK_TRACKING (R57). WCK tracking runs every 64 ms on each LPDDR5X interface. -/
  | wckTracking (i : Nat) (inRange : Bool)
  /-- MESH_FLIT_ARRIVAL (R357). A flit arrives at a Crossing port and is routed and arbitrated to its output. -/
  | meshFlitArrival (x : Nat) (port : Nat) (pkt : Option MeshPkt)
  /-- MESH_CRC_REPLAY (R361). A flit that fails its CRC is replayed from the sender's buffer. -/
  | meshCrcReplay (x : Nat) (port : Nat) (fails : Nat)
  /-- REDUCTION_PACKET_ARRIVAL (R367). A reduction packet arrives at a Crossing and is added into a held packet or held. -/
  | reductionPacketArrival (x : Nat) (port : Nat)
  /-- REDUCTION_HOLD_TIMEOUT (R367). A held reduction packet that has waited 32 mesh clocks moves on. -/
  | reductionHoldTimeout (x : Nat)
  /-- MESH_MCAST_RESEND (R371). A refused multicast packet is resent to its target 256 mesh clocks later. -/
  | meshMcastResend (n : Nat) (tag : Nat)
  /-- MESH_MCAST_DEADLINE (R371). At 20 µs a mesh multicast stops and completes PARTIAL with its delivered mask. -/
  | meshMcastDeadline (n : Nat) (tag : Nat)
  /-- FABRIC_ENABLE (R385). Setting ENABLE computes the seal, zeroes COLL_SEQ and brings up enabled ports. -/
  | fabricEnable
  /-- FABRIC_DISABLE (R385). Clearing ENABLE takes every port down and ends outstanding fabric transactions. -/
  | fabricDisable
  /-- SEAL_APPLY (R429). Writing SEAL_APPLY starts recomputing the configuration seal. -/
  | sealApply
  /-- SEAL_COMPLETE (R429). The seal computation completes, the new seal takes force and SEAL_DONE is set. -/
  | sealComplete
  /-- ROUTE_DATA_WRITE (R387). Writes a route table entry and optionally increments the index. -/
  | routeDataWrite (v : W32)
  /-- FAIL_CLEAR (R437). Clears the failed mark of one node or of all nodes. -/
  | failClear (v : W32)
  /-- HELLO_TIMER (R397). A training port sends a HELLO every 1 µs. -/
  | helloTimer (p : Nat)
  /-- HELLO (R397). A received HELLO records the peer and brings the link up when both ends acknowledge. -/
  | hello (p : Nat) (node : Nat) (port : Nat) (leaf : Bool) (lane : Bool) (fec : Bool) (ack : Bool) (grant : List Nat)
  /-- DATA_FRAME_RECEIVE (R399). A DATA frame is accepted in sequence, forwarded or delivered, or a gap triggers REPLAY_REQ. -/
  | dataFrameReceive (p : Nat) (lseq : Nat) (lack : Nat) (credit : List Nat) (f : Frame) (eth : EthHdr)
  /-- CONTROL (R399). A received CONTROL frame delivers LACK and credit counts. -/
  | control (p : Nat) (lack : Nat) (credit : List Nat)
  /-- REPLAY_REQ (R399). A received REPLAY_REQ resends from the oldest uncovered frame. -/
  | replayReq (p : Nat) (lack : Nat) (credit : List Nat)
  /-- FENCED (R434). A received FENCED frame marks the sender failed. -/
  | fenced (p : Nat)
  /-- FRAME_TRANSMIT (R398). A queued DATA frame is sent once its VC has enough credit. -/
  | frameTransmit (p : Nat) (vc : Nat) (cls : Nat)
  /-- LACK_REPORT_TIMER (R399). A receiver reports its LACK within 500 ns, in a CONTROL frame if nothing else is sent. -/
  | lackReportTimer (p : Nat)
  /-- REPLAY_TIMEOUT (R399). With no LACK progress for 2 µs the sender resends, and after 4 resends the port goes down. -/
  | replayTimeout (p : Nat)
  /-- LINK_IDLE_TIMER (R400). Each end sends at least one frame every 1 µs while the link is up. -/
  | linkIdleTimer (p : Nat)
  /-- RX_SILENCE_TIMEOUT (R400). A port that receives no valid frame for 10 µs goes down. -/
  | rxSilenceTimeout (p : Nat)
  /-- WRITE (R409). An incoming remote WRITE is checked, performed and acknowledged, or refused. -/
  | write
  /-- READ_REQ (R409). An incoming remote read is checked and answered with data or a refusal. -/
  | readReq
  /-- READ_RESP (R410). A read response completes or faults the waiting access. -/
  | readResp
  /-- ACK (R410). An acknowledgement completes or faults the waiting transaction. -/
  | ack
  /-- SYNC (R411). An incoming SYNC performs SIG on the local object and replies ACK with status. -/
  | sync
  /-- MCAST (R426). An incoming fabric multicast frame is written and acknowledged, or answered BUSY or REFUSED. -/
  | mcast (busy : Bool)
  /-- COLL_FRAME (R416). A collective chunk arrives, is added or written, and forwarded or held early. -/
  | collFrame
  /-- HEARTBEAT (R419). A collective heartbeat frame arrives from a ring neighbour. -/
  | heartbeat
  /-- COLL_ABORT (R422). A collective abort ends the member's command and is forwarded once. -/
  | collAbort
  /-- GATE_CONTRIB (R424). The root receives a member's gate contribution. -/
  | gateContrib
  /-- GATE_RESULT (R424). A member receives the group gate result from the root. -/
  | gateResult
  /-- RS_DATA (R432). Read-service data lands in the share's fetch buffer. -/
  | rsData
  /-- RS_DONE (R432). Read-service completion decides the success of a request. -/
  | rsDone
  /-- FAIL (R434). A received FAIL marks the node failed and is relayed on every other up port. -/
  | fail
  /-- E2E_TIMEOUT (R410). A request with no reply within 20 µs ends its access or command and writes an E2E_TIMEOUT record. -/
  | e2eTimeout (xid : Nat)
  /-- HEARTBEAT_TIMER (R419). A member that has sent a neighbour no frame for 25 µs sends HEARTBEAT. -/
  | heartbeatTimer (n : Nat) (tag : Nat)
  /-- COLL_SILENCE_TIMEOUT (R419). No frame from a neighbour for 100 µs sends COLL_ABORT with reason TIMEOUT. -/
  | collSilenceTimeout (n : Nat) (tag : Nat)
  /-- FAB_MCAST_RESEND (R427). A BUSY multicast frame is resent 2 µs later. -/
  | fabMcastResend (n : Nat) (tag : Nat)
  /-- FAB_MCAST_DEADLINE (R427). At 20 µs a fabric multicast completes OK or PARTIAL. -/
  | fabMcastDeadline (n : Nat) (tag : Nat)
  /-- FENCED_TIMER (R433). A failed device sends FENCED every 1 µs on each port. -/
  | fencedTimer (p : Nat)
  /-- DEVICE_RESET (R507). Returns every unit, register and table to reset and begins the boot sequence. -/
  | deviceReset
  /-- POWER_ON (R506). Application of power starts a device reset. -/
  | powerOn
  /-- PERST_N_ASSERT (R592). PERST_N held low for 1 µs starts a device reset. -/
  | perstNAssert (ns : Nat)
  /-- PERST_N_DEASSERT (R508). PERST_N rising starts step 1 of the boot sequence. -/
  | perstNDeassert (fuseError : Bool)
  /-- PWROK_RISE (R593). PWROK rising samples the straps and releases the hold on the device. -/
  | pwrokRise (mgmtAddr : Nat) (testEn : Bool)
  /-- PWROK_FALL (R592). PWROK falling starts a device reset with no FAIL frame. -/
  | pwrokFall
  /-- PCIE_HOT_RESET (R506). A PCIe hot reset starts a device reset. -/
  | pcieHotReset
  /-- PCIE_LINK_DOWN (R506). The link going to DL_Down starts a device reset. -/
  | pcieLinkDown
  /-- RAIL_OUT_OF_RANGE (R592). A rail out of range for 10 µs holds boot before READY or is fatal after it. -/
  | railOutOfRange
  /-- PLL_LOSS_OF_LOCK (R590). A PLL loses lock, which is fatal source CLOCK. -/
  | pllLossOfLock
  /-- MEMORY_TRAINING_COMPLETE (R508). All ten memory interfaces finish training, allowing verification to start. -/
  | memoryTrainingComplete (trained : Nat) (failed : Nat)
  /-- GO (R512). Writing GO starts or holds verification of the image in the window. -/
  | go
  /-- VERIFY (R516). The ROM copies, checks and verifies the image and starts Town Hall or fails. -/
  | verify
  /-- FW_INIT_COMPLETE (R508). Firmware finishes initialising and the device reset ends in READY. -/
  | fwInitComplete (ok : Bool) (sub : Nat)
  /-- FW_TIMEOUT (R520). Firmware initialisation exceeds its bound and boot fails. -/
  | fwTimeout
  /-- BOOT_RESET (R512). Writing RESET with the key starts a device reset 1 ms later. -/
  | bootReset (key : Nat)
  /-- ADVANCE (R519). Writing ADVANCE starts blowing MIN_VERSION fuses up to the running SVN. -/
  | advance
  /-- ADVANCE_FUSE_BLOWN (R519). One MIN_VERSION fuse is blown and the advance continues or completes. -/
  | advanceFuseBlown
  /-- FATAL_ERROR (R525). A fatal source latches status, stops the device, sends FAIL, logs AER, raises MSI-X and writes records. -/
  | fatalError (source : Nat) (cls : Nat) (unit : Nat) (info : Nat)
  /-- PM_DUMP (R532). Writing START copies the whole sync table to host memory after a fatal error. -/
  | pmDump (v : W64)
  /-- ERR_SEL_CLEAR (R533). Writing CLEAR zeroes the counts and addresses of the selected unit. -/
  | errSelClear (v : W32)
  /-- ERR_THRESHOLD_WINDOW (R534). A new threshold window begins at each multiple of WINDOW_S seconds. -/
  | errThresholdWindow
  /-- POWER_CONTROL_TICK (R556). Every 100 µs the power controller steps the clock ladder down, up or holds. -/
  | powerControlTick (p100 : Nat) (p1ms : Nat) (mj : Nat)
  /-- THERMAL_CONTROL_TICK (R560). Every 1 ms the thermal controller checks each half and steps its ladder. -/
  | thermalControlTick (half : Nat) (tj : Int) (stack : Int)
  /-- FAST_CLAMP (R559). VIN_IVR current above 950 A for 1 µs holds every Block at k of at most 4. -/
  | fastClamp
  /-- FAST_CLAMP_RELEASE (R559). Current below 900 A for 100 µs releases the clamp. -/
  | fastClampRelease
  /-- THERMAL_TRIP (R561). A junction at 110 °C or a stack at 105 °C raises fatal THERMAL and asserts THERMTRIP_N. -/
  | thermalTrip
  /-- CLK_LIMIT_WRITE (R555). Writes the host clock ceilings, keeping fields written with reserved values. -/
  | clkLimitWrite (v : W32)
  /-- PMU_CLEAR (R565). Writing CLEAR zeroes every counter and OVF bit within 1 µs. -/
  | pmuClear (v : W32)
  /-- PMU_COUNT_WRITE (R565). Writing a counter value, which wins over an increment in the same clock. -/
  | pmuCountWrite (c : Nat) (v : W64)
  /-- COUNTER_TICK (R565). Each enabled counter adds the events of one clock of its unit. -/
  | counterTick (u : Nat) (evs : List PmuEvent)
  /-- TAG_RECORD (R576). A tagged instruction or frame writes its stage timing record when it completes, faults or is abandoned. -/
  | tagRecord (index : Nat) (a : Bool) (b : Bool) (stages : List Nat)
  /-- TAPE_SNAPSHOT (R570). At each interval the Tape latches the included units' counters into a ring slot or counts it lost. -/
  | tapeSnapshot
  /-- TIMESTAMP_READ (R464). A 32-bit read of the low half latches the high half for the next read. -/
  | timestampRead (part : Nat)
  /-- BAR2_ACCESS (R475). A host access to BAR2 reads or writes West Square staging. -/
  | bar2Access (x : Nat) (len : Nat) (data : Option (List Byte))
  /-- REGISTER_WRITE (R472). A BAR0 or BAR4 write to a register with no row of its own stores its fields. -/
  | registerWrite (bar : Nat) (off : Nat) (size : Nat) (v : W64)
  /-- SET_ENDPOINT_ID (R542). An MCTP control message assigns the endpoint ID on a binding. -/
  | setEndpointId (b : Nat) (eid : Nat)
  /-- ENTDAA (R543). I3C dynamic address assignment enters I3C mode. -/
  | entdaa (addr : Nat)
  /-- SETDASA (R543). Assigns a dynamic address from the static address and enters I3C mode. -/
  | setdasa (static : Nat) (addr : Nat)
  /-- RSTDAA (R543). Resets the dynamic address and leaves I3C mode. -/
  | rstdaa
  /-- ENEC (R543). I3C common command enabling events. -/
  | enec (events : Nat)
  /-- DISEC (R543). I3C common command disabling events. -/
  | disec (events : Nat)
  /-- GETPID (R543). Returns the 48-bit provisional ID. -/
  | getpid
  /-- GETBCR (R543). Returns the bus characteristics register. -/
  | getbcr
  /-- GETDCR (R543). Returns the device characteristics register. -/
  | getdcr
  /-- GETSTATUS (R543). Returns the I3C device status. -/
  | getstatus
  /-- GETMRL (R543). Returns the maximum read length. -/
  | getmrl
  /-- SETMRL (R543). Sets the maximum read length. -/
  | setmrl (v : Nat)
  /-- GETMWL (R543). Returns the maximum write length. -/
  | getmwl
  /-- SETMWL (R543). Sets the maximum write length. -/
  | setmwl (v : Nat)
  /-- GET_VERSION (R546). SPDM request returning supported versions. -/
  | getVersion (b : Nat)
  /-- GET_CAPABILITIES (R546). SPDM request returning capability flags. -/
  | getCapabilities (b : Nat)
  /-- NEGOTIATE_ALGORITHMS (R545). SPDM algorithm negotiation limited to SM2, SM3 and SM4. -/
  | negotiateAlgorithms (b : Nat) (offered : List Bool)
  /-- GET_DIGESTS (R546). Returns the digest of certificate slot 0. -/
  | getDigests (b : Nat)
  /-- GET_CERTIFICATE (R546). Returns part of the slot 0 certificate chain. -/
  | getCertificate (b : Nat) (slot : Nat) (offset : Nat) (length : Nat)
  /-- SET_CERTIFICATE (R548). Stores a chain in slot 0 when its leaf key equals the group public key. -/
  | setCertificate (b : Nat) (slot : Nat) (chain : List Byte) (leafKey : Nat)
  /-- CHALLENGE (R546). Signs a challenge response with the group key. -/
  | challenge (b : Nat) (slot : Nat) (msg : List Byte)
  /-- GET_MEASUREMENTS (R549). Returns measurement blocks 1 to 5, signed when requested. -/
  | getMeasurements (b : Nat) (index : Nat) (signed : Bool) (msg : List Byte)
  /-- KEY_EXCHANGE (R546). Starts an SPDM secure session. -/
  | keyExchange (b : Nat) (msg : List Byte)
  /-- FINISH (R546). Completes the SPDM session handshake. -/
  | finish (b : Nat) (id : Nat) (verified : Bool)
  /-- KEY_UPDATE (R546). Updates the session keys. -/
  | keyUpdate (b : Nat) (id : Nat)
  /-- END_SESSION (R546). Ends an SPDM session. -/
  | endSession (b : Nat) (id : Nat)
  /-- REVOCATION_ORDER (R541). Checks a signed order and blows the KEY_REVOKED fuse of a slot. -/
  | revocationOrder (b : Nat) (o : List Byte)
  /-- GET_TID (R552). PLDM command returning the terminus ID. -/
  | getTid (b : Nat)
  /-- SET_TID (R552). PLDM command setting the terminus ID. -/
  | setTid (b : Nat) (v : Nat)
  /-- GET_PLDM_VERSION (R552). Returns supported PLDM versions. -/
  | getPldmVersion (b : Nat) (type : Nat)
  /-- GET_PLDM_TYPES (R552). Returns supported PLDM types. -/
  | getPldmTypes (b : Nat)
  /-- GET_PLDM_COMMANDS (R552). Returns supported PLDM commands. -/
  | getPldmCommands (b : Nat) (type : Nat)
  /-- GET_PDR_REPOSITORY_INFO (R552). Returns information on the fixed PDR repository. -/
  | getPdrRepositoryInfo (b : Nat)
  /-- GET_PDR (R552). Returns a platform descriptor record. -/
  | getPdr (b : Nat) (handle : Nat)
  /-- GET_SENSOR_READING (R553). Returns a numeric sensor reading. -/
  | getSensorReading (b : Nat) (id : Nat)
  /-- GET_STATE_SENSOR_READINGS (R554). Returns state sensor readings. -/
  | getStateSensorReadings (b : Nat) (id : Nat)
  /-- GET_NUMERIC_EFFECTER_VALUE (R554). Returns the POWER_CAP effecter value. -/
  | getNumericEffecterValue (b : Nat) (id : Nat)
  /-- SET_NUMERIC_EFFECTER_VALUE (R554). Sets POWER_CAP, refusing values outside 400 to 1,600 W. -/
  | setNumericEffecterValue (b : Nat) (id : Nat) (v : Nat)
  /-- GET_STATE_EFFECTER_STATES (R554). Returns the DEVICE_RESET effecter state. -/
  | getStateEffecterStates (b : Nat) (id : Nat)
  /-- SET_STATE_EFFECTER_STATES (R554). Setting DEVICE_RESET to 2 starts a device reset. -/
  | setStateEffecterStates (b : Nat) (id : Nat) (v : Nat)
  /-- SET_EVENT_RECEIVER (R552). Sets the receiver of platform event messages. -/
  | setEventReceiver (b : Nat) (eid : Nat)
  /-- SENSOR_SAMPLE (R553). Sensors are sampled at least every 1 ms and threshold crossings send PlatformEventMessage. -/
  | sensorSample (id : Nat) (v : Int)
  /-- STATE_EVENT_TIMER (R554). A state sensor change held by the 10 ms event limit is sent in the next event. -/
  | stateEventTimer (id : Nat)
  /-- EXTEST (R598). Boundary-scan external test, in force only while PERST_N is low. -/
  | extest (pins : Nat) (cells : Nat)
  /-- SAMPLE_PRELOAD (R596). Samples or preloads the boundary register. -/
  | samplePreload (pins : Nat) (cells : Nat)
  /-- EXTEST_PULSE (R597). IEEE 1149.6 pulse test of fabric and PCIe pairs. -/
  | extestPulse (pins : Nat) (cells : Nat)
  /-- EXTEST_TRAIN (R597). IEEE 1149.6 train test of fabric and PCIe pairs. -/
  | extestTrain (pins : Nat) (cells : Nat)
  /-- SYNC_WAIT_TIME_LIMIT (R459). A host SYNC_WAIT whose time limit passes completes TIMEOUT with result status 2. -/
  | syncWaitTimeLimit (n : Nat) (tag : Nat)
  /-- READ_SERVICE_DEADLINE (R432). A read-service request with no frame or RS_DONE within 20 µs of the request or its previous frame drops the sample with reason SOURCE. -/
  | readServiceDeadline (xid : Nat)
  /-- LPDDR_REFRESH (R57). A per-bank LPDDR5X refresh is issued at the rate multiplier in force. -/
  | lpddrRefresh (i : Nat)
  /-- ZQ_CALIBRATION (R57). Background ZQ calibration of an LPDDR5X interface runs and retrains, with fatal LP_IF after 4 consecutive out-of-range results. -/
  | zqCalibration (i : Nat) (inRange : Bool)
  /-- SRAM_INIT_COMPLETE (R508). Zeroing of the Square, core stores, Press buffers and sync table ends, or boot fails with SRAM_INIT. -/
  | sramInitComplete (ok : Bool)
  /-- PCIE_CONFIG_REQUEST (R476). A PCIe configuration request is answered with retry status before step 5, or is applied, including the MSI-X Enable and Function Mask bits, which release pending messages. -/
  | pcieConfigRequest (msix : Option (Bool × Bool))
  /-- MSIX_VECTOR_UNMASK (R476). A BAR4 write that clears a vector's Mask bit sends the message held in the vector's pending bit. -/
  | msixVectorUnmask (v : Nat)
  /-- PORT_CTRL_WRITE (R386). A write of PORT_CTRL ENABLE brings a port into training while the fabric is enabled, or takes it down when cleared. -/
  | portCtrlWrite (p : Nat) (v : W32)
  /-- PORT_TRAINING_COMPLETE (R397). Auto-negotiation and PMD link training of a fabric port complete, so the port starts its HELLO exchange. -/
  | portTrainingComplete (p : Nat)
  /-- PCIE_COMPLETION_TIMEOUT (R503). A read of host space that meets a completion timeout ends its command FAULT, or is retried at the next poll for ring structures, and writes a HOST_READ record. -/
  | pcieCompletionTimeout (w : HostReader)
  /-- TAP_RESET (R596). TRST_N low or PWROK low resets the JTAG TAP. -/
  | tapReset
  /-- IDCODE (R596). Selects the 32-bit IDCODE register. -/
  | idcode
  /-- CLAMP (R598). Holds the outputs from the boundary register with bypass selected. -/
  | clamp
  /-- HIGHZ (R598). Places every output at high impedance. -/
  | highz
  /-- BYPASS (R596). Selects the one-bit bypass register. -/
  | bypass
  /-- RAIL_IN_RANGE (R592). Every rail back in range while PWROK is high before READY restarts step 1 of the boot sequence. -/
  | railInRange
  /-- PCIE_LINK_UP (R508). PCIe link training completes and configuration requests are then accepted, letting boot reach AWAIT_IMAGE. -/
  | pcieLinkUp
  deriving DecidableEq, Repr

end Sys2Proof
end

