-- ==== Sys2Proof/Decode.lean ====
section
/-! DEFINITION. Which command a core instruction word is (R178, R183). The operation table gives none of its rows bits, so no table word
spells a command. -/

namespace Sys2Proof

/-- The command of core `c` for a 64-bit instruction word, chosen by its major opcode in bits [63:56]; bits [55:0] go to the command.
NOP, with the whole word, takes every opcode the set reserves too: there it raises ILLEGAL_OPCODE (R179). -/
def decodeWord (c : Nat) (w : W64) : Instr :=
  let b : Body := w.setWidth 56
  match w.toNat / 2 ^ 56 with
  | 0x02 => .endWork c b
  | 0x04 => .alu c b
  | 0x05 => .alui c b
  | 0x06 => .movi c b
  | 0x07 => .movhi c b
  | 0x08 => .rdsys c b
  | 0x10 => .br c b
  | 0x11 => .brp c b
  | 0x12 => .jal c b
  | 0x13 => .jalr c b
  | 0x18 => .ldl c b
  | 0x19 => .stl c b
  | 0x1A => .ld c b
  | 0x1B => .st c b
  | 0x20 => .vop c b
  | 0x21 => .vcmp c b
  | 0x22 => .vred c b
  | 0x23 => .plog c b
  | 0x28 => .vld c b
  | 0x29 => .vst c b
  | 0x2A => .vldl c b
  | 0x2B => .vstl c b
  | 0x2C => .vlds c b
  | 0x2D => .trowr c b
  | 0x2E => .troww c b
  | 0x40 => .tld c b
  | 0x41 => .tst c b
  | 0x42 => .tlds c b
  | 0x43 => .trel c b
  | 0x50 => .mma c b
  | 0x58 => .drain c b
  | 0x59 => .dcfg c b
  | 0x60 => .sdecl c b
  | 0x61 => .sfence c b
  | 0x70 => .sig c b
  | 0x71 => .wait c b
  | 0x72 => .spoll c b
  | 0x78 => .mfence c b
  | _ => .nop c w

/-- The command a table word spells: none, since no row of the table has bits. -/
def decodeTableWord (_nbits _w : Nat) : Option Instr := none

end Sys2Proof
end

