-- ==== Sys2Proof/Machine/Crypto.lean ====
section
/-! DEFINITION. The SM3 hash and SM2 signatures over the recommended 256-bit curve, as R516, R517 and R537 use them. -/

namespace Sys2Proof.Machine

open Sys2Proof

/-! ## SM3 -/

/-- Rotation of a 32-bit number to the left. -/
def rotl32 (x n : Nat) : Nat := (x <<< (n % 32) ||| x >>> (32 - n % 32)) % 2 ^ 32

/-- P0 of SM3. -/
def sm3P0 (x : Nat) : Nat := x ^^^ rotl32 x 9 ^^^ rotl32 x 17
/-- P1 of SM3. -/
def sm3P1 (x : Nat) : Nat := x ^^^ rotl32 x 15 ^^^ rotl32 x 23
/-- FF of SM3 in round `j`. -/
def sm3FF (j x y z : Nat) : Nat := if j < 16 then x ^^^ y ^^^ z else (x &&& y) ||| (x &&& z) ||| (y &&& z)
/-- GG of SM3 in round `j`. -/
def sm3GG (j x y z : Nat) : Nat := if j < 16 then x ^^^ y ^^^ z else (x &&& y) ||| ((2 ^ 32 - 1 - x) &&& z)
/-- The round constant of SM3. -/
def sm3T (j : Nat) : Nat := if j < 16 then 0x79CC4519 else 0x7A879D8A

/-- The message words of SM3, newest first, grown to 68. -/
def sm3Expand : Nat → List Nat → List Nat
  | 0, w => w
  | n + 1, w =>
    let x := w.getD 15 0 ^^^ w.getD 8 0 ^^^ rotl32 (w.getD 2 0) 15
    sm3Expand n ((sm3P1 x ^^^ rotl32 (w.getD 12 0) 7 ^^^ w.getD 5 0) :: w)

/-- The eight working words of SM3. -/
structure Sm3St where
  a : Nat
  b : Nat
  c : Nat
  d : Nat
  e : Nat
  f : Nat
  g : Nat
  h : Nat
  deriving DecidableEq, Repr

/-- Round `j` of SM3 with message words `wj` and `wj4`. -/
def sm3Round (j wj wj4 : Nat) (v : Sm3St) : Sm3St :=
  let ss1 := rotl32 ((rotl32 v.a 12 + v.e + rotl32 (sm3T j) j) % 2 ^ 32) 7
  let ss2 := ss1 ^^^ rotl32 v.a 12
  let tt1 := (sm3FF j v.a v.b v.c + v.d + ss2 + (wj ^^^ wj4)) % 2 ^ 32
  let tt2 := (sm3GG j v.e v.f v.g + v.h + ss1 + wj) % 2 ^ 32
  { a := tt1, b := v.a, c := rotl32 v.b 9, d := v.c, e := sm3P0 tt2, f := v.e, g := rotl32 v.f 19, h := v.g }

/-- The rounds of SM3 over the message words in order. -/
def sm3Rounds : Nat → Nat → List Nat → Sm3St → Sm3St
  | 0, _, _, v => v
  | n + 1, j, w, v => sm3Rounds n (j + 1) w.tail (sm3Round j (w.getD 0 0) (w.getD 4 0) v)

/-- The big-endian 32-bit words of a list of bytes. -/
def beWords : Nat → List Byte → List Nat
  | 0, _ => []
  | n + 1, bs => beNat (bs.take 4) :: beWords n (bs.drop 4)

/-- SM3's compression of one 64-byte block. -/
def sm3Block (v : Sm3St) (bs : List Byte) : Sm3St :=
  let w := (sm3Expand 52 (beWords 16 bs).reverse).reverse
  let r := sm3Rounds 64 0 w v
  { a := r.a ^^^ v.a, b := r.b ^^^ v.b, c := r.c ^^^ v.c, d := r.d ^^^ v.d
    e := r.e ^^^ v.e, f := r.f ^^^ v.f, g := r.g ^^^ v.g, h := r.h ^^^ v.h }

/-- The blocks of a padded message. -/
def sm3Blocks : Nat → Sm3St → List Byte → Sm3St
  | 0, v, _ => v
  | n + 1, v, bs => sm3Blocks n (sm3Block v (bs.take 64)) (bs.drop 64)

/-- SM3's initial value. -/
def sm3Init : Sm3St :=
  { a := 0x7380166F, b := 0x4914B2B9, c := 0x172442D7, d := 0xDA8A0600
    e := 0xA96F30BC, f := 0x163138AA, g := 0xE38DEE4D, h := 0xB0FB0E4E }

/-- SM3's padding to whole blocks. -/
def sm3Pad (bs : List Byte) : List Byte :=
  let n := bs.length
  bs ++ [0x80] ++ List.replicate ((119 - n % 64) % 64) 0 ++ natBE 8 (8 * n)

/-- SM3 of a list of bytes as a 256-bit number, first byte most significant. -/
def sm3 (bs : List Byte) : Nat :=
  let p := sm3Pad bs
  let v := sm3Blocks (p.length / 64) sm3Init p
  ((((((v.a * 2 ^ 32 + v.b) * 2 ^ 32 + v.c) * 2 ^ 32 + v.d) * 2 ^ 32 + v.e) * 2 ^ 32 + v.f) * 2 ^ 32 + v.g) * 2 ^ 32 + v.h

/-! ## SM2 (R517) -/

/-- The field prime of the recommended curve. -/
def sm2P : Nat := 0xFFFFFFFEFFFFFFFFFFFFFFFFFFFFFFFFFFFFFFFF00000000FFFFFFFFFFFFFFFF
/-- Curve coefficient a. -/
def sm2A : Nat := sm2P - 3
/-- Curve coefficient b. -/
def sm2B : Nat := 0x28E9FA9E9D9F5E344D5A9E4BCF6509A7F39789F515AB8F92DDBCBD414D940E93
/-- Group order n. -/
def sm2N : Nat := 0xFFFFFFFEFFFFFFFFFFFFFFFFFFFFFFFF7203DF6B21C6052B53BBF40939D54123
/-- Base point, x. -/
def sm2Gx : Nat := 0x32C4AE2C1F1981195F9904466A39C9948FE30BBFF2660BE1715A4589334C74C7
/-- Base point, y. -/
def sm2Gy : Nat := 0xBC3736A2F4F6779C59BDCEE36B692153D0A9877CC62A474002DF32E52139F0A0

/-- `x` to the power `e` modulo `m`, over the bits of `e`. -/
def powMod (m : Nat) : Nat → Nat → Nat → Nat
  | 0, _, _ => 1 % m
  | n + 1, x, e =>
    let r := powMod m n (x * x % m) (e / 2)
    if e % 2 = 1 then x * r % m else r

/-- The inverse modulo the field prime. -/
def sm2Inv (x : Nat) : Nat := powMod sm2P 256 x (sm2P - 2)

/-- A point of the curve in Jacobian coordinates X, Y, Z: x is X / Z² and y is Y / Z³; Z = 0 for the point at infinity. -/
abbrev EcPoint := Nat × Nat × Nat

/-- A point added to itself. -/
def ecDouble : EcPoint → EcPoint
  | (x, y, z) =>
    let y2 := y * y % sm2P
    let s := 4 * x * y2 % sm2P
    let m := (3 * x * x + sm2A * (z * z % sm2P) * (z * z % sm2P)) % sm2P
    let x3 := (m * m + 2 * (sm2P - s)) % sm2P
    (x3, (m * (s + sm2P - x3) + 8 * y2 * (sm2P - y2)) % sm2P, 2 * y * z % sm2P)

/-- Addition on the curve. -/
def ecAdd : EcPoint → EcPoint → EcPoint
  | (x1, y1, z1), (x2, y2, z2) =>
    if z1 = 0 then (x2, y2, z2)
    else if z2 = 0 then (x1, y1, z1)
    else
      let w1 := z1 * z1 % sm2P
      let w2 := z2 * z2 % sm2P
      let u := x1 * w2 % sm2P
      let s := y1 * w2 % sm2P * z2 % sm2P
      let h := (x2 * w1 + sm2P - u) % sm2P
      let r := (y2 * w1 % sm2P * z1 + sm2P - s) % sm2P
      if h = 0 then (if r = 0 then ecDouble (x1, y1, z1) else (1, 1, 0))
      else
        let h2 := h * h % sm2P
        let h3 := h2 * h % sm2P
        let v := u * h2 % sm2P
        let x3 := (r * r + 3 * sm2P - h3 - 2 * v) % sm2P
        (x3, (r * (v + sm2P - x3) + s * (sm2P - h3)) % sm2P, h * z1 % sm2P * z2 % sm2P)

/-- Scalar multiple of a point, over the bits of the scalar. -/
def ecMul : Nat → Nat → EcPoint → EcPoint
  | 0, _, _ => (1, 1, 0)
  | n + 1, k, p =>
    let r := ecMul n (k / 2) (ecDouble p)
    if k % 2 = 1 then ecAdd p r else r

/-- The coordinates x and y of a point, none at infinity. -/
def ecAffine : EcPoint → Option (Nat × Nat)
  | (x, y, z) =>
    if z = 0 then none
    else
      let w := sm2Inv z
      let w2 := w * w % sm2P
      some (x * w2 % sm2P, y * w2 % sm2P * w % sm2P)

/-- The base point G. -/
def sm2G : EcPoint := (sm2Gx, sm2Gy, 1)

/-- Whether (x, y) is a point of the curve. -/
def onCurve (x y : Nat) : Bool :=
  decide (x < sm2P ∧ y < sm2P) && decide (y * y % sm2P = (x * x * x + sm2A * x + sm2B) % sm2P)

/-- The public key of a scalar as x then y (R538). -/
def sm2Public (d : Nat) : Nat :=
  match ecAffine (ecMul 256 d sm2G) with | some (x, y) => x * 2 ^ 256 + y | none => 0

/-- The 16 ASCII bytes "1234567812345678". -/
def sm2Id : List Byte := (List.range 16).map (fun i => BitVec.ofNat 8 (0x31 + i % 8))

/-- Z of the public key (x, y). -/
def sm2Z (x y : Nat) : List Byte :=
  natBE 32 (sm3 (natBE 2 0x80 ++ sm2Id ++ natBE 32 sm2A ++ natBE 32 sm2B ++ natBE 32 sm2Gx ++ natBE 32 sm2Gy ++
    natBE 32 x ++ natBE 32 y))

/-- The digest e of a message under a public key. -/
def sm2E (x y : Nat) (m : List Byte) : Nat := sm3 (sm2Z x y ++ m)

/-- SM2 verification (R517). -/
def sm2Verify (x y : Nat) (m : List Byte) (r s : Nat) : Bool :=
  if !onCurve x y then false
  else if r < 1 ∨ sm2N - 1 < r ∨ s < 1 ∨ sm2N - 1 < s then false
  else
    let t := (r + s) % sm2N
    if t = 0 then false
    else match ecAffine (ecAdd (ecMul 256 s sm2G) (ecMul 256 t (x, y, 1))) with
      | none => false
      | some (x1, _) => (sm2E x y m + x1) % sm2N == r

/-- SM2 signature of a message with the private scalar `d` and the random `k` (R539): r and s. -/
def sm2Sign (d k : Nat) (m : List Byte) : Nat × Nat :=
  match ecAffine (ecMul 256 d sm2G), ecAffine (ecMul 256 (k % (sm2N - 1) + 1) sm2G) with
  | some (x, y), some (x1, _) =>
    let k1 := k % (sm2N - 1) + 1
    let r := (sm2E x y m + x1) % sm2N
    (r, powMod sm2N 256 (1 + d) (sm2N - 2) * ((k1 + (sm2N - r) * d) % sm2N) % sm2N)
  | _, _ => (0, 0)

end Sys2Proof.Machine
end

