-- ==== Sys2Proof/Machine/Approx.lean ====
section
/-! DEFINITION. The approximated functions (R159, R192, R235, R262, R264, R290): each gives any value within its stated error of the exact
one, which is worked out here in fixed point with 256 fraction bits. Which of them is a free value (assumption 5). -/

namespace Sys2Proof.Machine

open Sys2Proof

/-! ## Fixed point -/

/-- One, with 256 fraction bits. -/
def fxOne : Nat := 2 ^ 256
/-- The natural logarithm of 2. -/
def fxLn2 : Nat := 80260960185991308862233904206310070533990667611589946606122867505419956976171
/-- The square root of 2 / π. -/
def fxGelu : Nat := 92388720265562225100004042351473451001048276763068025688572742865826802514525

/-- m × 2^e as a fixed-point number. -/
def fxOf (m : Nat) (e : Int) : Nat := if 0 ≤ e + 256 then m * 2 ^ (e + 256).toNat else m / 2 ^ (-(e + 256)).toNat
/-- The product of two fixed-point numbers. -/
def fxMul (a b : Nat) : Nat := a * b / fxOne
/-- The quotient of two fixed-point numbers. -/
def fxDiv (a b : Nat) : Nat := a * fxOne / b
/-- The value of a fixed-point number with a sign. -/
def fxVal (neg : Bool) (a : Nat) : Fv := .fin neg a (-256)

/-- The terms x^k / k! of an exponential series from `k` on, the term before given: the sums of those of even and of odd k. -/
def expTerms (x : Nat) : Nat → Nat → Nat → Nat × Nat
  | 0, _, _ => (0, 0)
  | fuel + 1, k, t =>
    let u := fxMul t x / k
    let r := expTerms x fuel (k + 1) u
    if k % 2 = 0 then (r.1 + u, r.2) else (r.1, r.2 + u)

/-- e to the power -y; zero where it is below 2^-288. -/
def fxExpNeg (y : Nat) : Nat :=
  if 200 * fxOne ≤ y then 0
  else
    let r := expTerms (y % fxLn2) 64 1 fxOne
    (fxOne + r.1 - r.2) / 2 ^ (y / fxLn2)

/-- The first `n` fraction bits of the base-2 logarithm of y, 1 ≤ y < 2, as a number. -/
def log2Bits : Nat → Nat → Nat → Nat
  | 0, _, acc => acc
  | n + 1, y, acc =>
    let z := fxMul y y
    if 2 * fxOne ≤ z then log2Bits n (z / 2) (2 * acc + 1) else log2Bits n z (2 * acc)

/-- The base-2 logarithm of m × 2^e, m not zero, in units of 2^-120. -/
def log2Of (m : Nat) (e : Int) : Int :=
  let k := Nat.log2 m
  ((k : Int) + e) * 2 ^ 120 + (log2Bits 120 (fxOf m (-(k : Int))) 0 : Nat)

/-- 2 to the power x, x = q × 2^-p; beyond the range of FP32 a value as far beyond. -/
def exp2Of (q : Int) (p : Nat) : Fv :=
  let n := max (-400) (min 400 (q / 2 ^ p))
  let f := (q % 2 ^ p).toNat * 2 ^ (256 - min p 256) / 2 ^ (p - 256)
  .fin false (fxExpNeg (fxMul (fxOne - f) fxLn2)) (n + 1 - 256)

/-! ## Within a bound -/

/-- The magnitude of a value. -/
def Fv.mag : Fv → Fv
  | .fin _ m e => .fin false m e
  | .inf _ => .inf false
  | .nan => .nan

/-- A free choice for a function of exact value `exact`: the choice where it lies within `n` ulp of it, or within `tol` where that is
larger, else the nearest value (R235, R264, R290). An ulp is taken at the nearest value. -/
def pickNear (exact : Fv) (n : Nat) (tol : Fv) (choice : W32) : W32 :=
  let rn := f32of exact
  let d := (Fv.sub (f32v choice) exact).mag
  if (f32v choice).isFin && (!Fv.lt (.fin false n (f32ulp rn)) d || !Fv.lt tol d) then choice else rn

/-! ## The vector functions and POWT -/

/-- VEXP2: within 2 ulp, with the special values of R235. -/
def f32exp2 (a : W32) : W32 :=
  match f32v a with
  | .nan => f32nan
  | .inf s => if s then 0 else 0x7F800000#32
  | .fin s m e =>
    let q : Int := m * 2 ^ (e + 149).toNat
    pickNear (exp2Of (if s then -q else q) 149) 2 (.fin false 0 0) (Config.vexp2 a)

/-- VLOG2: within 2 ulp, with the special values of R235. -/
def f32log2 (a : W32) : W32 :=
  match f32v a with
  | .nan => f32nan
  | .inf s => if s then f32nan else 0x7F800000#32
  | .fin s m e =>
    if m = 0 then 0xFF800000#32
    else if s then f32nan
    else pickNear (Fv.ofInt (log2Of m e) (-120) false) 2 (.fin false 0 0) (Config.vlog2 a)

/-- POWT: a to the power t, within 2 ulp for a above 0, 0 for a = 0, NaN for a below 0 (R290). -/
def powT (a : W32) (t : Nat) : W32 :=
  match f32v a with
  | .nan => f32nan
  | .inf s => if s then f32nan else a
  | .fin s m e =>
    if m = 0 then 0
    else if s then f32nan
    else pickNear (exp2Of (log2Of m e * t) 120) 2 (.fin false 0 0) (Config.powt a t)

/-! ## The drain functions -/

/-- The logistic function of ±x. -/
def fxSigmoid (neg : Bool) (x : Nat) : Nat :=
  let q := fxExpNeg x
  fxDiv (if neg then q else fxOne) (fxOne + q)

/-- The magnitude of tanh at ±u, and 1 - tanh². -/
def fxTanh (u : Nat) : Nat × Nat :=
  let q := fxExpNeg (2 * u)
  (fxDiv (fxOne - q) (fxOne + q), fxDiv (4 * q) (fxMul (fxOne + q) (fxOne + q)))

/-- a × x² with a = 0.044715 (R262). -/
def fxCube (x : Nat) : Nat := fxMul x x * 44715 / 1000000

/-- c × (x + a × x³), the argument of GELU's tanh form (R262). -/
def geluArg (x : Nat) : Nat := fxMul fxGelu (x + fxMul x (fxCube x))

/-- The exact value of a drain forward function: 0x02 GELU, 0x03 SiLU, 0x04 sigmoid, 0x05 tanh (R159, R206). -/
def forwardExact (func : Nat) (s : Bool) (m : Nat) (e : Int) : Fv :=
  let x := fxOf m e
  match func with
  | 2 =>
    let t := (fxTanh (geluArg x)).1
    Fv.mul (.fin s m e) (fxVal false ((if s then fxOne - t else fxOne + t) / 2))
  | 3 => Fv.mul (.fin s m e) (fxVal false (fxSigmoid s x))
  | 4 => fxVal false (fxSigmoid s x)
  | _ => fxVal s (fxTanh x).1

/-- A drain forward function (R159, R206, R235). Identity and ReLU are exact (assumption 8); the others are within 4 ulp, or 2^-24 where
that is larger, with their special values. -/
def drainForward (func : Nat) (x : W32) : W32 :=
  match func with
  | 0 => x
  | 1 => match f32v x with
    | .nan => f32nan
    | v => if Fv.lt (.fin false 0 0) v then x else 0
  | _ => match f32v x with
    | .nan => f32nan
    | .inf false => if func = 2 ∨ func = 3 then 0x7F800000 else f32one
    | .inf true => if func = 2 ∨ func = 3 then 0x80000000 else if func = 4 then 0 else 0xBF800000
    | .fin s m e => pickNear (forwardExact func s m e) 4 (.fin false 1 (-24)) (Config.drainFn func x)

/-- The factor that multiplies g in a drain derivative at a finite s: 0x21 GELU, 0x22 SiLU, 0x23 sigmoid, 0x24 tanh (R262). -/
def derivFactor (func : Nat) (s : Bool) (m : Nat) (e : Int) : Fv :=
  let x := fxOf m e
  let v : Fv := .fin s m e
  let one : Fv := .fin false 1 0
  match func with
  | 0x21 =>
    let t := fxTanh (geluArg x)
    let slope := fxMul (fxMul x t.2) (fxMul fxGelu (fxOne + 3 * fxCube x)) / 2
    Fv.add (fxVal false ((if s then fxOne - t.1 else fxOne + t.1) / 2)) (fxVal s slope)
  | 0x22 =>
    let y := fxSigmoid s x
    Fv.mul (fxVal false y) (Fv.add one (Fv.mul v (fxVal false (fxOne - y))))
  | 0x23 => Fv.mul v (Fv.sub one v)
  | _ => Fv.sub one (Fv.mul v v)

/-- A drain derivative function of g and s (R262 to R264). 0x20, 0x25 and 0x26 are one rounded operation (assumption 8); the others are
within 4 ulp, or 2^-24 × |g| where that is larger. At an infinite s the factor takes its limit, for 0x23 and 0x24 the value of its
formula; an infinite g multiplies the factor. -/
def drainDerivative (func : Nat) (g s : W32) : W32 :=
  if (f32v g).isNan || (f32v s).isNan then f32nan
  else match func with
    | 0x20 => f32mul g (if Fv.lt (.fin false 0 0) (f32v s) then f32one else 0)
    | 0x25 => f32mul g s
    | 0x26 => f32add g s
    | _ =>
      match f32v s with
      | .fin n m e =>
        let near := fun (x : W32) => pickNear (Fv.mul (f32v x) (derivFactor func n m e)) 4
          (Fv.mul (f32v x).mag (.fin false 1 (-24))) (Config.drainDeriv func x s)
        if (f32v g).isFin then near g else f32mul g (near f32one)
      | _ =>
        if func = 0x21 ∨ func = 0x22 then f32mul g (if (f32v s).isNeg then 0 else f32one)
        else f32mul g (if func = 0x23 then f32mul s (f32sub f32one s) else f32sub f32one (f32mul s s))

end Sys2Proof.Machine
end

