-- ==== Sys2Proof/Machine/ErrState.lean ====
section
/-! DEFINITION. Error counts and reporting (R69, R533 to R535). -/

namespace Sys2Proof.Machine

/-- What one unit of R533 keeps. -/
structure UnitErr where
  /-- the four counts of R69: single, double, uncorrectable, poisoned reads -/
  single : Nat := 0
  double : Nat := 0
  uncorrectable : Nat := 0
  poisoned : Nat := 0
  /-- addresses of the most recent event of each kind -/
  addrSingle : Nat := 0
  addrDouble : Nat := 0
  addrUncorrectable : Nat := 0
  addrPoisoned : Nat := 0
  /-- corrections, or retries and replays, in the window in force (R534) -/
  window : Nat := 0
  /-- a threshold record was written in this window -/
  reported : Bool := false
  /-- corrections or retries since the last threshold record -/
  sinceRecord : Nat := 0
  /-- uncorrectable errors not yet in a record -/
  unreported : Nat := 0
  /-- time of the last UNCORRECTABLE record plus one, 0 for none -/
  lastRecord : Nat := 0
  deriving DecidableEq, Repr

/-- The failed host reads of one context (R534). -/
structure HostReadErr where
  unreported : Nat := 0
  /-- host bus address of the most recent one -/
  addr : Nat := 0
  lastRecord : Nat := 0
  deriving DecidableEq, Repr

/-- Error reporting. -/
structure ErrUnit where
  /-- by class × 65536 + index (R533) -/
  units : Store UnitErr := []
  hostReads : Store HostReadErr := []
  /-- AER messages logged, oldest first: 1 Corrected Internal Error, 2 Uncorrectable Internal Error -/
  aer : List Nat := []
  deriving DecidableEq, Repr

end Sys2Proof.Machine
end

