-- ==== Sys2Proof/Machine/CoreState.lean ====
section
/-! DEFINITION. What one core holds (R99, R105, R113, R127, R133, R246, R256), with the reset value of every field. -/

namespace Sys2Proof.Machine

/-- Whether a core runs work (R100, R124, R214). -/
inductive CoreRun where
  /-- no work -/
  | idle
  /-- executing -/
  | running
  /-- asleep in a WAIT, clocks gated (R214, R451) -/
  | asleep
  /-- stopped by pre-emption, debug halt or Block reset (R124) -/
  | stopped
  deriving DecidableEq, Repr

/-- A bank of four tile registers: powered, gated, or waking (R113). -/
inductive BankPower where
  | gated
  | waking
  | awake
  deriving DecidableEq, Repr

/-- The drain configuration of DCFG (R205); all fields zero at the start of work. -/
structure DrainCfg where
  func : Nat := 0
  side : Nat := 0
  bias : Bool := false
  vb : Nat := 0
  stochastic : Bool := false
  nfmode : Bool := false
  outMx : Bool := false
  deriving DecidableEq, Repr

/-- The conversion statistics 0x00 to 0x08 (R246); all zero at the start of work (R248). -/
structure ConvStats where
  elems : Nat := 0
  /-- FP64 bits -/
  sqerr : Nat := 0
  /-- FP64 bits -/
  sqval : Nat := 0
  sat : Nat := 0
  nonfinite : Nat := 0
  selvage : Nat := 0
  satcols : W64 := 0
  maxabs : W32 := 0
  drains : Nat := 0
  deriving DecidableEq, Repr

/-- A declared stream (R133 to R138). -/
structure Stream where
  declared : Bool := false
  base : W64 := 0
  stride : W64 := 0
  runItems : Nat := 0
  runs : Nat := 0
  depth : Nat := 0
  stpDepth : Nat := 0
  /-- items of 256 bytes (vector loads) rather than 128 (tile loads) -/
  item256 : Bool := false
  /-- next unused item, counting completed uses only (R127, R210) -/
  pos : Nat := 0
  /-- next unused item, counting every issued use (R210) -/
  issued : Nat := 0
  /-- next item whose line run-ahead looks at (R136) -/
  ahead : Nat := 0
  /-- first address plus one of the page whose drop paused run-ahead, 0 when not paused (R94) -/
  paused : Nat := 0
  /-- address bits within that page -/
  pausedBits : Nat := 16
  deriving DecidableEq, Repr

/-- A line of the line cache: 256 bytes with one poison bit a word (R117, R118). -/
structure Line where
  ctx : Nat := 0
  /-- physical line address, a multiple of 256 -/
  pa : Nat := 0
  /-- 8 for a demand line, else the stream that fetched it -/
  owner : Nat := 8
  /-- last stream item the line holds (run-ahead lines; R136) -/
  lastItem : Nat := 0
  data : BitVec 2048 := 0
  poison : BitVec 32 := 0
  /-- a fill in flight asked for before an acquire: what it brings serves only the parts that waited then (R90, R118) -/
  stale : Bool := false
  /-- a fill of remote space: one more than the XID of its request; 0 for other fills (R98) -/
  req : Nat := 0
  /-- a fill whose page has STP (R81) -/
  stp : Bool := false
  deriving DecidableEq, Repr

/-- A row part of a tile load waiting for its line: bytes [pa, pa + len) of stored row `row` at byte `off` (R121). -/
structure Part where
  row : Nat
  off : Nat
  va : Nat
  pa : Nat
  len : Nat
  /-- it waited already at the last acquire, so a fill in flight then may serve it (R90) -/
  old : Bool := false
  deriving DecidableEq, Repr

/-- Where a tile-queue entry stands (R105, R106, R165). -/
inductive QState where
  /-- in the queue, not dispatched -/
  | queued
  /-- dispatched to the array and waiting behind a group instruction there (R166) -/
  | behind
  /-- dispatched and waiting at a rendezvous (R165) -/
  | arrived
  /-- started on its unit -/
  | started
  deriving DecidableEq, Repr

/-- A tile-queue entry: the instruction word and the scalar values it named as they stood at issue (R105, R126). -/
structure QEntry where
  word : W64 := 0
  /-- core-store offset of the word -/
  pc : Nat := 0
  vals : List W64 := []
  st : QState := .queued
  /-- parts of a tile load not yet served -/
  parts : List Part := []
  /-- staged bytes of a tile load, key row × 128 + byte -/
  buf : Memory := []
  /-- rows of a tile load written so far, bit r for row r (R121) -/
  wrote : Nat := 0
  /-- first stream item of a TLDS -/
  first : Nat := 0
  /-- parity restarts so far (R129) -/
  retries : Nat := 0
  /-- the MMA continues the sums of its predecessor (R156) -/
  chained : Bool := false
  /-- configuration in force for a drain that has started (R205) -/
  cfg : DrainCfg := {}
  /-- bit n: run-ahead of stream n resumes only after this access (R89) -/
  holds : Nat := 0
  deriving DecidableEq, Repr

/-- A replay entry of a stopped core (R126, R127). -/
structure Replay where
  word : W64 := 0
  pc : Nat := 0
  vals : List W64 := []
  /-- bit n: run-ahead of stream n resumes only after this access (R89) -/
  holds : Nat := 0
  deriving DecidableEq, Repr

/-- A core's wait record, held by its Block (R451, R467), with the destination register of the WAIT. -/
structure WaitRec where
  valid : Bool := false
  index : Nat := 0
  gen : Nat := 0
  mode : Nat := 0
  thr : Nat := 0
  timed : Bool := false
  deadline : Nat := 0
  sd : Nat := 0
  /-- the handle the WAIT names -/
  handle : Nat := 0
  /-- the WAIT as issued (R221) -/
  word : W64 := 0
  deriving DecidableEq, Repr

/-- What a remote access of a core does when its replies have come (R408 to R410). -/
inductive RemoteKind where
  /-- a scalar load: destination, size in bytes, sign extension -/
  | load (sd size : Nat) (sx : Bool)
  /-- a vector load: destination and lane mask; `stream` is the stream number plus one, 0 for none, and `next` the item after
  the one it uses -/
  | vload (v : Nat) (mask : W64) (stream next : Nat)
  /-- a line a tile load or run-ahead asked for with the request XID -/
  | fill (xid : Nat)
  /-- a store whose words are read first and merged (assumption 12) -/
  | merge (pa : Nat) (bytes : List Byte)
  /-- a store that waits for its acknowledgement -/
  | store (pa : Nat) (bytes : List Byte)
  /-- a signal to another node that waits for earlier accesses to be performed: destination, handle, value, mode (R90, R213) -/
  | signal (sd h v mode : Nat)
  deriving DecidableEq, Repr

/-- A remote access of the core that waits for replies: the transactions outstanding and the bytes received, keyed by
remote-space physical address. -/
structure RemoteWait where
  xids : List Nat
  kind : RemoteKind
  va : Nat
  /-- (physical address, length) of the pieces, in address order -/
  parts : List (Nat × Nat) := []
  /-- the lines asked for -/
  asked : List Nat := []
  buf : Memory := []
  bad : Store Bool := []
  /-- what the core stored meanwhile to lines in flight, as (address, bytes), oldest first; it wins (R119) -/
  above : List (Nat × List Byte) := []
  /-- asked for before an acquire: the lines it brings are not held (R90, R118) -/
  stale : Bool := false
  /-- bit n: run-ahead of stream n resumes only after this access (R89) -/
  holds : Nat := 0
  deriving DecidableEq, Repr

/-- A work handed to a core by Town Hall (R100, R489). -/
structure Work where
  ctx : Nat := 0
  tag : Nat := 0
  pc : Nat := 0
  /-- s1 to s7 -/
  args : List W64 := []
  seed : W32 := 0
  deriving DecidableEq, Repr

/-- A tagged instruction in flight (R575, R576). -/
structure CoreTag where
  pc : Nat
  word : Nat
  ctx : Nat
  /-- tag of the command -/
  tag : Nat
  t0 : Nat
  deriving DecidableEq, Repr

/-- One core (R99). -/
structure Core where
  run : CoreRun := .idle
  /-- held by a debug halt (R131) -/
  halted : Bool := false
  /-- one more than the core whose debug halt halted this one, 0 for none (R131) -/
  haltedBy : Nat := 0
  /-- a stop was requested and not yet taken (R124) -/
  stop : Bool := false
  /-- issue has stopped and tile work is abandoned; outstanding accesses complete (R124) -/
  stopping : Bool := false
  /-- the stop ends the work: an abort or a context reset (R499, R502) -/
  killed : Bool := false
  /-- tile registers Town Hall holds for a stopped core, and which were live (R113, R127) -/
  savedT : Store (BitVec 1024) := []
  savedLive : BitVec 16 := 0
  /-- time at which the core fell asleep or stopped, which the watchdog does not count (R536) -/
  pausedAt : Nat := 0
  ctx : Nat := 0
  /-- tag of the command whose work the core runs -/
  tag : Nat := 0
  pc : Nat := 0
  s : Store W64 := []
  p : Store W64 := []
  /-- lane i of v n at key 64 n + i -/
  v : Store W32 := []
  /-- row r of t n at key 64 n + r; byte b of the row in bits [8b + 7 : 8b] -/
  t : Store (BitVec 1024) := []
  /-- bit n set when t n is live (R112) -/
  live : BitVec 16 := 0
  /-- bit n set when t n is dead and its bank has not been gated since: its rows are lost (R112) -/
  dirty : BitVec 16 := 0
  power : Store BankPower := []
  /-- element (i, j) of bank b at key 4096 b + 64 i + j (R602) -/
  acc : Store W32 := []
  /-- 6-bit tag counter of each bank (R256) -/
  tagCtr : Store Nat := []
  streams : Store Stream := []
  lines : List Line := []
  fills : List Line := []
  queue : List QEntry := []
  /-- streams that want a line-cache line and found none free, whose turn comes first in front (R137) -/
  aheadWait : List Nat := []
  /-- parity restarts of the row move at the pc (R129) -/
  rowRetries : Nat := 0
  /-- the Bobbins: entry j of Bobbin n at key 32 n + j for the rows of A and at 2048 + 32 n + j for the columns of B; bits [15:0]
  hold one step's operand elements and bit 16 the valid bit (R149) -/
  bobbins : Store (BitVec 17) := []
  dcfg : DrainCfg := {}
  gens : Store W32 := []
  stats : ConvStats := {}
  wait : WaitRec := {}
  replay : List Replay := []
  remote : List RemoteWait := []
  /-- timestamp at which an instruction last completed (R536) -/
  lastDone : Nat := 0
  /-- run-ahead fetches dropped (R93) -/
  dropped : Nat := 0
  /-- line-cache parity events (R117) -/
  lineParity : Nat := 0
  /-- tagging generator; 0 stands for the seed of the device reset (R575) -/
  tagGen : W32 := 0
  /-- the tagged instruction in flight (R575) -/
  tagItem : Option CoreTag := none
  /-- works handed to the core and not yet started, in dispatch order (R489) -/
  works : List Work := []
  deriving DecidableEq, Repr

/-- A core after the device reset: idle, every register at its reset value. -/
def Core.reset : Core := {}

/-- Scalar register `n`; s0 reads as zero (R99). -/
def Core.sreg (k : Core) (n : Nat) : W64 := if n = 0 then 0 else Store.get 0 k.s n
/-- Writes scalar register `n`; writes to s0 are ignored (R99). -/
def Core.setS (k : Core) (n : Nat) (x : W64) : Core := if n = 0 then k else { k with s := Store.set 0 k.s n x }
/-- Predicate `n`; p0 reads as all ones (R99). -/
def Core.preg (k : Core) (n : Nat) : W64 := if n = 0 then BitVec.allOnes 64 else Store.get 0 k.p n
/-- Writes predicate `n`; writes to p0 are ignored (R99). -/
def Core.setP (k : Core) (n : Nat) (x : W64) : Core := if n = 0 then k else { k with p := Store.set 0 k.p n x }
/-- Lane `i` of vector register `n`. -/
def Core.vlane (k : Core) (n i : Nat) : W32 := Store.get 0 k.v (64 * n + i)
/-- Writes lane `i` of vector register `n`. -/
def Core.setV (k : Core) (n i : Nat) (x : W32) : Core := { k with v := Store.set 0 k.v (64 * n + i) x }
/-- Whether tile register `n` is live (R112). -/
def Core.isLive (k : Core) (n : Nat) : Bool := k.live.getLsbD n
/-- Row `r` of tile register `n`; a dead register reads as zero rows (R114). -/
def Core.trow (k : Core) (n r : Nat) : Nat := if k.isLive n then (Store.get 0 k.t (64 * n + r)).toNat else 0
/-- The words of accumulator bank `b`. -/
def Core.accAt (k : Core) (b i j : Nat) : W32 := Store.get 0 k.acc (4096 * b + 64 * i + j)
/-- The power state of a tile-register bank; gated after reset (R113, R132). -/
def Core.bank (k : Core) (b : Nat) : BankPower := Store.get .gated k.power b
/-- Stream `n`. -/
def Core.stream (k : Core) (n : Nat) : Stream := Store.get {} k.streams n
/-- Bytes per item of a stream (R133). -/
def Stream.itemSize (x : Stream) : Nat := if x.item256 then 256 else 128
/-- Address of item `k` (R135). -/
def Stream.item (x : Stream) (k : Nat) : Nat :=
  (x.base.toNat + k / x.runItems * x.stride.toNat + k % x.runItems * x.itemSize) % 2 ^ 64
/-- Items of a stream (R135). -/
def Stream.total (x : Stream) : Nat := x.runItems * x.runs
/-- Replaces stream `n`. -/
def Core.setStream (k : Core) (n : Nat) (x : Stream) : Core := { k with streams := Store.set {} k.streams n x }
/-- The tag counter of bank `b` (R256). -/
def Core.tagOf (k : Core) (b : Nat) : Nat := Store.get 0 k.tagCtr b

end Sys2Proof.Machine
end

