-- ==== Sys2Proof/Machine/JobState.lean ====
section
/-! DEFINITION. What a command holds while it runs (R489 to R502): its descriptor, where it stands, and the progress of
its job. -/

namespace Sys2Proof.Machine

/-- A compute command that runs (R489). -/
structure ComputeJob where
  /-- mask of the cores named (R11) -/
  named : Nat := 0
  /-- mask of the cores whose work has ended by END, a fault or a timeout -/
  ended : Nat := 0
  /-- mask of the cores that no longer work for the command, those an abort stopped included -/
  gone : Nat := 0
  /-- cause of the first fault reported, 0 for none -/
  fault : Nat := 0
  timeout : Bool := false
  /-- statistics slot of R254, 0 for none -/
  slot : Nat := 0
  /-- conversion statistics of a core at the end of its work, by core index (R253) -/
  stats : Store ConvStats := []
  /-- tags of the other requests of a fill batch, in arrival order (R175) -/
  batch : List Nat := []
  /-- tag plus one of the first request of the batch this one ended with, 0 for a command of its own: its record follows that one's, in
  arrival order (R175) -/
  lead : Nat := 0
  deriving DecidableEq, Repr

/-- A DMA command that runs (R497). -/
structure DmaJob where
  /-- units of 64 KiB -/
  total : Nat := 0
  /-- next unit to issue -/
  next : Nat := 0
  /-- units in flight -/
  flying : List Nat := []
  /-- units completed -/
  done : Nat := 0
  /-- an abort stopped the issue of units -/
  stopped : Bool := false
  /-- virtual source address plus one of the first poisoned word sent to host memory, 0 for none (R66) -/
  poisoned : Nat := 0
  /-- cause of the first unit that faulted, 0 for none -/
  fcause : Nat := 0
  timeout : Bool := false
  deriving DecidableEq, Repr

/-- What the gate result slot holds (R275). -/
structure GateSlot where
  sumsq : Nat := 0
  norm : Nat := 0
  clip : Nat := 0
  nfLocal : Nat := 0
  nfGroup : Nat := 0
  step : Nat := 0
  outcome : Nat := 0
  abort : Bool := false
  fault : Bool := false
  mismatch : Bool := false
  failed : Option Nat := none
  deriving DecidableEq, Repr

/-- A gate command that has been dispatched (R271, R276, R277). -/
structure GateJob where
  /-- time plus one at which the gate started, 0 before -/
  start : Nat := 0
  /-- the contribution of step 3 has been sent -/
  sent : Bool := false
  /-- non-finite count of this device, kept for the slot -/
  nfLocal : Nat := 0
  /-- the slot with which it resolved, while the write of the slot is outstanding in remote space (R271 step 4) -/
  out : Option GateSlot := none
  deriving DecidableEq, Repr

/-- An XLATE_INV that waits for the accesses that used a discarded translation (R84): the requests of remote space by XID, and the parts
of tile loads by core. -/
structure XlateJob where
  xids : List Nat := []
  parts : List (Nat × Part) := []
  deriving DecidableEq, Repr

/-- A SYNC_DUMP that copies (R465). -/
structure DumpJob where
  total : Nat := 0
  first : Nat := 0
  next : Nat := 0
  waiters : Bool := false
  /-- the wait records have been written: the header follows -/
  records : Bool := false
  start : Nat := 0
  deriving DecidableEq, Repr

/-- A fill request held in its batch (R174, R490). -/
structure FillJob where
  since : Nat := 0
  key : Nat := 0
  rows : Nat := 0
  /-- the 256 bytes of its launch record as one number -/
  lrec : Nat := 0
  /-- tag plus one of the request under whose record its batch runs, 0 while held -/
  leader : Nat := 0
  /-- for the leader of a dispatched batch whose table is not yet written: the tags of the others -/
  batch : List Nat := []
  deriving DecidableEq, Repr

/-- A SYNC_WAIT that waits (R459). -/
structure WaitJob where
  index : Nat := 0
  gen : Nat := 0
  mode : Nat := 0
  thr : Nat := 0
  /-- deadline in ns plus one, 0 for none -/
  deadline : Nat := 0
  /-- woken while a TAKE could succeed: the atomic check runs again (R453, R460) -/
  woken : Bool := false
  deriving DecidableEq, Repr

/-- A chunk at the destination engine of a mesh reduce (R368). -/
structure ChunkAcc where
  count : Nat := 0
  words : List W32 := []
  /-- poisoned 64-bit payload words -/
  bad : List Nat := []
  /-- the destination's existing value has been added -/
  acc : Bool := false
  deriving DecidableEq, Repr

/-- A mesh reduce that runs (R366 to R369). -/
structure ReduceJob where
  /-- source addresses and engines -/
  srcs : List (Nat × Nat) := []
  /-- next chunk of each source -/
  sent : List Nat := []
  total : Nat := 0
  chunks : Store ChunkAcc := []
  written : Store Bool := []
  deriving DecidableEq, Repr

/-- A multicast that runs, over the mesh or the fabric (R370 to R372, R426, R427). -/
structure McastJob where
  /-- address and engine, or remote offset and node, of each target -/
  targets : List (Nat × Nat) := []
  total : Nat := 0
  next : Nat := 0
  /-- packets each target has written -/
  counts : List Nat := []
  /-- targets that get no more frames (R427) -/
  dead : List Nat := []
  /-- time of the first packet plus one, 0 before -/
  firstAt : Nat := 0
  deriving DecidableEq, Repr

/-- A gather or scatter that runs (R376, R377). -/
structure GatherJob where
  total : Nat := 0
  /-- indices read, plus one -/
  index : Store Nat := []
  finished : Store Bool := []
  deriving DecidableEq, Repr

/-- A collective that runs or that still forwards (R415 to R423). -/
structure CollJob where
  /-- members of the group, rank of this one, and the nodes in rank order (R413) -/
  p : Nat := 2
  rank : Nat := 0
  members : List Nat := []
  /-- next chunk of its own to send into the ring -/
  own : Nat := 0
  /-- frames of the ring taken -/
  got : Nat := 0
  written : Store Bool := []
  done : Nat := 0
  sat : Nat := 0
  nf : Nat := 0
  /-- node that raised the reason, or failed, plus one -/
  node : Nat := 0
  peerSeal : Nat := 0
  /-- elements of the owned shard finished so far, as FP32, for the command's gate step (R266) -/
  gateElems : List W32 := []
  /-- last frame of the command sent to, and received from, next and prev -/
  sentNext : Nat := 0
  sentPrev : Nat := 0
  heardNext : Nat := 0
  heardPrev : Nat := 0
  deriving DecidableEq, Repr

end Sys2Proof.Machine
end

