-- ==== Sys2Proof/Machine/SyncState.lean ====
section
/-! DEFINITION. The sync unit: its table of 65,536 entries (R438, R441), the counts of R446 and the wake flits on their
way to Blocks (R452). -/

namespace Sys2Proof.Machine

/-- An entry of the sync table (R441). The default is the free entry of R443. -/
structure SyncEntry where
  counter : Nat := 0
  gen : Nat := 0
  /-- 0 semaphore, 1 barrier, 2 event, 3 free -/
  kind : Nat := 3
  abandoned : Bool := false
  frozen : Bool := false
  owner : Nat := 0
  /-- waiter summary, bit b for Block b -/
  blocks : Nat := 0
  engine : Bool := false
  host : Bool := false
  participants : Nat := 0
  even : Nat := 0
  odd : Nat := 0
  hsig : Bool := false
  vector : Nat := 0
  msix : Bool := false
  deriving DecidableEq, Repr

/-- The first 8 bytes of an entry (R441). -/
def SyncEntry.word0 (e : SyncEntry) : Nat :=
  e.counter % 2 ^ 48 + (e.gen % 256) * 2 ^ 48 + (e.kind % 4) * 2 ^ 56 + b2n e.abandoned * 2 ^ 58 +
    b2n e.frozen * 2 ^ 59 + (e.owner % 8) * 2 ^ 60

/-- The second 8 bytes of an entry (R441). -/
def SyncEntry.word1 (e : SyncEntry) : Nat := e.blocks % 2 ^ 36 + b2n e.engine * 2 ^ 36 + b2n e.host * 2 ^ 37

/-- The third 8 bytes of an entry (R441). -/
def SyncEntry.word2 (e : SyncEntry) : Nat :=
  e.participants % 2 ^ 16 + (e.even % 2 ^ 16) * 2 ^ 16 + (e.odd % 2 ^ 16) * 2 ^ 32

/-- The last 8 bytes of an entry (R441). -/
def SyncEntry.word3 (e : SyncEntry) : Nat := b2n e.hsig + (e.vector % 2 ^ 11) * 2 + b2n e.msix * 2 ^ 12

/-- The 32 bytes of an entry. -/
def SyncEntry.toBytes (e : SyncEntry) : List Byte :=
  natLE 8 e.word0 ++ natLE 8 e.word1 ++ natLE 8 e.word2 ++ natLE 8 e.word3

/-- A wake flit on its way to a Block: the index and the first 8 bytes of the entry after the operation (R452). -/
structure WakeFlit where
  block : Nat
  index : Nat
  snap : Nat
  deriving DecidableEq, Repr

/-- The sync unit (R438 to R446). -/
structure SyncUnit where
  table : Store SyncEntry := []
  poison : Store Bool := []
  /-- time plus one at which an entry was last retired, 0 for never (R444) -/
  retired : Store Nat := []
  stale : Nat := 0
  overrun : Nat := 0
  /-- wake flits sent and not yet accepted, oldest first -/
  flits : List WakeFlit := []
  deriving DecidableEq, Repr

end Sys2Proof.Machine
end

