-- ==== Sys2Proof/Machine/HostState.lean ====
section
/-! DEFINITION. What Town Hall holds for each context: the commands it has read, the ring indices, the held records and
the gate (R268, R477 to R502). -/

namespace Sys2Proof.Machine

/-- Where a command stands between its read and its completion record. -/
inductive CmdPhase where
  /-- read, not yet dispatched (R491) -/
  | read
  /-- dispatched, its row of the table not yet taken -/
  | dispatched
  /-- running, held in a fill batch, waiting for its gate or waiting on an object -/
  | running
  /-- its outcome is settled; COMMAND_COMPLETE follows (R492) -/
  | settled
  deriving DecidableEq, Repr

/-- Where the PREWAIT of a command stands (R460, R491, R492). -/
inductive PreWait where
  | none
  /-- Town Hall waits on the object -/
  | waiting
  /-- found true by a wake -/
  | met
  | abandoned
  | stale
  | poisoned
  deriving DecidableEq, Repr

/-- The progress of a command's job. -/
inductive Job where
  | none
  | compute (j : ComputeJob)
  | fill (j : FillJob)
  | dma (j : DmaJob)
  | wait (j : WaitJob)
  | xlate (j : XlateJob)
  | gate (j : GateJob)
  | press (j : PressJob)
  | dump (j : DumpJob)
  | reduce (j : ReduceJob)
  /-- MMCAST or FMCAST -/
  | mcast (j : McastJob)
  /-- GATHER or SCATTER -/
  | gather (j : GatherJob)
  | coll (j : CollJob)
  | ingest (j : IngestJob)
  deriving DecidableEq, Repr

/-- A command of a context: its own copy of the descriptor and its state (R482, R485). -/
structure Cmd where
  tag : Nat := 0
  /-- the eight 64-bit words of the descriptor -/
  desc : List W64 := []
  phase : CmdPhase := .read
  /-- an abort was taken before dispatch: the command completes ABORTED (R498, R499) -/
  aborted : Bool := false
  /-- an abort record follows the command's own record (R500) -/
  abortRec : Bool := false
  status : Nat := 0
  cause : Nat := 0
  position : Nat := 0
  result : W64 := 0
  adv : Bool := false
  /-- event count of the command's first event record (R493) -/
  evt : Nat := 0xFFFFFFFF
  /-- time of the last progress write (R496) -/
  progressAt : Nat := 0
  pre : PreWait := .none
  /-- COLL_SEQ taken at the read of a collective or a gate with a group (R414) -/
  seq : Nat := 0
  /-- ABORT bit of a gate command (R276) -/
  gateAbort : Bool := false
  job : Job := .none
  /-- the job record of a PRESS or INGEST as Town Hall read it when it read the command (R288, R314) -/
  jrec : Option Nat := none
  /-- half and executing engines of a PRESS, found at that read (R282) -/
  home : Nat × List Nat := (0, [])
  /-- slots and counter words written at completion so far (R603) -/
  wrote : Nat := 0
  /-- SIGNAL has been signalled (R271, R492) -/
  signalled : Bool := false
  deriving DecidableEq, Repr

/-- A completion or abort record that waits for room in the completion ring (R483, R493). -/
structure HeldRec where
  tag : Nat := 0
  status : Nat := 0
  cause : Nat := 0
  adv : Bool := false
  /-- 0 command completion, 1 abort record -/
  kind : Nat := 0
  stale : Bool := false
  position : Nat := 0
  result : W64 := 0
  evt : Nat := 0xFFFFFFFF
  irq : Bool := false
  deriving DecidableEq, Repr

/-- A cached translation of one 64 KiB page (R84). -/
structure Xlat where
  pa : Nat := 0
  r : Bool := false
  w : Bool := false
  np : Bool := false
  stp : Bool := false
  level : Nat := 0
  entry : W64 := 0
  deriving DecidableEq, Repr

/-- One partial bank of a context (R268). -/
structure GateBank where
  /-- FP64 bits -/
  sumsq : Nat := 0
  nf : Nat := 0
  /-- a contributing command completed with a status other than OK (R271) -/
  fault : Bool := false
  deriving DecidableEq, Repr

/-- The outcome of a gate step: its status code and the clipping factor (R273). -/
structure GateRes where
  step : Nat
  outcome : Nat
  clip : W32
  deriving DecidableEq, Repr

/-- Town Hall's state for one context. -/
structure Ctx where
  cmdHead : Nat := 0
  cplTail : Nat := 0
  evtTail : Nat := 0
  abtHead : Nat := 0
  evtLost : Nat := 0
  abtStale : Nat := 0
  /-- host words as last read (R481) -/
  cmdTail : Nat := 0
  cplHead : Nat := 0
  evtHead : Nat := 0
  abtTail : Nat := 0
  /-- time plus one at which the host words were last seen to change, 0 before the first (R481) -/
  changedAt : Nat := 0
  /-- serial number of the context's last turn at dispatch, 0 before the first (R491) -/
  served : Nat := 0
  /-- tags of abort requests for descriptors not yet read (R498) -/
  marked : List Nat := []
  cmds : List Cmd := []
  /-- collectives past their commit point that still forward frames of the ring (R418) -/
  relays : List Cmd := []
  held : List HeldRec := []
  tlb : Store Xlat := []
  bankEven : GateBank := {}
  bankOdd : GateBank := {}
  /-- time plus one of the last poll, 0 before the first -/
  polledAt : Nat := 0
  /-- next gate step to resolve, once a command of a gate step was read (R269) -/
  gateNext : Option Nat := none
  /-- step of the last gate command read (R269) -/
  gateRead : Option Nat := none
  /-- gate steps resolved since the last context reset, newest first -/
  gateDone : List GateRes := []
  deriving DecidableEq, Repr

end Sys2Proof.Machine
end

