-- ==== Sys2Proof/Machine/State.lean ====
section
/-! DEFINITION. The state of the S1, the reasons a step can stop, and the state after the device reset. -/

namespace Sys2Proof.Machine

open Sys2Proof

/-- An MSI-X message sent: vector, address and data (R476). -/
structure MsixMsg where
  vector : Nat
  addr : Nat
  data : Nat
  deriving DecidableEq, Repr

/-- What a write of DBG_CTRL has in progress (R131, R132). -/
inductive DbgOp where
  | none
  | halt (cores : List Nat)
  | resume (cores : List Nat)
  /-- a Block reset that waits for its cores to stop -/
  | resetStop (block : Nat)
  /-- a Block reset that resumes its cores -/
  | resetResume (cores : List Nat)
  deriving DecidableEq, Repr

/-- The machine. -/
structure State where
  /-- the timestamp counter, in ns (R464) -/
  now : Nat := 0
  /-- the model's own counter of free values drawn so far (assumption 4) -/
  free : Nat := 0
  /-- every byte of the device's local space as its readers see it: HBM3E, second tier, Square staging, core stores -/
  dev : Memory := []
  /-- poisoned 64-bit words of the local space, by word index (R65, R66) -/
  poison : Store Bool := []
  /-- host memory by host bus address (R75) -/
  host : Memory := []
  /-- 64-bit words of host memory whose read completions carry EP (R503) -/
  hostEp : Store Bool := []
  /-- 4 KiB pages of host space whose reads return Unsupported Request or Completer Abort (R503) -/
  hostBad : Store Bool := []
  /-- the BAR0 registers by byte offset of their 32-bit words (R473) -/
  regs : Store W32 := []
  /-- staged lower halves of 64-bit registers: the value plus one, 0 when nothing is staged (R472) -/
  staged : Store Nat := []
  /-- the cores by core index (R11) -/
  cores : Store Core := []
  dbg : DbgOp := .none
  sync : SyncUnit := {}
  /-- ingest commands whose shares sleep on FREE: its index plus one, by context × 2^32 + tag (R341, R460) -/
  roomWait : Store Nat := []
  /-- context × 2^32 + tag, plus one, of the command each Cutting Room share served last (R351) -/
  roomTurn : Store Nat := []
  fab : Fabric := {}
  err : ErrUnit := {}
  /-- the Press engines P0 to P9 -/
  press : Store PressEng := []
  /-- context of the last unit handed out in each half, plus one (R307) -/
  pressTurn : Store Nat := []
  /-- the contexts 0 to 7 -/
  ctxs : Store Ctx := []
  /-- the MSI-X table by 32-bit word; bit 0 of a Vector Control word is held inverted, so that an entry nothing has written is
  masked (R476, assumption 18) -/
  msixTable : Store W32 := []
  msixPending : Store Bool := []
  msixEnable : Bool := false
  msixMask : Bool := false
  /-- messages sent, oldest first -/
  msixSent : List MsixMsg := []
  plat : Plat := {}
  mem : MemSys := {}
  mesh : Mesh := {}
  /-- the commands that wait, oldest first -/
  pending : List Instr := []
  deriving DecidableEq, Repr

/-- Why a step stops with a fault. -/
inductive Fault where
  /-- Raised by an instruction word, stream descriptor or handle with a reserved bit set or a reserved value: R16 calls the
  result unpredictable. Safe. -/
  | reservedBits
  /-- Raised where the manual calls the outcome of a host error unpredictable and gives no effect (R16, R504). Safe. -/
  | hostError
  /-- Raised where a board breaks a rule of the pins and the manual calls the results unpredictable (R585). Safe. -/
  | boardError
  deriving DecidableEq, Repr

/-- Why a step has no meaning. -/
inductive Refusal where
  /-- Raised by the dispatch for a command without a meaning yet. Safe. -/
  | notModelled (mnemonic : String)
  deriving DecidableEq, Repr

/-- The registers with a non-zero reset value, setup part. The fused part is a SAR-S1-576, one of the three grades R3 allows, with no core
disabled (DESIGN CHOICE, assumption 75). -/
def resetRegs0 : Store W32 :=
  [(0x0000, 0x00015352), (0x0004, 0x00240240), (0x0008, 0x21), (0x0084, 0x1),
   (0x0108, 0x00080908), (0x0148, 0x00080908), (0x0188, 0x00080908), (0x01C8, 0x00080908),
   (0x0208, 0x00080908), (0x0248, 0x00080908), (0x0288, 0x00080908), (0x02C8, 0x00080908),
   (0x03C0, 0x00FA), (0x03C4, 0x1F40), (0x0400, 0x10101010), (0x0408, 0x00181801)]

/-- The registers with a non-zero reset value, work part. -/
def resetRegs1 : Store W32 :=
  [(0x0500, 0xC8), (0x0504, 0xC8), (0x0508, 0xC8), (0x050C, 0xC8),
   (0x0510, 0xC8), (0x0514, 0xC8), (0x0518, 0xC8), (0x051C, 0xC8)]

/-- The registers with a non-zero reset value, fabric ports (AN of every PORT_CTRL). -/
def resetRegs2 : Store W32 :=
  [(0x0640, 4), (0x0644, 4), (0x0648, 4), (0x064C, 4), (0x0650, 4), (0x0654, 4), (0x0658, 4), (0x065C, 4),
   (0x0660, 4), (0x0664, 4), (0x0668, 4), (0x066C, 4), (0x0670, 4), (0x0674, 4), (0x0678, 4), (0x067C, 4),
   (0x0680, 4), (0x0684, 4), (0x0688, 4), (0x068C, 4), (0x0690, 4), (0x0694, 4), (0x0698, 4), (0x069C, 4)]

/-- The registers with a non-zero reset value, errors, Tape and power. -/
def resetRegs3 : Store W32 :=
  [(0x0830, 0x01000040), (0x0834, 0xE10), (0x0868, 0x8),
   (0x0880, 0x3E8), (0x0884, 0x3E8), (0x0888, 0x3E8), (0x088C, 0x3E8),
   (0x0890, 0x3E8), (0x0894, 0x3E8), (0x0898, 0x3E8), (0x089C, 0x3E8),
   (0x1408, 0x00003E88), (0x1418, 0xFFFFFFFF), (0x141C, 0x7FFFFFFF), (0x1448, 0x8),
   (0x2000, 0x640), (0x2004, 0x06400000), (0x200C, 0x88888888), (0x2010, 0x8888)]

/-- The machine right after the device reset. -/
def State.reset : State :=
  { regs := resetRegs0 ++ resetRegs1 ++ resetRegs2 ++ resetRegs3 }

end Sys2Proof.Machine
end

