-- ==== Sys2Proof/Machine/Ops.lean ====
section
/-! DEFINITION. The named operations over registers, memory, translation and records that the meanings share. -/

namespace Sys2Proof.Machine

open Sys2Proof

/-! ## Parts of the state -/

/-- Time passes by one nanosecond (R464). -/
def State.tick (s : State) : State := { s with now := s.now + 1 }

/-- Core `c`. -/
def State.core (s : State) (c : Nat) : Core := Store.get {} s.cores c
/-- Replaces core `c`. -/
def State.setCore (s : State) (c : Nat) (k : Core) : State := { s with cores := Store.set {} s.cores c k }
/-- Context `n`. -/
def State.ctx (s : State) (n : Nat) : Ctx := Store.get {} s.ctxs n
/-- Replaces context `n`. -/
def State.setCtx (s : State) (n : Nat) (x : Ctx) : State := { s with ctxs := Store.set {} s.ctxs n x }

/-- The value of the 32-bit register word at BAR0 offset `off` (a multiple of 4). -/
def State.reg (s : State) (off : Nat) : Nat := (Store.get 0 s.regs off).toNat
/-- Sets the 32-bit register word at `off`. -/
def State.setReg (s : State) (off v : Nat) : State := { s with regs := Store.set 0 s.regs off (BitVec.ofNat 32 v) }
/-- Bits [lo + n - 1 : lo] of a 32-bit register word. -/
def State.fld (s : State) (off lo n : Nat) : Nat := bitsOf (s.reg off) lo n
/-- Sets bits [lo + n - 1 : lo] of a 32-bit register word. -/
def State.setFld (s : State) (off lo n v : Nat) : State := s.setReg off (putBits (s.reg off) lo n v)
/-- One bit of a 32-bit register word. -/
def State.flag (s : State) (off i : Nat) : Bool := s.fld off i 1 == 1
/-- Sets one bit of a 32-bit register word. -/
def State.setFlag (s : State) (off i : Nat) (b : Bool) : State := s.setFld off i 1 (b2n b)
/-- A 64-bit register: lower half at `off`. -/
def State.reg64 (s : State) (off : Nat) : Nat := s.reg off + 2 ^ 32 * s.reg (off + 4)
/-- Sets a 64-bit register. -/
def State.setReg64 (s : State) (off v : Nat) : State := (s.setReg off v).setReg (off + 4) (v / 2 ^ 32)

/-- A free value, and the state with the counter advanced. -/
def State.fresh (s : State) : Nat × State := (Config.freeNat s.free, { s with free := s.free + 1 })

/-- BOOT_STATUS.STATE (R511). -/
def State.boot (s : State) : Nat := s.fld 0x84 0 4
/-- Whether the device is READY: firmware runs and no fatal error stopped it (R508, R525). -/
def State.ready (s : State) : Bool := s.boot == 5
/-- The device's own node number (R384). -/
def State.node (s : State) : Nat := s.fld 0x600 0 14
/-- The device's timestamp as a TIME field holds it (R464). -/
def State.time32 (s : State) : Nat := s.now % 2 ^ 32

/-- Whether core `c` is disabled in BLOCK_MAP (R4, R474). -/
def State.coreDisabled (s : State) (c : Nat) : Bool := bitOf (s.reg (0x10 + 4 * (c / 32))) (c % 32)
/-- A core that exists and is enabled. -/
def State.coreGood (s : State) (c : Nat) : Bool := decide (c < 576) && !s.coreDisabled c

/-- The Block of a core, in core order (R11). -/
def coreBlock (c : Nat) : Nat := c / 16
/-- The core row in its Block (R11). -/
def coreRow (c : Nat) : Nat := c % 16 / 4
/-- The core column in its Block (R11). -/
def coreCol (c : Nat) : Nat := c % 4

/-! ## Context registers (R477) -/

/-- Host bus address of the command ring (R477). -/
def State.ringBase (s : State) (n : Nat) : Nat := s.reg64 (0x100 + 0x40 * n)
/-- CMD_LOG2 (R477). -/
def State.cmdLog (s : State) (n : Nat) : Nat := s.fld (0x108 + 0x40 * n) 0 5
/-- CPL_LOG2 (R477). -/
def State.cplLog (s : State) (n : Nat) : Nat := s.fld (0x108 + 0x40 * n) 8 5
/-- EVT_LOG2 (R477). -/
def State.evtLog (s : State) (n : Nat) : Nat := s.fld (0x108 + 0x40 * n) 16 5
/-- CTX_CTRL (R477). -/
def ctxCtrl (n : Nat) : Nat := 0x10C + 0x40 * n
/-- CTX_CTRL.ENABLE. -/
def State.ctxEnabled (s : State) (n : Nat) : Bool := s.flag (ctxCtrl n) 0
/-- CTX_CTRL.PREEMPT. -/
def State.ctxPreempt (s : State) (n : Nat) : Bool := s.flag (ctxCtrl n) 1
/-- CTX_CTRL.STATE: 0 disabled, 1 running, 2 pre-empted, 3 resetting. -/
def State.ctxState (s : State) (n : Nat) : Nat := s.fld (ctxCtrl n) 4 2
/-- Host bus address of the doorbell page (R477). -/
def State.doorbell (s : State) (n : Nat) : Nat := s.reg64 (0x110 + 0x40 * n)
/-- Host bus address of the progress area (R477). -/
def State.progressBase (s : State) (n : Nat) : Nat := s.reg64 (0x118 + 0x40 * n)
/-- Host bus address of the completion ring (R478). -/
def State.cplBase (s : State) (n : Nat) : Nat := s.ringBase n + 64 * 2 ^ s.cmdLog n
/-- Host bus address of the event ring (R478). -/
def State.evtBase (s : State) (n : Nat) : Nat := s.cplBase n + 32 * 2 ^ s.cplLog n

/-! ## Address spaces (R72 to R76) -/

/-- What a physical address names. -/
inductive Space where
  /-- a backed byte of the device's local space -/
  | loc (a : Nat)
  /-- internal space (R74) -/
  | internal
  /-- host space: the host bus address (R75) -/
  | host (bus : Nat)
  /-- another node's local space (R76) -/
  | remote (node off : Nat)
  | unbacked
  deriving DecidableEq, Repr

/-- HBM3E (R72). -/
def isHbm (a : Nat) : Bool := decide (a < 0xC000000000)
/-- Second tier (R72). -/
def isTier2 (a : Nat) : Bool := decide (0x10000000000 ≤ a ∧ a < 0x18000000000)
/-- Staging units in force of a half (R40). -/
def State.stagingUnits (s : State) (half : Nat) : Nat := s.fld 0x400 (16 + 8 * half) 5
/-- Square staging in force (R39, R72). -/
def State.isStaging (s : State) (a : Nat) : Bool :=
  decide (0x18000000000 ≤ a ∧ a < 0x18080000000) &&
    decide (a % 2 ^ 30 < s.stagingUnits (a / 2 ^ 30 % 2) * 0x4000000)
/-- First address of the core store windows (R72). -/
def coreStoreBase : Nat := 0x18100000000
/-- A byte of an enabled core's store window (R5, R72). -/
def State.isCoreStore (s : State) (a : Nat) : Bool :=
  decide (coreStoreBase ≤ a ∧ a < coreStoreBase + 576 * 0x100000) && !s.coreDisabled ((a - coreStoreBase) / 0x100000)
/-- Internal space (R72). -/
def isInternal (a : Nat) : Bool := decide (0x1FF00000000 ≤ a ∧ a < 0x20000000000)

/-- What a local address names (R72). -/
def State.localSpace (s : State) (a : Nat) : Space :=
  if isHbm a || isTier2 a || s.isStaging a || s.isCoreStore a then .loc a
  else if isInternal a then .internal
  else .unbacked

/-- What a 56-bit physical address names; an access to this device's own remote window is local (R76). -/
def State.space (s : State) (a : Nat) : Space :=
  if a < 0x20000000000 then s.localSpace a
  else if a < 0x40000000000000 then .unbacked
  else if a < 0x80000000000000 then .host (a % 2 ^ 54)
  else
    let node := bitsOf a 41 14
    if node = s.node then s.localSpace (a % 2 ^ 41) else .remote node (a % 2 ^ 41)

/-- Backed HBM3E, second tier or Square staging: where tables and incoming requests may lie (R77, R82). -/
def State.plainBacked (s : State) (a : Nat) : Bool := isHbm a || isTier2 a || s.isStaging a

/-! ## Local and host memory -/

/-- Whether the 64-bit word that holds local address `a` is poisoned. -/
def State.isPoisoned (s : State) (a : Nat) : Bool := Store.get false s.poison (a / 8)

/-- Marks the words whose indices are `k` to `k + n - 1` as poisoned or clean. -/
def markWords (p : Store Bool) (k : Nat) (b : Bool) : Nat → Store Bool
  | 0 => p
  | n + 1 => markWords (Store.set false p k b) (k + 1) b n

/-- The poison map after writing `n` bytes at `a`: whole words become clean, parts of words stay as they were (R66). -/
def cleanWords (p : Store Bool) (a n : Nat) : Store Bool :=
  markWords p ((a + 7) / 8) false ((a + n) / 8 - (a + 7) / 8)

/-- The first word index from `k` that a poison map marks, among `n` words. -/
def firstMarked (p : Store Bool) (k : Nat) : Nat → Option Nat
  | 0 => none
  | n + 1 => if Store.get false p k then some k else firstMarked p (k + 1) n

/-- Number of 64-bit words that bytes [a, a + n) touch. -/
def wordsOf (a n : Nat) : Nat := if n = 0 then 0 else (a + n - 1) / 8 - a / 8 + 1

/-- Byte address of the first poisoned word that bytes [a, a + n) of a poison map touch. -/
def poisonIn (p : Store Bool) (a n : Nat) : Option Nat := (firstMarked p (a / 8) (wordsOf a n)).map (· * 8)

/-- Writes bytes to the local space (R35, R66). -/
def State.devWrite (s : State) (a : Nat) (bs : List Byte) : State :=
  { s with dev := Memory.setBytes s.dev a bs, poison := cleanWords s.poison a bs.length }

/-- Writes the `n` low bytes of a number to the local space, little-endian. -/
def State.devWriteLE (s : State) (a n v : Nat) : State := s.devWrite a (natLE n v)

/-- `n` bytes of the local space as a little-endian number. -/
def State.devRead (s : State) (a n : Nat) : Nat := Memory.readLE s.dev a n

/-- Writes bytes to host memory by bus address; whole words become clean. -/
def State.hostWrite (s : State) (a : Nat) (bs : List Byte) : State :=
  { s with host := Memory.setBytes s.host a bs, hostEp := cleanWords s.hostEp a bs.length }

/-- `n` bytes of host memory as a little-endian number. -/
def State.hostRead (s : State) (a n : Nat) : Nat := Memory.readLE s.host a n

/-- Whether a read of host bus address `a` returns Unsupported Request or Completer Abort (R503). -/
def State.hostFails (s : State) (a : Nat) : Bool := Store.get false s.hostBad (a / 4096)

/-- Whether a read of `n` bytes of host memory fails (R503); `n` is at most one page. -/
def State.hostReadFails (s : State) (a n : Nat) : Bool := s.hostFails a || s.hostFails (a + n - 1)

/-- `n` bytes of a core store, by offset modulo 2^20 (R108, R208). -/
def State.csRead (s : State) (c off n : Nat) : Nat := s.devRead (coreStoreBase + c * 0x100000 + off % 0x100000) n
/-- Device physical address of a core-store offset (R107). -/
def csAddr (c off : Nat) : Nat := coreStoreBase + c * 0x100000 + off % 0x100000
/-- Writes bytes to a core store at offsets modulo 2^20. -/
def State.csWrite (s : State) (c : Nat) : Nat → List Byte → State
  | _, [] => s
  | off, bs =>
    let room := 0x100000 - off % 0x100000
    (s.devWrite (csAddr c off) (bs.take room)).devWrite (csAddr c 0) (bs.drop room)

/-! ## MSI-X (R476) -/

/-- Sends the message of vector `v`, whatever its masks. -/
def State.sendMsix (s : State) (v : Nat) : State :=
  { s with
    msixPending := Store.set false s.msixPending v false
    msixSent := s.msixSent ++ [⟨v, (Store.get 0 s.msixTable (4 * v)).toNat + 2 ^ 32 * (Store.get 0 s.msixTable (4 * v + 1)).toNat,
      (Store.get 0 s.msixTable (4 * v + 2)).toNat⟩] }

/-- Whether vector `v` is masked by its own bit or by Function Mask. -/
def State.msixMasked (s : State) (v : Nat) : Bool :=
  s.msixMask || !bitOf (Store.get 0 s.msixTable (4 * v + 3)).toNat 0

/-- Raises vector `v`: lost while MSI-X is off, pending while masked, else sent (R476). -/
def State.msix (s : State) (v : Nat) : State :=
  if !s.msixEnable then s
  else if s.msixMasked v then { s with msixPending := Store.set false s.msixPending v true }
  else s.sendMsix v

/-- Raises vector `v` when `b` holds. -/
def State.msixIf (s : State) (b : Bool) (v : Nat) : State := if b then s.msix v else s

/-! ## Event records (R484) -/

/-- The distance from `b` to `a` of two 32-bit counts (R480). -/
def wrapSub (a b : Nat) : Nat := (a + 2 ^ 32 - b % 2 ^ 32) % 2 ^ 32

/-- Writes an event record of 32 bytes for context `n`, or counts it lost when the ring is full. The second component is
the record's event count, 0xFFFFFFFF when it was dropped. -/
def State.event (s : State) (n : Nat) (rec : List Byte) : State × Nat :=
  let x := s.ctx n
  if wrapSub x.evtTail x.evtHead ≥ 2 ^ s.evtLog n then
    let lost := satAdd 0xFFFFFFFF x.evtLost 1
    ((s.setCtx n { x with evtLost := lost }).hostWrite (s.doorbell n + 0x810) (natLE 4 lost), 0xFFFFFFFF)
  else
    let s1 := s.hostWrite (s.evtBase n + 32 * (x.evtTail % 2 ^ s.evtLog n)) rec
    let t := (x.evtTail + 1) % 2 ^ 32
    let s2 := (s1.setCtx n { x with evtTail := t }).hostWrite (s.doorbell n + 0x808) (natLE 4 t)
    (s2.msixIf (s.flag (ctxCtrl n) 3) (s.fld (ctxCtrl n) 19 11), x.evtTail)

/-- What a fault record names (R86). -/
structure AccFault where
  cause : Nat
  level : Nat := 0xFF
  unbacked : Bool := false
  entry : Nat := 0
  va : Nat := 0
  deriving DecidableEq, Repr

/-- The 32 bytes of a fault record (R86). -/
def faultRecord (f : AccFault) (cls id n tag : Nat) (write isLocal : Bool) (time : Nat) : List Byte :=
  natLE 4 (f.cause + f.level * 2 ^ 8 + cls * 2 ^ 16 + b2n write * 2 ^ 24 + b2n f.unbacked * 2 ^ 25 + b2n isLocal * 2 ^ 26) ++
    natLE 4 (id + n * 2 ^ 16) ++ natLE 8 f.va ++ natLE 8 f.entry ++ natLE 4 tag ++ natLE 4 time

/-- The 32 bytes of an instruction fault record (R221). -/
def instrFaultRecord (cause c n pc info word tag time : Nat) : List Byte :=
  natLE 4 cause ++ natLE 4 (c + n * 2 ^ 16) ++ natLE 4 (pc % 2 ^ 20) ++ natLE 4 info ++ natLE 8 word ++
    natLE 4 tag ++ natLE 4 time

/-! ## Translation (R80 to R84) -/

/-- The outcome of a translation. -/
inductive XRes where
  | ok (pa : Nat) (np stp : Bool)
  | fault (f : AccFault)
  deriving DecidableEq, Repr

/-- Page bits of a leaf at a level: 1 GiB, 2 MiB, 64 KiB (R80). -/
def pageBits : Nat → Nat
  | 1 => 30 | 2 => 21 | _ => 16

/-- Table bits of the table a level indexes: 16 KiB, 16 KiB, 4 KiB, 256 bytes (R80). -/
def tableBits : Nat → Nat
  | 0 => 14 | 1 => 14 | 2 => 12 | _ => 8

/-- The index into the table of a level (R80). -/
def walkIndex (level va : Nat) : Nat :=
  match level with
  | 0 => bitsOf va 41 11 | 1 => bitsOf va 30 11 | 2 => bitsOf va 21 9 | _ => bitsOf va 16 5

/-- The end of a walk at a leaf: permission, internal space, backing (R82). -/
def State.leafCheck (s : State) (va pa level e : Nat) (r w np stp write : Bool) : XRes :=
  if (write && !w) || (!write && !r) then .fault { cause := 3, level, entry := e, va }
  else match s.space pa with
    | .internal => .fault { cause := 3, level, entry := e, va }
    | .unbacked => .fault { cause := 2, level, entry := e, va, unbacked := true }
    | _ => .ok pa np stp

/-- The walk of R82 from a table at a level; `fuel` is the levels left. -/
def State.walkFrom (s : State) (va : Nat) (write : Bool) : Nat → Nat → Nat → XRes
  | 0, level, _ => .fault { cause := 2, level, va }
  | fuel + 1, level, table =>
    let a := table + walkIndex level va * 8
    let e := s.devRead a 8
    if s.isPoisoned a then .fault { cause := 5, level, entry := e, va }
    else if !bitOf e 0 then .fault { cause := 2, level, entry := e, va }
    else if level < 3 && bitOf e 1 then
      let t := bitsOf e 16 48 * 2 ^ 8
      let t := t - t % 2 ^ tableBits (level + 1)
      if s.plainBacked t then s.walkFrom va write fuel (level + 1) t
      else .fault { cause := 2, level, entry := e, va, unbacked := true }
    else if level = 0 || bitOf e 1 then .fault { cause := 2, level, entry := e, va }
    else
      let b := pageBits level
      let p := bitsOf e 16 48 * 2 ^ 8
      s.leafCheck va (p - p % 2 ^ b + va % 2 ^ b) level e (bitOf e 2) (bitOf e 3) (bitOf e 4) (bitOf e 5) write

/-- CTX_PT_ROOT of context `n` (R79). -/
def State.ptRoot (s : State) (n : Nat) : Nat := s.reg64 (0x480 + 8 * n)

/-- The walk of R82. -/
def State.walk (s : State) (n va : Nat) (write : Bool) : XRes :=
  let r := s.ptRoot n
  if !bitOf r 0 || va ≥ 2 ^ 52 then .fault { cause := 2, level := 0, va }
  else
    let table := bitsOf r 14 42 * 2 ^ 14
    if s.plainBacked table then s.walkFrom va write 4 0 table
    else .fault { cause := 2, level := 0, va, unbacked := true }

/-- The leaf a successful walk found, as the translation cache keeps it (R84). -/
def State.leafOf (s : State) (va : Nat) : Nat → Nat → Nat → Option Xlat
  | 0, _, _ => none
  | fuel + 1, level, table =>
    let e := s.devRead (table + walkIndex level va * 8) 8
    if level < 3 && bitOf e 1 then
      let t := bitsOf e 16 48 * 2 ^ 8
      s.leafOf va fuel (level + 1) (t - t % 2 ^ tableBits (level + 1))
    else
      let b := pageBits level
      let p := bitsOf e 16 48 * 2 ^ 8
      some { pa := p - p % 2 ^ b + (va - va % 2 ^ 16) % 2 ^ b, r := bitOf e 2, w := bitOf e 3, np := bitOf e 4,
             stp := bitOf e 5, level, entry := BitVec.ofNat 64 e }

/-- Translates an access: the walk, or a cached translation of the page where one is held (R82, R84). Whether the address
is backed is checked on every access (R73). -/
def State.translate (s : State) (n va : Nat) (write : Bool) : XRes :=
  let w := s.walk n va write
  let t := Store.get {} (s.ctx n).tlb (va / 2 ^ 16)
  if t = {} then w
  else
    let c := s.leafCheck va (t.pa + va % 2 ^ 16) t.level t.entry.toNat t.r t.w t.np t.stp write
    if c = w then w else if Config.useCached n (va / 2 ^ 16) s.now then c else w

/-- Keeps the translation of a page after a walk that succeeded (R84; a failed translation is never cached, R94). -/
def State.keepXlat (s : State) (n va : Nat) : State :=
  match s.walk n va false, s.walk n va true with
  | .fault _, .fault _ => s
  | _, _ =>
    let x := s.ctx n
    if Store.get {} x.tlb (va / 2 ^ 16) = {} then
      match s.leafOf va 4 0 (bitsOf (s.ptRoot n) 14 42 * 2 ^ 14) with
      | none => s
      | some t => s.setCtx n { x with tlb := Store.set {} x.tlb (va / 2 ^ 16) t }
    else s

/-- The pieces of a virtual range, cut at a page boundary (R82); `n` is at most 64 KiB. -/
def pagePieces (va n : Nat) : List (Nat × Nat) :=
  let room := 2 ^ 16 - va % 2 ^ 16
  if n ≤ room then [(va % 2 ^ 64, n)] else [(va % 2 ^ 64, room), ((va + room) % 2 ^ 64, n - room)]

/-- Translates every piece; the first fault wins. Answers (virtual, physical, length) for each piece. -/
def State.xlatePieces (s : State) (n : Nat) (write : Bool) : List (Nat × Nat) → Except AccFault (List (Nat × Nat × Nat))
  | [] => .ok []
  | (va, len) :: rest =>
    match s.translate n va write with
    | .fault f => .error f
    | .ok pa _ _ =>
      match s.xlatePieces n write rest with
      | .error f => .error f
      | .ok l => .ok ((va, pa, len) :: l)

/-- Keeps the translations of the pages of a list of pieces. -/
def State.keepPieces (s : State) (n : Nat) : List (Nat × Nat) → State
  | [] => s
  | (va, _) :: rest => (s.keepXlat n va).keepPieces n rest

/-- Translates a virtual range whole before anything is done (R82, R85). -/
def State.xlateRange (s : State) (n va len : Nat) (write : Bool) : Except AccFault (List (Nat × Nat × Nat)) :=
  s.xlatePieces n write (pagePieces va len)

end Sys2Proof.Machine
end

