-- ==== Sys2Proof/Machine/CmdOps.lean ====
section
/-! DEFINITION. Operations on commands and on the end of a core's work: settling a command, recording a fault, breaking a
stitch group (R104, R169 to R172, R220, R489). -/

namespace Sys2Proof.Machine

open Sys2Proof

/-! ## Commands -/

/-- The command of context `n` with a tag. -/
def State.cmd? (s : State) (n tag : Nat) : Option Cmd := (s.ctx n).cmds.find? (fun c => c.tag == tag)

/-- Replaces the command with the tag of `c`. -/
def State.setCmd (s : State) (n : Nat) (c : Cmd) : State :=
  let x := s.ctx n
  s.setCtx n { x with cmds := x.cmds.map (fun d => if d.tag == c.tag then c else d) }

/-- Applies `f` to the command with a tag, if there is one. -/
def State.updCmd (s : State) (n tag : Nat) (f : Cmd → Cmd) : State :=
  match s.cmd? n tag with
  | none => s
  | some c => s.setCmd n (f c)

/-- Word `i` of a descriptor as a number. -/
def Cmd.word (c : Cmd) (i : Nat) : Nat := (c.desc.getD i 0).toNat
/-- OP (R485). -/
def Cmd.op (c : Cmd) : Nat := bitsOf (c.word 0) 0 8
/-- FENCE (R485). -/
def Cmd.fence (c : Cmd) : Bool := bitOf (c.word 0) 8
/-- IRQ (R485). -/
def Cmd.irq (c : Cmd) : Bool := bitOf (c.word 0) 9
/-- GATE_NF (R485). -/
def Cmd.gateNf (c : Cmd) : Bool := bitOf (c.word 0) 10
/-- GATE_SQ (R485). -/
def Cmd.gateSq (c : Cmd) : Bool := bitOf (c.word 0) 11
/-- PREWAIT handle (R485). -/
def Cmd.prewait (c : Cmd) : Nat := bitsOf (c.word 1) 0 39
/-- PW_MODE (R485). -/
def Cmd.pwMode (c : Cmd) : Nat := bitsOf (c.word 1) 39 2
/-- PW_THR (R485). -/
def Cmd.pwThr (c : Cmd) : Nat := bitsOf (c.word 2) 0 32
/-- GATE_STEP, or STRIDE of GATHER and SCATTER (R485). -/
def Cmd.gateStep (c : Cmd) : Nat := bitsOf (c.word 2) 32 32
/-- SIGNAL handle (R485). -/
def Cmd.signal (c : Cmd) : Nat := bitsOf (c.word 3) 0 39
/-- Body word B`i` (R486). -/
def Cmd.body (c : Cmd) (i : Nat) : Nat := c.word (4 + i)

/-- The outcome of a command is settled: status, cause and position (R493). -/
def Cmd.settle (c : Cmd) (status cause position : Nat) : Cmd :=
  { c with phase := .settled, status, cause, position }

/-- Settles the command with a tag. -/
def State.settleCmd (s : State) (n tag status cause position : Nat) : State :=
  s.updCmd n tag (fun c => c.settle status cause position)

/-- Writes an event record for a command and remembers its first event count (R493); nothing once the context's reset has
begun (R502). -/
def State.cmdEvent (s : State) (n tag : Nat) (rec : List Byte) : State :=
  if s.ctxState n = 3 then s else
  let (s1, k) := s.event n rec
  s1.updCmd n tag (fun c => if c.evt = 0xFFFFFFFF then { c with evt := k } else c)

/-- Writes the fault record of an engine or of Town Hall acting for a command (R86, R603). -/
def State.cmdFaultRec (s : State) (n tag cls id : Nat) (f : AccFault) (write : Bool) : State :=
  s.cmdEvent n tag (faultRecord f cls id n tag write false s.time32)

/-- A command ends FAULT after an access that faults (R73, R603). -/
def State.cmdFault (s : State) (n tag cls id : Nat) (f : AccFault) (write : Bool) (position : Nat) : State :=
  (s.cmdFaultRec n tag cls id f write).settleCmd n tag 4 f.cause position

/-! ## Stitch placements (R161) -/

/-- Rows and columns of a stitch code. -/
def stitchShape : Nat → Nat × Nat
  | 1 => (1, 2) | 2 => (2, 1) | 3 => (2, 2) | 4 => (2, 4) | 5 => (4, 2) | 6 => (4, 4) | _ => (1, 1)

/-- The lead of the placement of a stitch code that contains core `c` (R161). -/
def stitchLead (code c : Nat) : Nat :=
  let (h, w) := stitchShape code
  c - c % 16 + 4 * (coreRow c - coreRow c % h) + (coreCol c - coreCol c % w)

/-- The members of the placement of a stitch code that contains core `c`, in row order (R161). -/
def stitchMembers (code c : Nat) : List Nat :=
  let (h, w) := stitchShape code
  let l := stitchLead code c
  (List.range (h * w)).map (fun i => l + 4 * (i / w) + i % w)

/-- Whether a placement contains a disabled core (R6). -/
def State.stitchBad (s : State) (code c : Nat) : Bool := (stitchMembers code c).any s.coreDisabled

/-- The stitch code of a queued word: an MMA's STITCH field, 0 for any other word (R162, R182). -/
def QEntry.stitch (e : QEntry) : Nat := if bitsOf e.word.toNat 56 8 = 0x50 then bitsOf e.word.toNat 0 3 else 0

/-- A group instruction that has been dispatched and has not completed (R169). -/
def QEntry.inGroup (e : QEntry) (code : Nat) : Bool := e.stitch == code && code != 0 && (e.st == .arrived || e.st == .started)

/-- The dispatched group instruction of a stitch code in a core's queue, oldest first. -/
def Core.groupEntry? (k : Core) (code : Nat) : Option QEntry := k.queue.find? (fun e => e.inGroup code)

/-- The stitch codes of the groups core `c` is in: its own dispatched group instructions, and those of a core of its
placement that waits for it (R169). -/
def State.groupsOf (s : State) (c : Nat) : List Nat :=
  [1, 2, 3, 4, 5, 6].filter (fun code => (stitchMembers code c).any (fun m => ((s.core m).groupEntry? code).isSome))

/-! ## The end of a core's work -/

/-- How the work of a core ends. -/
inductive WorkEnd where
  | ended
  | fault (cause : Nat)
  | timeout
  /-- by an abort or a context reset: not counted as ended (R496, R499) -/
  | aborted
  deriving DecidableEq, Repr

/-- The core without work: tile registers released, queue and streams empty, run-ahead data discarded (R113, R218). -/
def Core.clearWork (k : Core) : Core :=
  { k with
    run := .idle, halted := false, haltedBy := 0, stop := false, stopping := false, killed := false, savedT := [], savedLive := 0, live := 0, dirty := k.dirty ||| k.live, t := [], queue := [], streams := [], fills := [], wait := {}, replay := [],
    remote := [], aheadWait := [], rowRetries := 0, bobbins := [], lines := k.lines.filter (fun l => l.owner == 8) }

/-- A core that starts a work: registers and statistics at their start values (R100, R205, R243, R248). -/
def Core.start (k : Core) (c : Nat) (w : Work) (now : Nat) : Core :=
  { k with
    run := .running, halted := false, ctx := w.ctx, tag := w.tag, pc := w.pc % 0x100000,
    s := Store.setAll 0 [] 1 w.args, p := [], v := [], t := [], live := 0, acc := [], tagCtr := [], streams := [],
    lines := [], fills := [], queue := [], dcfg := {},
    gens := Store.setAll 0 [] 0 ((List.range 64).map (fun j => seedState w.seed (c * 64 + j))),
    stats := {}, wait := {}, replay := [], remote := [], aheadWait := [], rowRetries := 0, bobbins := [], lastDone := now }

/-- Starts the next work handed to an idle core, if any, unless its context is pre-empted (R489, R501). -/
def State.startNext (s : State) (c : Nat) : State :=
  let k := s.core c
  match k.run, k.works with
  | .idle, w :: ws => if s.ctxPreempt w.ctx then s else s.setCore c (({ k with works := ws }).start c w s.now)
  | _, _ => s

/-- The outcome of a compute command none of whose cores works any more (R489, R499). -/
def Cmd.computeDone (cmd : Cmd) (j : ComputeJob) : Cmd :=
  if cmd.phase = .running ∧ j.gone = j.named then
    if cmd.aborted then cmd.settle 1 0 ((List.range 576).countP (bitOf j.ended))
    else cmd.settle (if j.fault ≠ 0 then 4 else if j.timeout then 6 else 0) j.fault 0
  else cmd

/-- A compute command after one of its cores ended its work (R489, R496). -/
def Cmd.coreEnded (cmd : Cmd) (c : Nat) (stats : ConvStats) (how : WorkEnd) : Cmd :=
  match cmd.job with
  | .compute j =>
    let counted := match how with | .aborted => false | _ => true
    let j1 := { j with
      ended := if counted && !bitOf j.ended c then j.ended + 2 ^ c else j.ended
      gone := if bitOf j.gone c then j.gone else j.gone + 2 ^ c
      fault := match how with | .fault n => if j.fault = 0 then n else j.fault | _ => j.fault
      timeout := match how with | .timeout => true | _ => j.timeout
      stats := Store.set {} j.stats c stats }
    ({ cmd with job := .compute j1 }).computeDone j1
  | _ => cmd

/-- The bit of DBG_CTRL that shows whether CORE is debug-halted (R131). -/
def State.showHalted (s : State) : State :=
  let k := s.core (s.fld 0x390 0 10)
  s.setFlag 0x390 20 (k.halted && k.run == .stopped)

/-- Ends the work of core `c` and starts the next one handed to it; a debug halt of the core is cleared (R131). -/
def State.endWork (s : State) (c : Nat) (how : WorkEnd) : State :=
  let k := s.core c
  let s1 := ((s.setCore c k.clearWork).updCmd k.ctx k.tag (fun cmd => cmd.coreEnded c k.stats how)).startNext c
  if k.halted then s1.showHalted else s1

/-- A list without repeats. -/
def nub (xs : List Nat) : List Nat := xs.foldr (fun x acc => if acc.contains x then acc else x :: acc) []

/-- The break of one placement (R169, R172): its stitch code and lead, the reason, and the member X and its cause. -/
structure Break where
  code : Nat
  lead : Nat
  reason : Nat
  origin : Nat
  cause : Nat
  deriving DecidableEq, Repr

/-- The members that had dispatched the group instruction of a placement (R172). -/
def State.arrivedIn (s : State) (code lead : Nat) : List Nat :=
  (stitchMembers code lead).filter (fun m => ((s.core m).groupEntry? code).isSome)

/-- The members besides X that see a break: those that had arrived for a MISMATCH (R170), else every member that has work (R169). -/
def State.breakSees (s : State) (b : Break) : List Nat :=
  (if b.reason = 2 then s.arrivedIn b.code b.lead else (stitchMembers b.code b.lead).filter (fun m => (s.core m).run != .idle)).filter
    (· != b.origin)

/-- The breaks that follow from those listed: a member that ends STITCH_BROKEN breaks its other groups in turn, each once (R169);
`fuel` bounds the search. -/
def State.breakPlan (s : State) : Nat → List Break → List Break → List Break
  | 0, _, found => found
  | _ + 1, [], found => found
  | fuel + 1, b :: todo, found =>
    if found.any (fun d => d.code == b.code && d.lead == b.lead) then s.breakPlan fuel todo found
    else
      let more := (s.breakSees b).flatMap (fun m => ((s.groupsOf m).filter (fun d => d != b.code)).map (fun d =>
        (⟨d, stitchLead d m, 1, m, 6⟩ : Break)))
      s.breakPlan fuel (todo ++ more) (found ++ [b])

/-- The core whose context a break record names: the lead if it had arrived, else the first member that had. -/
def State.breakCtx (s : State) (b : Break) : Nat :=
  let arrived := s.arrivedIn b.code b.lead
  (s.core (if arrived.contains b.lead then b.lead else arrived.headD b.lead)).ctx

/-- The command tag of the lead, 0 when it has no work. -/
def State.leadTag (s : State) (b : Break) : Nat := let k := s.core b.lead; if k.run = .idle then 0 else k.tag

/-- The stitch break record of a placement (R172). -/
def State.breakRecord (s : State) (b : Break) : List Byte :=
  natLE 4 (6 + b.reason * 2 ^ 8) ++ natLE 4 (b.lead + s.breakCtx b * 2 ^ 16 + b.code * 2 ^ 24) ++
    natLE 4 (b.origin + b.cause * 2 ^ 16) ++
    natLE 4 (((stitchMembers b.code b.lead).map (fun m => 2 ^ (m % 16))).sum +
      ((s.arrivedIn b.code b.lead).map (fun m => 2 ^ (m % 16 + 16))).sum) ++
    natLE 8 (match (s.core b.lead).groupEntry? b.code with | some e => e.word.toNat | none => 0) ++
    natLE 4 (s.leadTag b) ++ natLE 4 s.time32

/-- Ends the work of each core listed with STITCH_BROKEN (R171); one whose work is ending by an abort reports nothing (R220). -/
def State.breakCores (s : State) : List Nat → State
  | [] => s
  | m :: ms => (s.endWork m (let k := s.core m; if k.killed && k.stopping then .aborted else .fault 6)).breakCores ms

/-- Carries out breaks planned at `s0`: each lead's record, then the end of every other member's work (R171, R172). -/
def State.runBreaks (s0 s : State) (bs : List Break) (but : Nat) : State :=
  (bs.foldl (fun (t : State) b => t.cmdEvent (s0.breakCtx b) (s0.leadTag b) (s0.breakRecord b)) s).breakCores
    ((nub (bs.flatMap s0.breakSees)).filter (· != but))

/-- The breaks of the groups of core `c` listed, with a reason and the cause core `c` raised (R169). -/
def State.breaksOf (s : State) (c reason cause : Nat) (codes : List Nat) : List Break :=
  s.breakPlan 4096 (codes.map (fun code => (⟨code, stitchLead code c, reason, c, cause⟩ : Break))) []

/-- A fault ends the work of core `c`: its record is written, the command keeps the cause, and its groups break
(R104, R169, R172). A fault found while an abort ends the work is not reported (R220). -/
def State.coreFault (s : State) (c cause : Nat) (rec : List Byte) : State :=
  let k := s.core c
  if k.killed && k.stopping then s
  else State.runBreaks s ((s.cmdEvent k.ctx k.tag rec).endWork c (.fault cause)) (s.breaksOf c 1 cause (s.groupsOf c)) c

/-- A fault reported under R221: cause, pc of the instruction, INFO and its word. -/
def State.instrFault (s : State) (c cause pc info : Nat) (word : W64) : State :=
  let k := s.core c
  s.coreFault c cause (instrFaultRecord cause c k.ctx pc info word.toNat k.tag s.time32)

/-- A fault reported under R86 by a core. -/
def State.accFault (s : State) (c : Nat) (f : AccFault) (write isLocal : Bool) : State :=
  let k := s.core c
  s.coreFault c f.cause (faultRecord f 0 c k.ctx k.tag write isLocal s.time32)


end Sys2Proof.Machine
end

