-- ==== Sys2Proof/Machine/Operands.lean ====
section
/-! DEFINITION. The fields of instruction words (R181, R182) and the checks made in D on the word alone (R116, R148, R179,
R199 to R202, R207). A word is given as a number. -/

namespace Sys2Proof.Machine

open Sys2Proof

/-- The word of a core instruction: its major opcode and bits [55:0] (R178). -/
def wordOf (op : Nat) (b : Body) : Nat := op * 2 ^ 56 + b.toNat

/-- Sign extension of the low `n` bits of `x` to 64 bits. -/
def sext (n x : Nat) : W64 := if bitOf x (n - 1) then BitVec.ofNat 64 (2 ^ 64 - 2 ^ n + x % 2 ^ n) else BitVec.ofNat 64 (x % 2 ^ n)

/-- Field [55:51]: SD, VD or V. -/
def fD (w : Nat) : Nat := bitsOf w 51 5
/-- Field [50:46]: SA, VA or SH. -/
def fA (w : Nat) : Nat := bitsOf w 46 5
/-- Field [45:41]: SB, VB or SV. -/
def fB (w : Nat) : Nat := bitsOf w 41 5
/-- Field [40:36]: VC or ST. -/
def fC (w : Nat) : Nat := bitsOf w 36 5

/-- FN of SREG. -/
def fnSreg (w : Nat) : Nat := bitsOf w 35 6
/-- FN of SIMM. -/
def fnSimm (w : Nat) : Nat := bitsOf w 40 6
/-- IMM of SIMM, sign-extended. -/
def immSimm (w : Nat) : W64 := sext 40 (bitsOf w 0 40)
/-- IMM of SMEM and VMEM, sign-extended. -/
def immMem (w : Nat) : W64 := sext 32 (bitsOf w 0 32)

/-- COND of BRANCH. -/
def brCond (w : Nat) : Nat := bitsOf w 52 4
/-- SA of BRANCH. -/
def brA (w : Nat) : Nat := bitsOf w 47 5
/-- SB of BRANCH. -/
def brB (w : Nat) : Nat := bitsOf w 42 5
/-- PA of BRANCH. -/
def brP (w : Nat) : Nat := bitsOf w 39 3
/-- SD of BRANCH. -/
def brD (w : Nat) : Nat := bitsOf w 34 5
/-- OFF of BRANCH in bytes, sign-extended. -/
def brOff (w : Nat) : W64 := sext 20 (bitsOf w 0 20) * 8

/-- SIZE of SMEM in bytes. -/
def smSize (w : Nat) : Nat := 2 ^ bitsOf w 44 2
/-- SX of SMEM. -/
def smSx (w : Nat) : Bool := bitOf w 43

/-- PG of VREG. -/
def vrPg (w : Nat) : Nat := bitsOf w 33 3
/-- FN of VREG. -/
def vrFn (w : Nat) : Nat := bitsOf w 27 6
/-- BS of VREG. -/
def vrBs (w : Nat) : Bool := bitOf w 26
/-- PG of VMEM. -/
def vmPg (w : Nat) : Nat := bitsOf w 43 3
/-- STREAM of VMEM. -/
def vmStream (w : Nat) : Nat := bitsOf w 40 3

/-- T of VROW. -/
def vwT (w : Nat) : Nat := bitsOf w 47 4
/-- ROW of VROW. -/
def vwRow (w : Nat) : Nat := bitsOf w 41 6
/-- QTR of VROW. -/
def vwQtr (w : Nat) : Nat := bitsOf w 39 2
/-- FMT of VROW. -/
def vwFmt (w : Nat) : Nat := bitsOf w 35 4
/-- PG of VROW. -/
def vwPg (w : Nat) : Nat := bitsOf w 32 3

/-- T of TMEM. -/
def tmT (w : Nat) : Nat := bitsOf w 52 4
/-- SA of TMEM. -/
def tmA (w : Nat) : Nat := bitsOf w 47 5
/-- SB of TMEM. -/
def tmB (w : Nat) : Nat := bitsOf w 42 5
/-- TR of TMEM. -/
def tmTr (w : Nat) : Bool := bitOf w 41
/-- STREAM of TMEM. -/
def tmStream (w : Nat) : Nat := bitsOf w 38 3

/-- BANK of TARR and TDRN. -/
def taBank (w : Nat) : Nat := bitsOf w 55 1
/-- CLR of TARR. -/
def taClr (w : Nat) : Bool := bitOf w 54
/-- SCL of TARR. -/
def taScl (w : Nat) : Bool := bitOf w 53
/-- TA of TARR. -/
def taA (w : Nat) : Nat := bitsOf w 49 4
/-- TB of TARR. -/
def taB (w : Nat) : Nat := bitsOf w 45 4
/-- TSA of TARR. -/
def taSa (w : Nat) : Nat := bitsOf w 41 4
/-- TSB of TARR. -/
def taSb (w : Nat) : Nat := bitsOf w 37 4

/-- DEST of TDRN. -/
def tdDest (w : Nat) : Bool := bitOf w 54
/-- MERGE of TDRN. -/
def tdMerge (w : Nat) : Bool := bitOf w 53
/-- TD of TDRN. -/
def tdT (w : Nat) : Nat := bitsOf w 49 4
/-- TSEL of TDRN. -/
def tdSel (w : Nat) : Nat := bitsOf w 45 4
/-- TSO of TDRN. -/
def tdSo (w : Nat) : Nat := bitsOf w 41 4
/-- SA of TDRN. -/
def tdA (w : Nat) : Nat := bitsOf w 36 5
/-- SM of TDRN. -/
def tdM (w : Nat) : Nat := bitsOf w 31 5
/-- SC of TDRN. -/
def tdC (w : Nat) : Nat := bitsOf w 26 5

/-- The configuration a DCFG word sets (R205). -/
def tcCfg (w : Nat) : DrainCfg :=
  { func := bitsOf w 50 6, side := bitsOf w 46 4, bias := bitOf w 45, vb := bitsOf w 40 5,
    stochastic := bitsOf w 38 2 == 1, nfmode := bitOf w 37, outMx := bitOf w 36 }

/-- STREAM of STRM. -/
def stN (w : Nat) : Nat := bitsOf w 53 3
/-- ALL of STRM. -/
def stAll (w : Nat) : Bool := bitOf w 52
/-- OFFSET of STRM. -/
def stOff (w : Nat) : Nat := bitsOf w 0 20
/-- MODE of SYNC. -/
def syMode (w : Nat) : Nat := bitsOf w 34 2
/-- H of CTRL. -/
def ctH (w : Nat) : Bool := bitOf w 54
/-- N of CTRL. -/
def ctN (w : Nat) : Bool := bitOf w 53
/-- MASK of CTRL. -/
def ctMask (w : Nat) : Nat := bitsOf w 0 16

/-! ## Shape (R115, R116, R182) -/

/-- Rows of the shape field. -/
def shRows (w : Nat) : Nat := bitsOf w 20 6 + 1
/-- Columns of the shape field. -/
def shCols (w : Nat) : Nat := bitsOf w 12 8 + 1
/-- FMT_A of the shape field. -/
def shA (w : Nat) : Nat := bitsOf w 8 4
/-- FMT_B of the shape field. -/
def shB (w : Nat) : Nat := bitsOf w 4 4
/-- LAYOUT of the shape field: true for blocked. -/
def shBlocked (w : Nat) : Bool := bitOf w 3
/-- STITCH of the shape field. -/
def shStitch (w : Nat) : Nat := bitsOf w 0 3

/-- Bits per element of a format code; 0 for a reserved code. -/
def fmtBits (c : Nat) : Nat := match ElemFmt.ofCode c with | some f => f.bits | none => 0

/-- Row bytes of a shape in a format (R116). -/
def rowBytes (w fmt : Nat) : Nat := shCols w * fmtBits fmt / 8

/-- The conditions of R116 on columns, for one format: more than one row of bits, or not whole bytes. -/
def colsBad (w fmt : Nat) : Bool := decide (1024 < shCols w * fmtBits fmt) || decide (shCols w * fmtBits fmt % 8 ≠ 0)

/-- A reserved format code (R116). -/
def fmtBad (c : Nat) : Bool := decide (12 ≤ c)

/-- SHAPE_FAULT in D of a tile load or store, TLDS included (R116, R148, R199 to R202). -/
def tmemShapeBad (tlds : Bool) (w : Nat) : Bool :=
  fmtBad (shA w) || colsBad w (shA w) || (shBlocked w && shRows w != 64) || shStitch w != 0 ||
    (tlds && (shBlocked w || tmTr w || fmtBad (shB w))) ||
    (!tlds && shBlocked w && rowBytes w (shA w) % 16 != 0) ||
    (!tlds && tmTr w && (!shBlocked w || shCols w != 64))

/-- The class of a format in the array (R144): 1, 2 (2F), 3 (2I), 4 (4F of FP4), 5 (4F of FB4), 6 (4I); 0 for none. -/
def arrayClass : Nat → Nat
  | 1 => 1 | 2 => 1 | 3 => 2 | 4 => 2 | 5 => 2 | 6 => 2 | 8 => 3 | 10 => 3 | 7 => 4 | 11 => 5 | 9 => 6 | _ => 0

/-- Elements per step of a class (R144). -/
def classStep : Nat → Nat
  | 1 => 1 | 2 => 2 | 3 => 2 | _ => 4

/-- Whether an element format may be block-scaled with MX (R146). -/
def mxFormat (c : Nat) : Bool := c == 3 || c == 4 || c == 5 || c == 6 || c == 7 || c == 8

/-- How a block-scaled operation reads the scales of a format: FB4 or MX (R146). -/
def scaleKindOf (fmt : Nat) : ScaleKind := if fmt = 11 then .fb4 else .mx

/-- SHAPE_FAULT in D of an MMA (R116, R148, R203). -/
def mmaShapeBad (w : Nat) : Bool :=
  fmtBad (shA w) || fmtBad (shB w) || colsBad w (shA w) || colsBad w (shB w) || shBlocked w || shStitch w == 7 ||
    arrayClass (shA w) == 0 || arrayClass (shA w) != arrayClass (shB w) ||
    (taScl w && (!(mxFormat (shA w) || shA w == 11) || !(mxFormat (shB w) || shB w == 11) ||
      shCols w % (scaleKindOf (shA w)).block != 0)) ||
    (!taScl w && shA w == 11)

/-- SHAPE_FAULT in D of a drain (R116, R148, R207). -/
def drainShapeBad (w : Nat) : Bool :=
  fmtBad (shA w) || shA w == 10 || colsBad w (shA w) || decide (64 < shCols w) || (shB w != 0 && shB w != 8) ||
    (tdMerge w && shB w == 8) || (shBlocked w && (!tdDest w || shRows w != 64 || rowBytes w (shA w) % 16 != 0)) ||
    shStitch w != 0

/-- A reserved FUNC or ROUND of DCFG (R179, R205, R206). -/
def dcfgIllegal (w : Nat) : Bool :=
  let f := bitsOf w 50 6
  decide (6 ≤ f ∧ f < 0x20) || decide (0x27 ≤ f) || decide (2 ≤ bitsOf w 38 2)

/-- Element capacity of a 128-byte row (R115). -/
def rowCapacity (fmt : Nat) : Nat := match fmtBits fmt with | 32 => 32 | 16 => 64 | 8 => 128 | 6 => 168 | 4 => 256 | _ => 0

/-- SHAPE_FAULT in D of a row move (R197). -/
def vrowShapeBad (w : Nat) : Bool := fmtBad (vwFmt w) || decide (rowCapacity (vwFmt w) ≤ 64 * vwQtr w)

/-- Tile registers of a bank mask list: the registers a MASK names. -/
def maskRegs (m : Nat) : List Nat := (List.range 16).filter (fun i => bitOf m i)

end Sys2Proof.Machine
end

