-- ==== Sys2Proof/Machine/Flags.lean ====
section
/-! DEFINITION. Results and conditions computed from values: scalar functions, branch conditions, lane functions, compares,
reductions and predicate logic (R184 to R195). -/

namespace Sys2Proof.Machine

open Sys2Proof

/-- Signed less-than of 64-bit values. -/
def slt64 (a b : W64) : Bool := BitVec.slt a b

/-- The scalar functions of R184 and R185 by FN; none for a reserved FN. -/
def aluFn (fn : Nat) (a b : W64) : Option W64 :=
  match fn with
  | 0x00 => some (a + b)
  | 0x01 => some (a - b)
  | 0x02 => some (a &&& b)
  | 0x03 => some (a ||| b)
  | 0x04 => some (a ^^^ b)
  | 0x05 => some (a <<< (b.toNat % 64))
  | 0x06 => some (a >>> (b.toNat % 64))
  | 0x07 => some (BitVec.sshiftRight a (b.toNat % 64))
  | 0x08 => some (if slt64 a b then 1 else 0)
  | 0x09 => some (if a.toNat < b.toNat then 1 else 0)
  | 0x0A => some (if slt64 b a then b else a)
  | 0x0B => some (if slt64 a b then b else a)
  | 0x0C => some (if b.toNat < a.toNat then b else a)
  | 0x0D => some (if a.toNat < b.toNat then b else a)
  | 0x10 => some (a * b)
  | 0x11 => some (BitVec.ofInt 64 (a.toInt * b.toInt / 2 ^ 64))
  | 0x12 => some (BitVec.ofNat 64 (a.toNat * b.toNat / 2 ^ 64))
  | 0x18 => some (if b = 0 then BitVec.allOnes 64 else BitVec.ofInt 64 (a.toInt.tdiv b.toInt))
  | 0x19 => some (if b = 0 then BitVec.allOnes 64 else BitVec.ofNat 64 (a.toNat / b.toNat))
  | 0x1A => some (if b = 0 then a else BitVec.ofInt 64 (a.toInt.tmod b.toInt))
  | 0x1B => some (if b = 0 then a else BitVec.ofNat 64 (a.toNat % b.toNat))
  | _ => none

/-- The FN values ALUI accepts (R184). -/
def aluiOk (fn : Nat) : Bool :=
  fn == 0x00 || decide (2 ≤ fn ∧ fn ≤ 0x0D) || fn == 0x10

/-- BR conditions (R190); none for a reserved code. -/
def brHolds (cond : Nat) (a b : W64) : Option Bool :=
  match cond with
  | 0 => some (a == b)
  | 1 => some (a != b)
  | 2 => some (slt64 a b)
  | 3 => some (!slt64 a b)
  | 4 => some (decide (a.toNat < b.toNat))
  | 5 => some (decide (b.toNat ≤ a.toNat))
  | _ => none

/-- BRP conditions (R190); none for a reserved code. -/
def brpHolds (cond : Nat) (p : W64) : Option Bool :=
  match cond with
  | 0 => some (p != 0)
  | 1 => some (p == BitVec.allOnes 64)
  | 2 => some (p == 0)
  | 3 => some (p != BitVec.allOnes 64)
  | _ => none

/-- The lane functions of R192 by FN; `sel` is the lane's bit of VC's predicate and `i` the lane. None for a reserved FN. -/
def laneFn (fn : Nat) (a b c : W32) (sel : Bool) (i : Nat) : Option W32 :=
  match fn with
  | 0x00 => some (f32add a b)
  | 0x01 => some (f32sub a b)
  | 0x02 => some (f32mul a b)
  | 0x03 => some (f32fma a b c)
  | 0x04 => some (f32min a b)
  | 0x05 => some (f32max a b)
  | 0x06 => some (a &&& 0x7FFFFFFF)
  | 0x07 => some (a ^^^ 0x80000000)
  | 0x08 => some (f32rcp a)
  | 0x09 => some (f32rsq a)
  | 0x0A => some (f32exp2 a)
  | 0x0B => some (f32log2 a)
  | 0x0C => some (f32ofInt a.toInt)
  | 0x0D => some (f32toI32 a)
  | 0x10 => some (a &&& b)
  | 0x11 => some (a ||| b)
  | 0x12 => some (a ^^^ b)
  | 0x13 => some (if sel then a else b)
  | 0x14 => some a
  | 0x15 => some (a + b)
  | 0x16 => some (a - b)
  | 0x17 => some (a * b)
  | 0x18 => some (a <<< (b.toNat % 32))
  | 0x19 => some (a >>> (b.toNat % 32))
  | 0x1E => some (BitVec.ofNat 32 i)
  | _ => none

/-- The compares of R193 by FN; none for a reserved FN. -/
def cmpFn (fn : Nat) (a b : W32) : Option Bool :=
  let x := f32v a
  let y := f32v b
  match fn with
  | 0 => some (Fv.eq x y)
  | 1 => some (!Fv.eq x y)
  | 2 => some (Fv.lt x y)
  | 3 => some (Fv.lt x y || Fv.eq x y)
  | 4 => some (Fv.lt y x)
  | 5 => some (Fv.lt y x || Fv.eq x y)
  | 8 => some (a == b)
  | 9 => some (BitVec.slt a b)
  | _ => none

/-- Sums of neighbouring pairs of a list: one level of the fixed tree of R194. -/
def treeLevel (f : W32 → W32 → W32) : List W32 → List W32
  | a :: b :: xs => f a b :: treeLevel f xs
  | xs => xs

/-- The fixed tree of R194 over 64 values: six levels of pairs. -/
def tree64 (f : W32 → W32 → W32) (xs : List W32) : W32 :=
  (treeLevel f (treeLevel f (treeLevel f (treeLevel f (treeLevel f (treeLevel f xs)))))).headD 0

/-- VRED: the operation and the value of an excluded lane (R194); none for a reserved FN. -/
def redFn : Nat → Option ((W32 → W32 → W32) × W32)
  | 0 => some (f32add, 0)
  | 1 => some (f32max, 0xFF800000)
  | 2 => some (f32min, 0x7F800000)
  | 3 => some ((· + ·), 0)
  | _ => none

/-- Predicate logic of PLOG FN 0 to 4 (R195). -/
def plogFn (fn : Nat) (a b : W64) : W64 :=
  match fn with
  | 0 => a &&& b
  | 1 => a ||| b
  | 2 => a ^^^ b
  | 3 => a &&& ~~~b
  | _ => ~~~a

/-- A loaded value of `size` bytes, extended under SX (R188). -/
def extend (size : Nat) (sx : Bool) (v : Nat) : W64 :=
  if sx && size != 8 then sext (8 * size) v else BitVec.ofNat 64 (v % 2 ^ (8 * size))

end Sys2Proof.Machine
end

