-- ==== Sys2Proof/Machine/FabricOps.lean ====
section
/-! DEFINITION. Shared operations of the fabric engines: routing, originating frames, transactions and fabric event
records (R402 to R410, R436). -/

namespace Sys2Proof.Machine

open Sys2Proof

/-- Port `p`. -/
def State.port (s : State) (p : Nat) : Port := Store.get {} s.fab.ports p
/-- Replaces port `p`. -/
def State.setPort (s : State) (p : Nat) (x : Port) : State :=
  { s with fab := { s.fab with ports := Store.set {} s.fab.ports p x } }

/-- PORT_CTRL of port `p` (R386). -/
def portCtrl (p : Nat) : Nat := 0x640 + 4 * p
/-- Number of ports of the lane mode (R379). -/
def State.portCount (s : State) : Nat := if s.flag 0x600 14 then 24 else 12
/-- PEER_NODE of a port. -/
def State.peerNode (s : State) (p : Nat) : Nat := s.fld (portCtrl p) 12 14
/-- Whether a port is up. -/
def State.portUp (s : State) (p : Nat) : Bool := decide (p < s.portCount) && (s.port p).phase == .up
/-- A port that faces a leaf endpoint (R386, R407). -/
def State.portLeaf (s : State) (p : Nat) : Bool := s.flag (portCtrl p) 3 || s.flag (portCtrl p) 26
/-- The ports that are up. -/
def State.upPorts (s : State) : List Nat := (List.range 24).filter s.portUp

/-- Whether node `n` is marked failed (R434). -/
def State.nodeFailed (s : State) (n : Nat) : Bool := Store.get false s.fab.failed n

/-- Whether a route may use a port for a frame to `dst`: up, and no leaf on the way to another node (R402, R407). -/
def State.portUsable (s : State) (p dst : Nat) : Bool :=
  s.portUp p && (!s.portLeaf p || s.peerNode p == dst)

/-- The route of a frame: its port and whether it enters class 1, none when no port is usable (R402, R403); this device's own entry is
ignored (R387). VC3 alternates between the two ports of the entry, by the count of the VC3 frames sent on it. -/
def State.route (s : State) (vc src dst : Nat) : Option (Nat × Bool) :=
  let e := (Store.get 0 s.fab.route dst).toNat
  let a := bitsOf e 0 5
  let b := bitsOf e 6 5
  let ua := bitOf e 5 && s.portUsable a dst
  let ub := bitOf e 11 && s.portUsable b dst
  let first := if vc = 3 then Store.get 0 s.fab.vc3Count dst % 2 == 0 else (src + dst) % 2 == 0
  if dst = s.node then none
  else if ua && ub then some (if first then a else b, bitOf e 12)
  else if ua then some (a, bitOf e 12) else if ub then some (b, bitOf e 12) else none

/-- Puts a frame in the queue of its route's port; none when no port is usable (R402). -/
def State.sendFrame (s : State) (f : Frame) : Option State :=
  match s.route f.vc f.src f.dst with
  | none => none
  | some (p, dateline) =>
    let x := s.port p
    let f1 := { f with cls := if dateline then 1 else f.cls }
    let s1 := s.setPort p { x with queue := x.queue ++ [(s.now, f1)] }
    some (if f.vc = 3 then { s1 with fab := { s1.fab with vc3Count := Store.set 0 s1.fab.vc3Count f.dst (Store.get 0 s1.fab.vc3Count f.dst + 1) } } else s1)

/-- Sends a frame for which nothing waits; a frame with no usable port is discarded and counted (R402). -/
def State.sendLoose (s : State) (f : Frame) : State :=
  match s.sendFrame f with
  | some s1 => s1
  | none => { s with fab := { s.fab with discarded := s.fab.discarded + 1 } }

/-- The first XID index at or above `i` that is free: not active, and not held after a timeout (R406). -/
def freeXid (t : Store Txn) (now : Nat) : Nat → Nat → Nat
  | 0, i => i
  | fuel + 1, i =>
    let x := Store.get {} t i
    if x.active || decide (now < x.heldUntil) then freeXid t now fuel (i + 1) else i

/-- Opens a transaction: the state and its XID (R406, R408). -/
def State.openTxn (s : State) (owner : TxnOwner) (node opc addr len : Nat) : State × Nat :=
  let i := freeXid s.fab.txns s.now (s.fab.txns.length + 1) 0
  let g := (Store.get {} s.fab.txns i).gen
  let t : Txn := { gen := g, active := true, node, opc, addr, len, owner, sentAt := s.now }
  ({ s with fab := { s.fab with txns := Store.set {} s.fab.txns i t } }, i * 256 + g)

/-- The active transaction an XID names, if its generation matches (R406). -/
def State.txn? (s : State) (xid : Nat) : Option Txn :=
  let x := Store.get {} s.fab.txns (xid / 256)
  if x.active && x.gen == xid % 256 then some x else none

/-- Ends the transaction of an XID; `held` keeps its index unused for 100 µs (R406). -/
def State.closeTxn (s : State) (xid : Nat) (held : Bool) : State :=
  let x := Store.get {} s.fab.txns (xid / 256)
  let t : Txn := { gen := (x.gen + 1) % 256, active := false, heldUntil := if held then s.now + 100000 else 0 }
  { s with fab := { s.fab with txns := Store.set {} s.fab.txns (xid / 256) t } }

/-- The 32 bytes of a fabric event record (R436). -/
def fabricRecord (kind port node cseal xid tag time : Nat) : List Byte :=
  natLE 4 (kind + port * 2 ^ 8) ++ natLE 4 node ++ natLE 8 cseal ++ natLE 8 xid ++ natLE 4 tag ++ natLE 4 time

/-- Writes a fabric event record to every context whose page-table root is enabled (R436). -/
def State.fabricEventAll (s : State) (rec : List Byte) : State :=
  (List.range 8).foldl (fun t n => if bitOf (t.ptRoot n) 0 then (t.event n rec).1 else t) s

/-- Writes an E2E_TIMEOUT record for a command (R410, R436). -/
def State.e2eRecord (s : State) (n tag node xid : Nat) : State :=
  s.cmdEvent n tag (fabricRecord 0x83 0xFF node 0 xid tag s.time32)

/-- Whether a remote access waits for another: a signal for the accesses before it (R90). -/
def RemoteWait.follows (r : RemoteWait) (xid : Nat) : Bool := r.xids.contains xid

/-- A core's work ends by an end-to-end timeout (R410); a group it is in breaks as for a work that ends (R169). Where an abort is
ending the work already, the record is written and what waited for the transaction waits no more. -/
def State.coreTimeout (s : State) (c node xid : Nat) : State :=
  let k := s.core c
  let s1 := s.e2eRecord k.ctx k.tag node xid
  if k.killed && k.stopping then
    s1.setCore c { s1.core c with remote := (s1.core c).remote.filter (fun r => !r.follows xid) }
  else State.runBreaks s (s1.endWork c .timeout) (s.breaksOf c 3 0 (s.groupsOf c)) c

/-! ## Groups (R388, R413, R414) -/

/-- A group table entry (R413). -/
structure GroupEntry where
  p : Nat
  rank : Nat
  members : List Nat
  early : Nat
  deriving DecidableEq, Repr

/-- The entry of group `g`; none where the table breaks its rules (R388, R413). -/
def State.group? (s : State) (g : Nat) : Option GroupEntry :=
  let reg := s.reg64 0x618
  let a := bitsOf reg 12 44 * 4096 + 64 * g
  if g = 0 ∨ bitsOf reg 0 12 < g ∨ !s.plainBacked a then none
  else
    let p := s.devRead a 2
    let rank := s.devRead (a + 2) 2
    let list := s.devRead (a + 8) 8
    let members := (List.range p).map (fun i => s.devRead (list + 2 * i) 2 % 2 ^ 14)
    if p < 2 ∨ 4096 < p ∨ p ≤ rank ∨ list % 8 ≠ 0 ∨ members.getD rank 0 ≠ s.node ∨ !members.Nodup then none
    else some { p, rank, members, early := s.devRead (a + 16) 8 }

/-- The member with the lowest node number (R413). -/
def GroupEntry.root (e : GroupEntry) : Nat := e.members.foldl min (e.members.headD 0)
/-- Node of the next member. -/
def GroupEntry.next (e : GroupEntry) : Nat := e.members.getD ((e.rank + 1) % e.p) 0
/-- Node of the previous member. -/
def GroupEntry.prev (e : GroupEntry) : Nat := e.members.getD ((e.rank + e.p - 1) % e.p) 0

/-- COLL_SEQ of a group (R414). -/
def State.collSeq (s : State) (g : Nat) : Nat := Store.get 0 s.fab.collSeq g
/-- Takes the current COLL_SEQ of a group and increments it (R414). -/
def State.takeSeq (s : State) (g : Nat) : Nat × State :=
  let q := s.collSeq g
  (q, { s with fab := { s.fab with collSeq := Store.set 0 s.fab.collSeq g ((q + 1) % 65536) } })

/-- The low 64 bits of the configuration seal in force (R429). -/
def State.seal64 (s : State) : Nat := s.reg 0xC0 + 2 ^ 32 * s.reg 0xC4

/-- The extension header of a frame of a group command (R396). -/
def State.ext (s : State) (group seq kind rank : Nat) : ExtHdr := { group, seq, kind, rank, cfgSeal := s.seal64 }

/-- GROUP of a collective or gate command, 0 for any other (R486). -/
def Cmd.group (c : Cmd) : Nat := if c.op = 0x0C then bitsOf (c.body 2) 2 12 else if c.op = 6 then bitsOf (c.body 1) 0 16 else 0

/-- The COLL_SEQ a frame of a group is compared with: that of the oldest command of the group not yet settled, else the next
value (R414). -/
def State.seqBase (s : State) (g : Nat) : Nat :=
  let open_ := s.ctxs.flatMap (fun (x : Nat × Ctx) => (x.2.cmds.filter (fun (c : Cmd) => c.group == g && c.phase != .settled)).map (fun (c : Cmd) => c.seq))
  let next := s.collSeq g
  open_.foldl (fun best q => if (next + 65536 - best) % 65536 < (next + 65536 - q) % 65536 then q else best) next

/-- Counts a stale frame or reply (R406, R414). -/
def State.countFabStale (s : State) : State := { s with fab := { s.fab with stale := s.fab.stale + 1 } }
/-- Counts a discarded frame. -/
def State.countDiscard (s : State) : State := { s with fab := { s.fab with discarded := s.fab.discarded + 1 } }

/-- The first frame of the inbox that `p` takes; one is passed over while an older frame of its VC from its source waits, but on
VC3 (R404). -/
def takeFirst (p : Frame → Bool) : List Frame → List Frame → Option Frame
  | _, [] => none
  | seen, f :: rest =>
    if p f && (f.vc == 3 || !seen.any (fun g => g.vc == f.vc && g.src == f.src)) then some f else takeFirst p (seen ++ [f]) rest

/-- The next delivered frame of an opcode, and the state without it. -/
def State.takeOpc (s : State) (opc : Nat) : Option (Frame × State) :=
  (takeFirst (fun f => f.opc == opc) [] s.fab.inbox).map (fun f => (f, { s with fab := { s.fab with inbox := s.fab.inbox.erase f } }))

/-- A request of this device to another node. -/
def State.request (s : State) (vc dst opc xid addr operand : Nat) (payload : List Byte) (poison : Nat) : Frame :=
  { vc, src := s.node, dst, opc, xid, addr, operand, payload, poison }

end Sys2Proof.Machine
end

