-- ==== Sys2Proof/Machine/Ecc.lean ====
section
/-! DEFINITION. The 80-bit codeword: its encoder and what a read makes of it (R60 to R62). -/

namespace Sys2Proof.Machine

open Sys2Proof

/-! ## GF(2^7), reduced by x^7 + x^3 + 1 -/

/-- Doubling in the field. -/
def gfDouble (a : Nat) : Nat := if a < 64 then 2 * a else (2 * a) ^^^ 0x89

/-- The product of two field elements, over the bits of the second. -/
def gfMul : Nat → Nat → Nat → Nat
  | 0, _, _ => 0
  | n + 1, a, b => (if b % 2 = 1 then a else 0) ^^^ gfMul n (gfDouble a) (b / 2)

/-- α to the power `n`. -/
def alphaPow : Nat → Nat
  | 0 => 1
  | n + 1 => gfDouble (alphaPow n)

/-- α^j for j from 0 to 126. -/
def alphaTable : List Nat := (List.range 127).map alphaPow

/-- α to the power `n`, from the table. -/
def alpha (n : Nat) : Nat := alphaTable.getD (n % 127) 0

/-- The XOR of a list. -/
def xorAll (l : List Nat) : Nat := l.foldl (fun a b => a ^^^ b) 0

/-- The positions among bits [n-1:0] of a word that are set. -/
def setBits (x n : Nat) : List Nat := (List.range n).filter (bitOf x)

/-- S1 = v(α) over bits [78:0] (R62). -/
def synd1 (cw : Nat) : Nat := xorAll ((setBits cw 79).map alpha)
/-- S3 = v(α^3). -/
def synd3 (cw : Nat) : Nat := xorAll ((setBits cw 79).map (fun j => alpha (3 * j)))
/-- The XOR of all 80 bits. -/
def parity80 (cw : Nat) : Nat := (setBits cw 80).length % 2

/-! ## The encoder -/

/-- The generator of the code: the product of the minimal polynomials of α and α^3. -/
def bchGen : Nat := xorAll ((setBits 0x8F 8).map (fun i => 0x89 * 2 ^ i))

/-- The remainder of a polynomial modulo the generator, from degree 14 + n - 1 down. -/
def bchMod : Nat → Nat → Nat
  | 0, x => x
  | n + 1, x => bchMod n (if bitOf x (14 + n) then x ^^^ (bchGen * 2 ^ n) else x)

/-- The check bits for data and POISON: bits [64:0] shifted by x^62 = x^-65 in the cyclic code of length 127, reduced (R61). -/
def checkBits (v : Nat) : Nat := bchMod 113 (v * 2 ^ 62)

/-- The codeword of a data word (R60, R61). -/
def ecEncode (d : W64) (poison : Bool) : W80 :=
  let v := d.toNat + b2n poison * 2 ^ 64
  let w := v + checkBits v * 2 ^ 65
  BitVec.ofNat 80 (w + (setBits w 79).length % 2 * 2 ^ 79)

/-! ## The decoder (R62) -/

/-- What a read finds. -/
inductive EccOutcome where
  | clean
  /-- one bit corrected -/
  | single
  /-- two bits corrected -/
  | double
  | uncorrectable
  deriving DecidableEq, Repr

/-- The position i within [78:0] with α^i = s. -/
def locate (s : Nat) : Option Nat := (List.range 79).find? (fun i => alpha i == s)

/-- The two positions within [78:0] whose sums are S1 and S3. -/
def locate2 (s1 s3 : Nat) : Option (Nat × Nat) :=
  let hit := fun (i : Nat) => (locate (s1 ^^^ alpha i)).filter (fun j => decide (i < j) && (alpha (3 * i) ^^^ alpha (3 * j)) == s3)
  ((List.range 79).find? (fun i => (hit i).isSome)).bind (fun i => (hit i).map (fun j => (i, j)))

/-- Inverts bit `i`. -/
def flipBit (x i : Nat) : Nat := x ^^^ 2 ^ i

/-- What a read makes of 80 stored bits: the outcome and the corrected bits (R62). -/
def ecDecode (cw : Nat) : EccOutcome × Nat :=
  let s1 := synd1 cw
  let s3 := synd3 cw
  let odd := parity80 cw == 1
  if s1 = 0 ∧ s3 = 0 then
    if odd then (.single, flipBit cw 79) else (.clean, cw)
  else if s1 ≠ 0 ∧ s3 = gfMul 7 s1 (gfMul 7 s1 s1) then
    match locate s1 with
    | none => (.uncorrectable, cw)
    | some i => if odd then (.single, flipBit cw i) else (.double, flipBit (flipBit cw i) 79)
  else if odd ∨ s1 = 0 then (.uncorrectable, cw)
  else match locate2 s1 s3 with
    | none => (.uncorrectable, cw)
    | some (i, j) => (.double, flipBit (flipBit cw i) j)

/-- What a reader receives from stored bits: data, poison and the outcome. An uncorrectable word is delivered as read and
poisoned (R64, R65). -/
def ecRead (cw : Nat) : W64 × Bool × EccOutcome :=
  let r := ecDecode cw
  (BitVec.ofNat 64 r.2, r.1 == .uncorrectable || bitOf r.2 64, r.1)

end Sys2Proof.Machine
end

