-- ==== Sys2Proof/Machine/ErrOps.lean ====
section
/-! DEFINITION. Error records and error counts (R69, R533 to R535). -/

namespace Sys2Proof.Machine

open Sys2Proof

/-- The 32 bytes of an error record (R535). -/
def errRecordBytes (kind cls unit count addr ctx source time : Nat) : List Byte :=
  natLE 4 (kind + cls * 2 ^ 8 + unit * 2 ^ 16) ++ natLE 4 (min count 0xFFFFFFFF) ++ natLE 8 addr ++
    natLE 8 (ctx + source * 2 ^ 8) ++ natLE 8 time

/-- Writes an error record to the error ring: nothing while the ring is disabled, counted lost when it is full (R534). -/
def State.errRecord (s : State) (kind cls unit count addr ctx source : Nat) : State :=
  if !s.flag 0x860 0 then s
  else
    let tail := s.reg 0x870
    let size := 2 ^ s.fld 0x868 0 4
    if wrapSub tail (s.reg 0x86C) ≥ size then s.setReg 0x874 (satAdd 0xFFFFFFFF (s.reg 0x874) 1)
    else
      let s1 := s.hostWrite (bitsOf (s.reg64 0x860) 12 42 * 4096 + 32 * (tail % size))
        (errRecordBytes kind cls unit count addr ctx source s.now)
      (s1.setReg 0x870 ((tail + 1) % 2 ^ 32)).msixIf (s.flag 0x868 4) (s.fld 0x868 5 11)

/-- What a unit keeps. -/
def State.unitErr (s : State) (cls unit : Nat) : UnitErr := Store.get {} s.err.units (cls * 65536 + unit)
/-- Replaces what a unit keeps. -/
def State.setUnitErr (s : State) (cls unit : Nat) (u : UnitErr) : State :=
  { s with err := { s.err with units := Store.set {} s.err.units (cls * 65536 + unit) u } }

/-- Counts one correction or retry of a unit in its window and writes the threshold record when the limit is first
exceeded in the window (R534). -/
def State.countThreshold (s : State) (kind limit cls unit addr : Nat) : State :=
  let u := s.unitErr cls unit
  let u1 := { u with window := u.window + 1, sinceRecord := u.sinceRecord + 1 }
  if limit ≠ 0 ∧ limit < u1.window ∧ !u.reported then
    let s1 := (s.setUnitErr cls unit { u1 with reported := true, sinceRecord := 0 }).errRecord kind cls unit u1.sinceRecord addr 0xFF 0
    { s1 with err := { s1.err with aer := s1.err.aer ++ [1] } }
  else s.setUnitErr cls unit u1

/-- A read corrected `n` bits, 1 or 2 (R62, R69, R534). -/
def State.countCorrection (s : State) (cls unit n addr : Nat) : State :=
  let u := s.unitErr cls unit
  let u1 := if n = 1 then { u with single := satAdd 0xFFFFFFFF u.single 1, addrSingle := addr }
    else { u with double := satAdd 0xFFFFFFFF u.double 1, addrDouble := addr }
  (s.setUnitErr cls unit u1).countThreshold 0x90 (s.fld 0x830 0 16) cls unit addr

/-- A retry or replay of a link or interface that succeeded (R534). -/
def State.countReplay (s : State) (cls unit : Nat) : State := s.countThreshold 0x92 (s.fld 0x830 16 16) cls unit 0

/-- A read found an uncorrectable codeword: counted, with at most one record a unit and millisecond (R69, R534). -/
def State.countUncorrectable (s : State) (cls unit addr : Nat) : State :=
  let u := s.unitErr cls unit
  let u1 := { u with
    uncorrectable := satAdd 0xFFFFFFFF u.uncorrectable 1, addrUncorrectable := addr, unreported := u.unreported + 1 }
  if u.lastRecord = 0 ∨ u.lastRecord - 1 + 1000000 ≤ s.now then
    (s.setUnitErr cls unit { u1 with unreported := 0, lastRecord := s.now + 1 }).errRecord 0x91 cls unit u1.unreported addr 0xFF 0
  else s.setUnitErr cls unit u1

/-- A read found a stored poisoned word (R69). -/
def State.countPoisoned (s : State) (cls unit addr : Nat) : State :=
  let u := s.unitErr cls unit
  s.setUnitErr cls unit { u with poisoned := satAdd 0xFFFFFFFF u.poisoned 1, addrPoisoned := addr }

/-- A read of host space failed for context `n` (R503, R534). -/
def State.hostReadError (s : State) (n bus : Nat) : State :=
  let h := Store.get {} s.err.hostReads n
  let h1 := { h with unreported := h.unreported + 1, addr := bus }
  if h.lastRecord = 0 ∨ h.lastRecord - 1 + 1000000 ≤ s.now then
    ({ s with err := { s.err with hostReads := Store.set {} s.err.hostReads n { unreported := 0, addr := bus, lastRecord := s.now + 1 } } }).errRecord
      0x93 0x0C 0 h1.unreported bus n 0
  else { s with err := { s.err with hostReads := Store.set {} s.err.hostReads n h1 } }

/-! ## Records that waited for their 1 ms (R534) -/

/-- The UNCORRECTABLE record a unit owes once 1 ms has passed since its last one. -/
def State.oweUnit (s : State) (key : Nat) : State :=
  let u := Store.get {} s.err.units key
  if u.unreported ≠ 0 ∧ u.lastRecord - 1 + 1000000 ≤ s.now then
    (s.setUnitErr (key / 65536) (key % 65536) { u with unreported := 0, lastRecord := s.now + 1 }).errRecord
      0x91 (key / 65536) (key % 65536) u.unreported u.addrUncorrectable 0xFF 0
  else s

/-- The HOST_READ record a context owes once 1 ms has passed since its last one. -/
def State.oweHost (s : State) (n : Nat) : State :=
  let h := Store.get {} s.err.hostReads n
  if h.unreported ≠ 0 ∧ h.lastRecord - 1 + 1000000 ≤ s.now then
    ({ s with err := { s.err with hostReads := Store.set {} s.err.hostReads n { h with unreported := 0, lastRecord := s.now + 1 } } }).errRecord
      0x93 0x0C 0 h.unreported h.addr n 0
  else s

/-- One nanosecond passes: the timestamp counter counts, and a device that has not failed writes the error records that waited
(R464, R526, R534). -/
def State.passTime (s : State) : State :=
  let t := s.tick
  if t.ready then
    (t.err.hostReads.map (·.1)).foldl State.oweHost ((t.err.units.map (·.1)).foldl State.oweUnit t)
  else t

end Sys2Proof.Machine
end

