-- ==== Sys2Proof/Machine/MemOps.lean ====
section
/-! DEFINITION. Where lines live, the cache regions, and reads through the codeword (R34 to R50, R60 to R69). -/

namespace Sys2Proof.Machine

open Sys2Proof

/-! ## Where a line lives -/

/-- First address of the Square range. -/
def squareBase : Nat := 0x18000000000

/-- The half and bank of a Square address (R34). -/
def squareBank (a : Nat) : Nat × Nat :=
  let x := a - squareBase
  (bitsOf x 30 1, bitsOf x 8 7 ^^^ bitsOf x 15 7)

/-- The home half of a memory address: 0 West, 1 East (R49, R50). -/
def homeHalf (a : Nat) : Nat :=
  if isHbm a then (if a < 0x6000000000 then 0 else 1) else (if a < 0x14000000000 then 0 else 1)

/-- Stack and pseudo-channel of an HBM address (R49). -/
def hbmPlace (a : Nat) : Nat × Nat :=
  let x := a - homeHalf a * 0x6000000000
  (4 * homeHalf a + (bitsOf x 13 2 ^^^ bitsOf x 21 2), bitsOf x 8 5 ^^^ bitsOf x 23 5)

/-- Sub-channel of a second-tier address (R50). -/
def lpPlace (a : Nat) : Nat :=
  let x := a - 0x10000000000 - homeHalf a * 0x4000000000
  8 * homeHalf a + (bitsOf x 8 3 ^^^ bitsOf x 16 3)

/-- The bank of its home half that serves a memory line: the same bits of the address that pick the bank of a Square line (the model's
choice, assumption 61: the spec gives a bank to Square offsets only). -/
def memBank (a : Nat) : Nat := bitsOf a 8 7 ^^^ bitsOf a 15 7

/-- Where a second-tier line lies in its sub-channel: the number of its group of five rows, its place 0 to 63 among the lines of the
group's four data rows, and the offset in the group's check row of its 64-byte check block (R59). -/
def tier2Place (a : Nat) : Nat × Nat × Nat :=
  let x := (a - 0x10000000000 - homeHalf a * 0x4000000000) / 2048
  (x / 64, x % 64, 64 * (x % 64))

/-- Class and index of the storage unit of a local address (R533). -/
def unitOf (a : Nat) : Nat × Nat :=
  if isHbm a then (3, (hbmPlace a).1 * 32 + (hbmPlace a).2)
  else if isTier2 a then (4, lpPlace a)
  else if coreStoreBase ≤ a then (1, (a - coreStoreBase) / 0x100000)
  else (0, (squareBank a).1 * 128 + (squareBank a).2)

/-! ## The cache regions -/

/-- Ways of every set of a half's cache region (R44). -/
def State.wayCount (s : State) (half : Nat) : Nat := 16 * (16 - s.stagingUnits half)
/-- The set index of a memory address (R44). -/
def setIndex (a : Nat) : Nat := bitsOf a 8 14 ^^^ bitsOf a 22 14

/-- A set of a half's cache region. -/
def State.cacheSet (s : State) (half i : Nat) : CacheSet := Store.get {} s.mem.sets (half * 16384 + i)
/-- Replaces a set. -/
def State.setCacheSet (s : State) (half i : Nat) (x : CacheSet) : State :=
  { s with mem := { s.mem with sets := Store.set {} s.mem.sets (half * 16384 + i) x } }
/-- A way of a set. -/
def CacheSet.way (x : CacheSet) (w : Nat) : Way := Store.get {} x.ways w
/-- Replaces a way. -/
def CacheSet.setWay (x : CacheSet) (w : Nat) (y : Way) : CacheSet := { x with ways := Store.set {} x.ways w y }

/-- The way that holds or fills a line. -/
def CacheSet.find (x : CacheSet) (line n : Nat) : Option Nat :=
  (List.range n).find? (fun w => ((x.way w).valid || (x.way w).filling) && (x.way w).line == line)

/-- The victim choice of R45 over `n` ways: the set after it and the way, none while every way is being filled: the reference bits then
stay as they are, no way being picked (the model's choice, assumption 66). -/
def CacheSet.victim (x : CacheSet) (n : Nat) : Option (Nat × CacheSet) :=
  let order := (List.range n).map (fun i => (x.pointer + i) % n)
  let pick := fun (w : Nat) (y : CacheSet) => some (w, { y with pointer := (w + 1) % n })
  match order.find? (fun w => !(x.way w).valid && !(x.way w).filling) with
  | some w => pick w x
  | none =>
    match order.find? (fun w => !(x.way w).ref && !(x.way w).filling) with
    | some w => pick w x
    | none =>
      let y : CacheSet := { x with ways := x.ways.map (fun (p : Nat × Way) => (p.1, { p.2 with ref := false })) }
      match order.find? (fun w => !(x.way w).filling) with
      | some w => pick w y
      | none => none

/-- Whether a memory line stands in its home cache region, filled. -/
def State.isCached (s : State) (line : Nat) : Bool :=
  let half := homeHalf line
  let x := s.cacheSet half (setIndex line)
  match x.find line (s.wayCount half) with | some w => (x.way w).valid | none => false

/-! ## Reads through the codeword -/

/-- Class and index of the unit that a read of a local address reaches: for a memory word in its cache region the Square bank that
serves its line (R69, R533). -/
def State.unitAt (s : State) (a : Nat) : Nat × Nat :=
  if (isHbm a || isTier2 a) && s.isCached (a - a % 256) then (0, homeHalf a * 128 + memBank a) else unitOf a

/-- The stored codeword of a local word. -/
def State.codeword (s : State) (a : Nat) : Nat :=
  (ecEncode (BitVec.ofNat 64 (s.devRead (a - a % 8) 8)) (s.isPoisoned a)).toNat

/-- Counts a read that found a codeword (R69). -/
def State.countRead (s : State) (cls unit a : Nat) (r : W64 × Bool × EccOutcome) : State :=
  match r.2.2 with
  | .uncorrectable => s.countUncorrectable cls unit a
  | o =>
    let s1 := match o with
      | .single => s.countCorrection cls unit 1 a
      | .double => s.countCorrection cls unit 2 a
      | _ => s
    if r.2.1 then s1.countPoisoned cls unit a else s1

/-- Stores a word with its poison. -/
def State.putWord (s : State) (a : Nat) (d : W64) (bad : Bool) : State :=
  let s1 := s.devWriteLE (a - a % 8) 8 d.toNat
  { s1 with poison := Store.set false s1.poison (a / 8) bad }

/-- A read of one word whose stored bits differ from its codeword by `flip`: counts, the write-back of the corrected or
poisoned word (R62 to R65, R69). -/
def State.eccWord (s : State) (a : Nat) (flip : W80) : State :=
  let u := s.unitAt a
  let r := ecRead (s.codeword a ^^^ flip.toNat)
  let s1 := s.countRead u.1 u.2 a r
  if flip = 0 then s1 else s1.putWord a r.1 r.2.1

/-- The differing bits of word `i` among those listed by word number. -/
def flipOf (flips : List (Nat × W80)) (i : Nat) : W80 := match flips.find? (fun p => p.1 == i) with | some p => p.2 | none => 0

/-- A read of a whole line; `flips` holds the differing bits of some of its words by word number. -/
def State.eccLine (s : State) (line : Nat) (flips : List (Nat × W80)) : State :=
  (List.range 32).foldl (fun (t : State) i => t.eccWord (line + 8 * i) (flipOf flips i)) s

/-- The data and poison of a line as they stand. -/
def State.lineNow (s : State) (line : Nat) : BitVec 2048 × BitVec 32 :=
  (BitVec.ofNat 2048 (s.devRead line 256),
    BitVec.ofNat 32 ((List.range 32).map (fun i => b2n (Store.get false s.poison (line / 8 + i)) * 2 ^ i)).sum)

/-- Bits [79:64] of the codewords of a line: bytes 2k and 2k + 1 are those of word k (R63). -/
def checkBlock (data : BitVec 2048) (poison : BitVec 32) : BitVec 512 :=
  BitVec.ofNat 512 (((List.range 32).map (fun k =>
    bitsOf (ecEncode (BitVec.ofNat 64 (bitsOf data.toNat (64 * k) 64)) (bitOf poison.toNat k)).toNat 64 16 * 2 ^ (16 * k))).sum)

/-- Writes the enabled bytes of a line: a word wholly written becomes clean, any other stays as it was (R35, R66). -/
def State.writeLine (s : State) (line mask : Nat) (data : BitVec 2048) : State :=
  (List.range 32).foldl (fun (t : State) w =>
    let m := bitsOf mask (8 * w) 8
    if m = 0 then t
    else if m = 255 then t.devWrite (line + 8 * w) (natLE 8 (bitsOf data.toNat (64 * w) 64))
    else (List.range 8).foldl (fun (u : State) i =>
      if bitOf m i then u.devWrite (line + 8 * w + i) [BitVec.ofNat 8 (bitsOf data.toNat (64 * w + 8 * i) 8)] else u) t) s

/-- The way's line leaves the cache region: a dirty line is written back; behind a clean one stands what memory holds, whose words a
read found uncorrectable meanwhile are poisoned (R46, R65). -/
def State.evictWay (s : State) (y : Way) : State :=
  if !y.valid || y.dirty then s
  else y.lost.foldl (fun (t : State) p => match p.2 with | some d => t.putWord (y.line + 8 * p.1) d true | none => t) s

/-- The cache region's part in an access to a memory line by an agent of the device: a hit sets the dirty bit of a written line and, for
a demand access, the reference bit; a demand miss allocates, entering with the reference bit clear for a page with STP; DMA and the Press
allocate nothing (R43, R45 to R48, R81). The access itself works on the line's one value. -/
def State.touchLine (s : State) (line : Nat) (write demand stp : Bool) : State :=
  if !(isHbm line || isTier2 line) then s
  else
    let half := homeHalf line
    let n := s.wayCount half
    let i := setIndex line
    let x := s.cacheSet half i
    if n = 0 then s
    else match x.find line n with
      | some w =>
        let y := x.way w
        s.setCacheSet half i (x.setWay w { y with ref := y.ref || (demand && !y.filling), dirty := y.dirty || write })
      | none =>
        if !demand then s
        else match x.victim n with
          | none => s
          | some (w, x1) => (s.evictWay (x.way w)).setCacheSet half i (x1.setWay w { valid := true, dirty := write, ref := !stp, line })

/-- The cache region's part in an access to bytes [a, a + n) of the local space. -/
def State.touchRange (s : State) (a n : Nat) (write demand stp : Bool) : State :=
  if n = 0 ∨ !(isHbm a || isTier2 a) then s
  else (List.range ((a + n - 1) / 256 - a / 256 + 1)).foldl (fun (t : State) i =>
    t.touchLine (a - a % 256 + 256 * i) write demand stp) s

/-- Counts the poisoned words a read of bytes [a, a + n) of the local space finds (R69). -/
def State.countFound (s : State) (a n : Nat) : State :=
  if (poisonIn s.poison a n).isNone then s
  else (List.range (wordsOf a n)).foldl (fun (t : State) i =>
    let b := a - a % 8 + 8 * i
    if t.isPoisoned b then t.countPoisoned (t.unitAt b).1 (t.unitAt b).2 b else t) s

/-- The half whose Square serves a line. -/
def servingHalf (a : Nat) : Nat := if isHbm a || isTier2 a then homeHalf a else (squareBank a).1

/-- The place of the Seam port in a half's port table. -/
def seamPort (half : Nat) : Nat := (sqPorts half).idxOf .seam

/-- Keeps an answer; that of a request from the other half goes back over the Seam on VC1 (R373). -/
def State.answerLine (s : State) (r : SqReq) : State :=
  let l := s.lineNow r.addr
  match r.origin with
  | none => { s with mem := { s.mem with done := s.mem.done ++ [⟨r.port, r.addr, r.write, l.1, l.2, 0⟩] } }
  | some p =>
    let h := servingHalf r.addr
    { s with mem := { s.mem with
        seamDone := Store.set [] s.mem.seamDone h (Store.get [] s.mem.seamDone h ++ [⟨p, r.addr, r.write, l.1, l.2, 0⟩]) } }

/-- Performs a request on the line's contents: a read through the codeword, or a write of its bytes, which first reads each word it
writes in part (R35, R62). -/
def State.performReq (s : State) (r : SqReq) (flips : List (Nat × W80)) : State :=
  if r.write then
    (((List.range 32).filter (fun i => let m := bitsOf r.mask (8 * i) 8; m != 0 && m != 255)).foldl (fun (t : State) i =>
      t.eccWord (r.addr + 8 * i) (flipOf flips i)) s |>.writeLine r.addr r.mask r.data).answerLine r
  else (s.eccLine r.addr flips).answerLine r

/-- Whether a write covers its whole line. -/
def SqReq.whole (r : SqReq) : Bool := r.write && r.mask % 2 ^ 256 == 2 ^ 256 - 1

/-- Serves a request for a memory line at its home half (R43 to R48). -/
def State.serveCached (s : State) (half : Nat) (r : SqReq) (flips : List (Nat × W80)) : State :=
  let n := s.wayCount half
  let i := setIndex r.addr
  let x := s.cacheSet half i
  let hold := fun (r : SqReq) (t : State) => { t with mem := { t.mem with waits := t.mem.waits ++ [⟨half, i, r⟩] } }
  if n = 0 then s.performReq r flips
  else match x.find r.addr n with
    | some w =>
      let y := x.way w
      if y.filling then hold r s
      else
        let y1 := { y with ref := y.ref || r.demand, dirty := y.dirty || r.write }
        (s.setCacheSet half i (x.setWay w y1)).performReq r flips
    | none =>
      if !r.demand then s.performReq r flips
      else match x.victim n with
        | none => hold r s
        | some (w, x1) =>
          let s1 := s.evictWay (x.way w)
          if r.whole then
            (s1.setCacheSet half i (x1.setWay w { valid := true, dirty := true, ref := !r.stp, line := r.addr })).performReq r flips
          else hold { r with missed := true } (s1.setCacheSet half i (x1.setWay w { filling := true, ref := !r.stp, line := r.addr }))

/-- Serves a request at a bank: staging directly, memory lines through the cache region. -/
def State.serveReq (s : State) (half : Nat) (r : SqReq) (flips : List (Nat × W80)) : State :=
  if s.isStaging r.addr then s.performReq r flips else s.serveCached half r flips

/-- The request that missed is served from the line its fill brought (R45, R46). -/
def State.serveMissed (s : State) (half : Nat) (r : SqReq) : State :=
  let i := setIndex r.addr
  let x := s.cacheSet half i
  match x.find r.addr (s.wayCount half) with
  | some w => (s.setCacheSet half i (x.setWay w { x.way w with dirty := (x.way w).dirty || r.write })).performReq r []
  | none => s.performReq r []

/-- Serves waiting requests in order. -/
def State.serveAll (s : State) (half : Nat) : List SqReq → State
  | [] => s
  | r :: rs => (if r.missed then s.serveMissed half r else s.serveReq half r []).serveAll half rs

/-- The walk of FLUSH: every dirty line is written back and becomes clean; with `inval` every line is invalidated, a line being
filled when its fill completes (R488). A line that was clean leaves memory behind it as it stands (R65). -/
def State.flushCaches (s : State) (inval : Bool) : State :=
  let s0 := if inval then s.mem.sets.foldl (fun (t : State) p => p.2.ways.foldl (fun (u : State) q => u.evictWay q.2) t) s else s
  { s0 with mem := { s0.mem with sets := s0.mem.sets.foldl (fun (m : Store CacheSet) p =>
      Store.set {} m p.1 { p.2 with ways := p.2.ways.foldl (fun (ws : Store Way) q =>
        let y := { q.2 with dirty := false, lost := if q.2.dirty then [] else q.2.lost }
        Store.set {} ws q.1 (if inval then (if y.filling then { y with drop := true } else {}) else y)) [] }) [] } }

end Sys2Proof.Machine
end

