-- ==== Sys2Proof/Machine/Place.lean ====
section
/-! DEFINITION. Where the units stand and which way an access takes between them (R3, R17 to R22, R353, R365). -/

namespace Sys2Proof.Machine

open Sys2Proof

/-! ## Grades (R3, R474) -/

/-- Whether every core of Block `b` is enabled. -/
def State.fullBlock (s : State) (b : Nat) : Bool := (List.range 16).all (fun i => !s.coreDisabled (16 * b + i))

/-- The full Blocks a grade guarantees, by its number of good cores; none for a number that is no grade. -/
def gradeFull : Nat → Option Nat
  | 576 => some 36 | 544 => some 28 | 512 => some 20 | _ => none

/-- GRADE and BLOCK_MAP describe a part of one of the three grades: CORES counts the enabled cores, FULL_BLOCKS the full Blocks, and there
are at least as many of these as the grade guarantees (R3, R474). -/
def State.gradeOk (s : State) : Bool :=
  let full := (List.range 36).countP s.fullBlock
  (List.range 576).countP (fun c => !s.coreDisabled c) == s.fld 0x4 0 10 && full == s.fld 0x4 16 6 &&
    match gradeFull (s.fld 0x4 0 10) with | some n => decide (n ≤ full) | none => false

/-! ## Halves: 0 West, 1 East (R18, R19) -/

/-- Half of a core. -/
def coreHalf (c : Nat) : Nat := c / 288
/-- Half of Town Hall. -/
def hallHalf : Nat := 0
/-- Half of the PCIe controller, through which all host traffic passes (R20). -/
def pcieHalf : Nat := 1
/-- Half of a fabric lane: 0 to 23 West, 24 to 47 East. -/
def laneHalf (l : Nat) : Nat := if l < 24 then 0 else 1
/-- First lane of a fabric port: port numbers ascend with lane numbers, four lanes each or two (R19, R379). -/
def State.portLane (s : State) (p : Nat) : Nat := if s.flag 0x600 14 then 2 * p else 4 * p
/-- Half of a fabric port, and of the fabric engine that serves it (R19, R22). -/
def State.portHalf (s : State) (p : Nat) : Nat := laneHalf (s.portLane p)

/-- The Crossing at whose edge port a unit attaches (R353). -/
inductive EdgeUnit where
  | fabric (half : Nat)
  | hall
  | pcie
  | room (share : Nat)
  | press (p : Nat)

/-- The Crossing of an edge unit, by its Block number (R353). -/
def EdgeUnit.crossing : EdgeUnit → Nat
  | .fabric 0 => 0 | .fabric _ => 23
  | .hall => 6 | .pcie => 29
  | .room 0 => 12 | .room _ => 35
  | .press 0 => 1 | .press 1 => 4 | .press 2 => 13 | .press 3 => 16 | .press 4 => 2
  | .press 5 => 19 | .press 6 => 22 | .press 7 => 31 | .press 8 => 34 | .press _ => 21

/-! ## Paths (R20 to R22, R365) -/

/-- The way an access of a core takes. -/
inductive CorePath where
  /-- its own core store -/
  | own
  /-- the stitch edge link to an edge-adjacent core of its Block -/
  | edge
  /-- the mesh, to any other core's store -/
  | mesh
  /-- the Square of its half -/
  | square
  /-- the Square of its half and the Seam's Square channel -/
  | seam
  deriving DecidableEq, Repr

/-- The number of a path in the counts of what was carried. -/
def CorePath.code : CorePath → Nat
  | .own => 0 | .edge => 1 | .mesh => 2 | .square => 3 | .seam => 4

/-- Whether two cores are edge-adjacent in one Block. -/
def edgeAdjacent (c d : Nat) : Bool :=
  c / 16 == d / 16 && (coreRow c - coreRow d) + (coreRow d - coreRow c) + (coreCol c - coreCol d) + (coreCol d - coreCol c) == 1

/-- The path of an access of core `c` to a physical address: the stitch edge link to an adjacent core's store and the mesh to any other
(R365); the Square for everything else, and the Seam where that lies in the other half, host space at the PCIe controller and remote
space at the fabric engine of the route's port (R20 to R22). -/
def State.corePath (s : State) (c pa : Nat) : CorePath :=
  let across := fun (h : Nat) => if h = coreHalf c then CorePath.square else .seam
  match s.space pa with
  | .loc a =>
    if coreStoreBase ≤ a then
      let d := (a - coreStoreBase) / 0x100000
      if d = c then .own else if edgeAdjacent c d then .edge else .mesh
    else across (servingHalf a)
  | .host _ => across pcieHalf
  | .remote node _ => match s.route 2 s.node node with
    | some r => across (s.portHalf r.1)
    | none => .square
  | _ => .square

/-- Counts `n` bytes that an access of core `c` moves over its path. -/
def State.carry (s : State) (c pa n : Nat) : State :=
  let key := 8 * c + (s.corePath c pa).code
  { s with mesh := { s.mesh with carried := Store.set 0 s.mesh.carried key (Store.get 0 s.mesh.carried key + n) } }

end Sys2Proof.Machine
end

