-- ==== Sys2Proof/Machine/CoreOps.lean ====
section
/-! DEFINITION. What the core instructions share: issue, the core store, the line cache, and loads and stores through
virtual addresses (R87, R104, R108 to R110, R117 to R119, R188). -/

namespace Sys2Proof.Machine

open Sys2Proof

/-! ## Issue -/

/-- Scalar registers an instruction reads or writes, by its opcode (R181, R184 to R214): what the scoreboard holds it for. -/
def namedScalars (op w : Nat) : List Nat :=
  if op = 0x04 ∨ op = 0x08 then [fD w, fA w, fB w]
  else if op = 0x06 then [fD w]
  else if op = 0x05 ∨ op = 0x07 ∨ (0x18 ≤ op ∧ op ≤ 0x1B) then [fD w, fA w]
  else if op = 0x10 then [brA w, brB w]
  else if op = 0x12 then [brD w]
  else if op = 0x13 then [brA w, brD w]
  else if op = 0x20 ∨ op = 0x21 then (if vrBs w then [fB w] else [])
  else if op = 0x22 then [fD w]
  else if op = 0x23 then (if vrFn w = 5 then [fA w] else if vrFn w = 6 then [fD w] else [])
  else if 0x28 ≤ op ∧ op ≤ 0x2B then [fA w]
  else if op = 0x40 ∨ op = 0x41 then [tmA w, tmB w]
  else if op = 0x58 then [tdA w, tdM w, tdC w]
  else if 0x70 ≤ op ∧ op ≤ 0x72 then [fD w, fA w, fB w, fC w]
  else []

/-- Vector registers an instruction reads or writes. -/
def namedVectors (op w : Nat) : List Nat :=
  if op = 0x20 then fD w :: fA w :: fC w :: (if vrBs w then [] else [fB w])
  else if op = 0x21 then fA w :: (if vrBs w then [] else [fB w])
  else if op = 0x22 then [fA w]
  else if 0x28 ≤ op ∧ op ≤ 0x2E then [fD w]
  else []

/-- Whether a remote load in flight writes a register the word names (R103: the scoreboard holds it); nothing waits for s0. -/
def Core.scoreboardHolds (k : Core) (op w : Nat) : Bool :=
  k.remote.any (fun r => match r.kind with
    | .load sd _ _ => sd != 0 && (namedScalars op w).contains sd
    | .vload v _ _ _ => (namedVectors op w).contains v
    | .signal sd _ _ _ => sd != 0 && (namedScalars op w).contains sd
    | _ => false)

/-- Whether core `c` issues words: enabled, running work, not halted or stopping (R101, R124, R131). -/
def State.runs (s : State) (c : Nat) : Bool :=
  let k := s.core c
  s.coreGood c && s.ready && k.run == .running && !k.halted && !k.stopping

/-- Whether a word raises a fault in D, on the word alone: a reserved code (R179), a shape (R116, R148, R197, R203, R207) or a
descriptor offset that is not aligned (R209). Such a word waits for no register. -/
def State.dFaults (s : State) (c op w : Nat) : Bool :=
  match op with
  | 0x04 => (aluFn (fnSreg w) 0 0).isNone
  | 0x05 => !aluiOk (fnSimm w)
  | 0x06 | 0x07 => fnSimm w != 0
  | 0x08 => decide (4 < fnSreg w)
  | 0x10 => (brHolds (brCond w) 0 0).isNone
  | 0x11 => (brpHolds (brCond w) 0).isNone
  | 0x12 | 0x13 => brCond w != 0
  | 0x20 => (laneFn (vrFn w) 0 0 0 false 0).isNone
  | 0x21 => (cmpFn (vrFn w) 0 0).isNone
  | 0x22 => (redFn (vrFn w)).isNone
  | 0x23 => decide (6 < vrFn w)
  | 0x2D | 0x2E => vrowShapeBad w
  | 0x40 | 0x41 => tmemShapeBad false w
  | 0x42 => tmemShapeBad true w
  | 0x50 => mmaShapeBad w || s.stitchBad (shStitch w) c
  | 0x58 => drainShapeBad w
  | 0x59 => dcfgIllegal w
  | 0x60 => decide (stOff w % 32 ≠ 0)
  | 0x70 | 0x71 => syMode w == 3
  | 0x72 => syMode w != 0
  | _ => false

/-- Whether core `c` can issue a word: it issues words and the word's registers are free (R101, R131). -/
def State.canIssue (s : State) (c op w : Nat) : Bool := s.runs c && !(s.core c).scoreboardHolds op w

/-- Moves past the instruction, which completed now. -/
def Core.advance (k : Core) (now : Nat) : Core := { k with pc := (k.pc + 8) % 0x100000, lastDone := now, rowRetries := 0 }

/-- Moves core `c` past its instruction. -/
def State.advance (s : State) (c : Nat) : State := s.setCore c ((s.core c).advance s.now)

/-- Updates core `c` and moves it past its instruction. -/
def State.retire (s : State) (c : Nat) (f : Core → Core) : State := s.setCore c ((f (s.core c)).advance s.now)

/-- A fault of the instruction at the core's pc reported under R221. -/
def State.faultHere (s : State) (c cause info w : Nat) : State :=
  s.instrFault c cause (s.core c).pc info (BitVec.ofNat 64 w)

/-- ILLEGAL_OPCODE (R179). -/
def State.illegal (s : State) (c w : Nat) : State := s.faultHere c 7 0 w
/-- SHAPE_FAULT (R116). -/
def State.shapeFault (s : State) (c w : Nat) : State := s.faultHere c 1 0 w
/-- STREAM_MISALIGNED with the misaligned address, offset or target (R221). -/
def State.misaligned (s : State) (c addr w : Nat) : State := s.faultHere c 0xA (addr % 2 ^ 32) w

/-- Counts the poisoned words a read of `n` bytes of a core store at offset `off` finds (R69). -/
def State.countLocal (s : State) (c off n : Nat) : State :=
  (List.range (wordsOf off n)).foldl (fun (t : State) i =>
    let a := csAddr c (off + 8 * i)
    if t.isPoisoned a then t.countPoisoned 1 c (a - a % 8) else t) s

/-- A read of `n` bytes of the core's own store from offset `off` meets a poisoned word: LOCAL = 1 and the offset of the first one
it uses, `pos` bytes on (R69, R108). -/
def State.localPoisonAt (s : State) (c off n pos : Nat) : State :=
  (s.countLocal c off n).accFault c { cause := 5, va := (off + pos) % 0x100000 } false true

/-- As `localPoisonAt`, for a read within one word. -/
def State.localPoison (s : State) (c off n : Nat) : State := s.localPoisonAt c off n 0

/-- Whether an instruction was issued between two states of a core, for a word of an opcode: every branch is; any other moves
the pc, the work or the wait record on, and one that must wait leaves them. -/
def Core.issued (k k1 : Core) (op : Nat) : Bool :=
  decide (0x10 ≤ op ∧ op ≤ 0x13) || k.pc != k1.pc || k.run != k1.run || k.ctx != k1.ctx || k.tag != k1.tag || k.wait != k1.wait

/-- The tagging generator of a core advances for an issued instruction, which may be tagged (R575). -/
def State.tagIssue (s t : State) (c op w : Nat) : State :=
  let k := s.core c
  let k1 := t.core c
  if !k.issued k1 op then t
  else
    let g := xorshift (if k1.tagGen = 0 then BitVec.ofNat 32 ((c + 1) * 0x9E3779B9) else k1.tagGen)
    let log := s.fld 0x1480 0 5
    let mine := !s.flag 0x1480 13 || s.fld 0x1480 10 3 == k.ctx
    let hit := log != 0 && g.toNat % 2 ^ log == 0 && mine && k1.tagItem.isNone
    t.setCore c { k1 with
      tagGen := g
      tagItem := if hit then some { pc := k.pc, word := w, ctx := k.ctx, tag := k.tag, t0 := s.now } else k1.tagItem }

/-- Issues a core instruction: nothing while the core issues none, POISON_CONSUMED when the fetched word is poisoned (R110);
nothing while the scoreboard holds a word that raises no fault in D (R101, R103, R222), else `f` of the word. A word with a reserved
bit set is unpredictable (R16). -/
def issue (c : Nat) (b : Body) (op reserved : Nat) (s : State) (f : Nat → State) : Host.Outcome State Fault Refusal :=
  let w := wordOf op b
  if !s.runs c then .next s
  else if s.isPoisoned (csAddr c (s.core c).pc) then .next (s.localPoison c (s.core c).pc 8)
  else if (s.core c).scoreboardHolds op w && !s.dFaults c op w then .next s
  else if b.toNat &&& reserved ≠ 0 then .fault .reservedBits
  else .next (s.tagIssue (f w) c op w)

/-- As `issue`, for an instruction that can also end in a fault of its own. -/
def issueO (c : Nat) (b : Body) (op reserved : Nat) (s : State)
    (f : Nat → Host.Outcome State Fault Refusal) : Host.Outcome State Fault Refusal :=
  let w := wordOf op b
  if !s.runs c then .next s
  else if s.isPoisoned (csAddr c (s.core c).pc) then .next (s.localPoison c (s.core c).pc 8)
  else if (s.core c).scoreboardHolds op w && !s.dFaults c op w then .next s
  else if b.toNat &&& reserved ≠ 0 then .fault .reservedBits
  else match f w with
    | .next t => .next (s.tagIssue t c op w)
    | r => r

/-! ## The line cache (R117 to R119) -/

/-- Whether a physical address is in another node's space. -/
def State.isRemote (s : State) (pa : Nat) : Bool := match s.space pa with | .remote _ _ => true | _ => false

/-- The bytes of a line as one number. -/
def lineOfBytes (bs : List Byte) : BitVec 2048 := BitVec.ofNat 2048 (leNat bs)

/-- `n` bytes of a line from byte `off`. -/
def Line.bytes (l : Line) (off n : Nat) : List Byte := natLE n (bitsOf l.data.toNat (8 * off) (8 * n))

/-- Byte offset of the first poisoned word that bytes [off, off + n) of a line touch. -/
def Line.poisonIn (l : Line) (off n : Nat) : Option Nat :=
  ((List.range (wordsOf off n)).map (fun i => off / 8 + i)).find? (fun i => bitOf l.poison.toNat i) |>.map (· * 8)

/-- The line at a physical line address as memory holds it now. -/
def State.memLine (s : State) (ctx owner pa : Nat) : Line :=
  match s.space pa with
  | .host bus =>
    { ctx, pa, owner, data := lineOfBytes (Memory.bytes s.host bus 256)
      poison := BitVec.ofNat 32 ((List.range 32).map (fun i => b2n (Store.get false s.hostEp (bus / 8 + i)) * 2 ^ i)).sum }
  | .loc a =>
    { ctx, pa, owner, data := lineOfBytes (Memory.bytes s.dev a 256)
      poison := BitVec.ofNat 32 ((List.range 32).map (fun i => b2n (Store.get false s.poison (a / 8 + i)) * 2 ^ i)).sum }
  | _ => { ctx, pa, owner }

/-- The demand line of a context at a line address. -/
def Core.demandLine? (k : Core) (ctx pa : Nat) : Option Line :=
  k.lines.find? (fun l => l.ctx == ctx && l.pa == pa && l.owner == 8)

/-- Removes the demand line of a context at a line address. -/
def Core.dropDemand (k : Core) (ctx pa : Nat) : List Line :=
  k.lines.filter (fun l => !(l.ctx == ctx && l.pa == pa && l.owner == 8))

/-- Removes the last (least recently used) demand line of a list whose newest lines come first. -/
def dropOldestDemand : List Line → List Line
  | [] => []
  | l :: ls => if l.owner = 8 ∧ !(ls.any (fun m => m.owner == 8)) then ls else l :: dropOldestDemand ls

/-- Puts a demand line in front, evicting the least recently used demand line when all 128 lines are taken (R117, R118). -/
def Core.putDemand (k : Core) (l : Line) : Core :=
  let rest := k.dropDemand l.ctx l.pa
  { k with lines := l :: (if rest.length + k.fills.length < 128 then rest else dropOldestDemand rest) }

/-- Removes one line. -/
def Core.dropLine (k : Core) (l : Line) : Core :=
  { k with lines := k.lines.filter (fun x => !(x.ctx == l.ctx && x.pa == l.pa && x.owner == l.owner)) }

/-- A hit on a held line: whether the line serves it. A parity error counts an event and invalidates the line, and the access goes
on as a miss (R117, assumption 7). -/
def State.lineHit (s : State) (c : Nat) (l : Line) : Bool × State :=
  let s1 := { s with free := s.free + 1 }
  if Config.lineParity s.free then (false, s1.setCore c { (s.core c).dropLine l with lineParity := (s.core c).lineParity + 1 })
  else (true, s1)

/-- A fill of a line of local or host space for core `c`: what memory holds, read as a demand access over the line's path, poisoned words
counted (R46, R69, R81, R365). `stp` says whether the page has STP. -/
def State.fillLine (s : State) (c owner pa : Nat) (stp : Bool) : Line × State :=
  let l := s.memLine (s.core c).ctx owner pa
  match s.space pa with
  | .loc a => (l, ((s.carry c pa 256).countFound a 256).touchRange a 256 false true stp)
  | _ => (l, s.carry c pa 256)

/-- The demand line at a line address of local or host space, filled from memory on a miss (R117, R118); of remote space, the
line held. -/
def State.demandLine (s : State) (c pa : Nat) (stp : Bool) : Line × State :=
  let fill := fun (s : State) => let r := s.fillLine c 8 pa stp; (r.1, r.2.setCore c ((r.2.core c).putDemand r.1))
  match (s.core c).demandLine? (s.core c).ctx pa with
  | none => fill s
  | some l =>
    let r := if s.isRemote pa then (true, s) else s.lineHit c l
    if r.1 then (l, r.2.setCore c ((r.2.core c).putDemand l)) else fill r.2

/-- Invalidates every demand line. What is in flight serves only who waits for it already, and is not held (R90, R118). -/
def Core.dropDemandLines (k : Core) : Core :=
  { k with
    lines := k.lines.filter (fun l => l.owner != 8)
    fills := k.fills.map (fun l => if l.owner = 8 then { l with stale := true } else l)
    remote := k.remote.map (fun r => { r with stale := true })
    queue := k.queue.map (fun e => { e with parts := e.parts.map (fun p => { p with old := true }) }) }

/-- Writes bytes into a line's data, from byte `off`; the words wholly written lose their poison. -/
def Line.store (l : Line) (off : Nat) (bs : List Byte) : Line :=
  { l with
    data := BitVec.ofNat 2048 (putBits l.data.toNat (8 * off) (8 * bs.length) (leNat bs))
    poison := l.poison &&& ~~~ BitVec.ofNat 32
      (((List.range ((off + bs.length) / 8 - (off + 7) / 8)).map (fun i => 2 ^ ((off + 7) / 8 + i))).sum) }

/-- Updates the core's own copies of a line after its store of bytes within that line (R97, R119). -/
def Core.storeHeld (k : Core) (ctx pa : Nat) (bs : List Byte) : Core :=
  let a := pa - pa % 256
  let upd := fun (l : Line) => if l.ctx = ctx ∧ l.pa = a then l.store (pa % 256) bs else l
  { k with
    lines := k.lines.map upd
    fills := k.fills.map upd
    remote := k.remote.map (fun r => if r.asked.contains a then { r with above := r.above ++ [(pa, bs)] } else r) }

/-! ## Ranges by line -/

/-- Cuts a physical range at 256-byte lines; `fuel` bounds the pieces. -/
def cutLines : Nat → Nat → Nat → List (Nat × Nat)
  | 0, _, _ => []
  | fuel + 1, pa, n =>
    if n = 0 then []
    else
      let m := min n (256 - pa % 256)
      (pa, m) :: cutLines fuel (pa + m) (n - m)

/-- Cuts a physical range at 4 KiB boundaries (R408). -/
def cut4k : Nat → Nat → Nat → List (Nat × Nat)
  | 0, _, _ => []
  | fuel + 1, pa, n =>
    if n = 0 then []
    else
      let m := min n (4096 - pa % 4096)
      (pa, m) :: cut4k fuel (pa + m) (n - m)

/-- The physical address an access goes to, with this device's own remote window taken as local (R76). -/
def State.norm (s : State) (pa : Nat) : Nat := match s.space pa with | .loc a => a | _ => pa

/-- The pieces of a translated range, cut at lines and normalised. -/
def State.byLines (s : State) (l : List (Nat × Nat × Nat)) : List (Nat × Nat) :=
  l.flatMap (fun p => cutLines (p.2.2 / 256 + 2) (s.norm p.2.1) p.2.2)

/-- The fault of a host-space read that returns an error (R503). -/
def State.hostFault (s : State) (n va : Nat) : AccFault :=
  match s.leafOf va 4 0 (bitsOf (s.ptRoot n) 14 42 * 2 ^ 14) with
  | some t => { cause := 2, level := t.level, unbacked := true, entry := t.entry.toNat, va }
  | none => { cause := 2, level := 0xFF, unbacked := true, va }

/-- The first piece whose host-space read fails: its fault and its bus address (R503). -/
def State.hostCheck (s : State) (n : Nat) : List (Nat × Nat × Nat) → Option (AccFault × Nat)
  | [] => none
  | (va, pa, len) :: rest =>
    match s.space pa with
    | .host bus => if s.hostReadFails bus len then some (s.hostFault n va, bus) else s.hostCheck n rest
    | _ => s.hostCheck n rest

/-- Whether the page of one of the translated pieces that touch a line has STP (R81). -/
def State.stpAt (s : State) (ctx : Nat) (ps : List (Nat × Nat × Nat)) (line : Nat) : Bool :=
  ps.any (fun p => let a := s.norm p.2.1
    decide (a < line + 256 ∧ line < a + p.2.2) && (match s.translate ctx p.1 false with | .ok _ _ stp => stp | .fault _ => false))

/-- Reads pieces through demand lines: the bytes, the offsets within the whole range of the words found poisoned, and the
state. `off` is the offset of the first piece; `stp` says which lines' pages have STP. -/
def State.readLines (s : State) (c : Nat) (stp : Nat → Bool) : Nat → List (Nat × Nat) → List Byte × List Nat × State
  | _, [] => ([], [], s)
  | off, (pa, n) :: rest =>
    let r := s.demandLine c (pa - pa % 256) (stp (pa - pa % 256))
    let q := r.2.readLines c stp (off + n) rest
    let bad := ((List.range (wordsOf pa n)).filter (fun i => bitOf r.1.poison.toNat (pa % 256 / 8 + i))).map
      (fun i => off + (8 * i - pa % 8))
    (r.1.bytes (pa % 256) n ++ q.1, bad ++ q.2.1, q.2.2)

/-! ## Remote requests of a core (R408 to R410) -/

/-- Sends the READ_REQ frames for remote lines; answers the XIDs, or the node that cannot be reached. -/
def State.sendReads (s : State) (c : Nat) : List Nat → Except Nat (List Nat × State)
  | [] => .ok ([], s)
  | pa :: rest =>
    match s.space pa with
    | .remote node off =>
      if s.nodeFailed node then .error node
      else
        let (s1, xid) := s.openTxn (.core c) node 2 pa 256
        match s1.sendFrame (s1.request 2 node 2 xid off 256 [] 0) with
        | none => .error node
        | some s2 =>
          match s2.sendReads c rest with
          | .error e => .error e
          | .ok (xs, s3) => .ok (xid :: xs, s3)
    | _ => s.sendReads c rest

/-- Sends WRITE frames for whole words of remote space; answers the XIDs, or the node that cannot be reached. -/
def State.sendWrites (s : State) (c : Nat) (bytes : Memory) : List (Nat × Nat) → Except Nat (List Nat × State)
  | [] => .ok ([], s)
  | (pa, n) :: rest =>
    match s.space pa with
    | .remote node off =>
      if s.nodeFailed node then .error node
      else
        let (s1, xid) := s.openTxn (.core c) node 1 pa n
        match s1.sendFrame (s1.request 2 node 1 xid off 0 (Memory.bytes bytes pa n) 0) with
        | none => .error node
        | some s2 =>
          match s2.sendWrites c bytes rest with
          | .error e => .error e
          | .ok (xs, s3) => .ok (xid :: xs, s3)
    | _ => s.sendWrites c bytes rest

/-- The line addresses a list of pieces touches, without repeats. -/
def linesOf (l : List (Nat × Nat)) : List Nat :=
  nub (l.flatMap (fun p => (cutLines (p.2 / 256 + 2) p.1 p.2).map (fun q => q.1 - q.1 % 256)))

/-- Adds a remote wait to core `c`. -/
def State.addRemote (s : State) (c : Nat) (r : RemoteWait) : State :=
  let k := s.core c
  s.setCore c { k with remote := k.remote ++ [r] }

/-- The bytes of stores to remote space not yet performed that lie in the lines listed, oldest first (R87, R97). -/
def Core.storesOn (k : Core) (lines : List Nat) : List (Nat × List Byte) :=
  k.remote.filterMap (fun r =>
    let hit := fun (pa : Nat) (bs : List Byte) =>
      if lines.any (fun l => decide (l < pa + bs.length ∧ pa < l + 256)) then some (pa, bs) else none
    match r.kind with | .store pa bs => hit pa bs | .merge pa bs => hit pa bs | _ => none)

/-- Starts a remote read of the lines `asked` for `kind`; an unreachable node ends the work at once (R402, R410, R435).
Bytes already known stand in `buf`; the core's own stores on their way win over what comes (R87). -/
def State.remoteRead (s : State) (c va : Nat) (kind : RemoteKind) (parts : List (Nat × Nat)) (asked : List Nat) (buf : Memory)
    (bad : Store Bool) : State :=
  match s.sendReads c asked with
  | .error node => s.coreTimeout c node 0
  | .ok (xids, s1) => s1.addRemote c { xids, kind, va, parts, asked, buf, bad, above := (s.core c).storesOn asked }

/-- Starts a remote store of bytes at a remote physical address: WRITE frames for whole words, else the words are read
first and merged (assumption 12). -/
def State.remoteStore (s : State) (c va pa : Nat) (bs : List Byte) : State :=
  if pa % 8 = 0 ∧ bs.length % 8 = 0 then
    match s.sendWrites c (Memory.setBytes [] pa bs) (cut4k (bs.length / 4096 + 2) pa bs.length) with
    | .error node => s.coreTimeout c node 0
    | .ok (xids, s1) => s1.addRemote c { xids, kind := .store pa bs, va, parts := [(pa, bs.length)] }
  else s.remoteRead c va (.merge pa bs) [(pa, bs.length)] (linesOf [(pa, bs.length)]) [] []

/-- The first node among translated pieces that cannot be reached: failed, or with no usable port (R402, R435). -/
def State.unreachable (s : State) : List (Nat × Nat × Nat) → Option Nat
  | [] => none
  | (_, pa, _) :: rest =>
    match s.space pa with
    | .remote node _ => if s.nodeFailed node || (s.route 2 s.node node).isNone then some node else s.unreachable rest
    | _ => s.unreachable rest

/-! ## Stores -/

/-- Counts the poisoned words that a write of bytes [a, a + n) reads because it covers them in part (R35, R69). -/
def State.countPartial (s : State) (a n : Nat) : State :=
  let s1 := if n ≠ 0 ∧ (a % 8 ≠ 0 ∨ n < 8) then s.countFound a 1 else s
  if n ≠ 0 ∧ (a + n) % 8 ≠ 0 ∧ (a + n - 1) / 8 ≠ a / 8 then s1.countFound (a + n - 1) 1 else s1

/-- Writes bytes to the local space as a demand access (R35, R46, R66). -/
def State.demandWrite (s : State) (a : Nat) (bs : List Byte) (stp : Bool) : State :=
  ((s.countPartial a bs.length).touchRange a bs.length true true stp).devWrite a bs

/-- Stores bytes at a normalised physical address within one line for core `c`, and updates its held copies (R119). -/
def State.storeAt (s : State) (c va pa : Nat) (bs : List Byte) : State :=
  let k := s.core c
  let s1 := (s.setCore c (k.storeHeld k.ctx pa bs)).carry c pa bs.length
  match s.space pa with
  | .loc a => s1.demandWrite a bs (match s.translate k.ctx va true with | .ok _ _ stp => stp | .fault _ => false)
  | .host bus => s1.hostWrite bus bs
  | .remote _ _ => s1.remoteStore c va pa bs
  | _ => s1

/-- Stores a list of (virtual address, physical address, bytes). -/
def State.storeAll (s : State) (c : Nat) : List (Nat × Nat × List Byte) → State
  | [] => s
  | (va, pa, bs) :: rest => (s.storeAt c va pa bs).storeAll c rest

/-- The pieces of a store: translated pieces with their bytes, cut at lines. -/
def State.storePieces (s : State) : List (Nat × Nat × Nat) → List Byte → List (Nat × Nat × List Byte)
  | [], _ => []
  | (va, pa, n) :: rest, bs =>
    let p0 := s.norm pa
    (cutLines (n / 256 + 2) p0 n).map (fun q => (va + (q.1 - p0), q.1, ((bs.drop (q.1 - p0)).take q.2))) ++
      s.storePieces rest (bs.drop n)

/-- Whether a 64-bit word at an offset of an access holds a used byte; an offset below zero stands for 0. -/
def wordUsed (used : Nat → Bool) (off : Nat) : Bool := (List.range 8).any (fun i => used (off + i))

/-- A failed host-space read of a core (R503, R534). -/
def State.hostReadFault (s : State) (c : Nat) (f : AccFault) (bus : Nat) : State :=
  (s.hostReadError (s.core c).ctx bus).accFault c f false false

/-- The bytes of pieces that are not remote, as a memory keyed by physical address. -/
def keyed : List (Nat × Nat) → List Byte → Memory → Memory
  | [], _, m => m
  | (pa, n) :: rest, bs, m => keyed rest (bs.drop n) (Memory.setBytes m pa (bs.take n))

/-! ## Program order of accesses to one word (R87) -/

/-- Major opcode of a queued word. -/
def QEntry.op (e : QEntry) : Nat := bitsOf e.word.toNat 56 8

/-- Whether a queued word is a tile load or store, or a drain to the core store: an access of memory (R89, R213). -/
def QEntry.isMem (e : QEntry) : Bool := (0x40 ≤ e.op && e.op ≤ 0x42) || (e.op == 0x58 && tdDest e.word.toNat)

/-- Addresses of the rows of a tile load or store (R120, R200, R210). -/
def Core.rowAddrs (k : Core) (e : QEntry) : List Nat :=
  let w := e.word.toNat
  (List.range (shRows w)).map (fun r =>
    if e.op = 0x42 then (k.stream (tmStream w)).item (e.first + r)
    else ((e.vals.getD 0 0).toNat + r * (if shBlocked w then rowBytes w (shA w) else (e.vals.getD 1 0).toNat)) % 2 ^ 64)

/-- The virtual pieces of the rows of a tile load or store. -/
def Core.rowPieces (k : Core) (e : QEntry) : List (Nat × Nat) :=
  (k.rowAddrs e).flatMap (fun a => pagePieces a (rowBytes e.word.toNat (shA e.word.toNat)))

/-- The physical pieces virtual pieces touch; a piece that would fault touches none. -/
def State.touches (s : State) (ctx : Nat) (write : Bool) (l : List (Nat × Nat)) : List (Nat × Nat) :=
  l.flatMap (fun p => match s.translate ctx p.1 write with | .ok pa _ _ => [(s.norm pa, p.2)] | .fault _ => [])

/-- Whether two ranges have a 64-bit word in common. -/
def shareWord (a b : Nat × Nat) : Bool := decide (a.1 / 8 ≤ (b.1 + b.2 - 1) / 8) && decide (b.1 / 8 ≤ (a.1 + a.2 - 1) / 8)

/-- Whether two lists of ranges have a word in common. -/
def anyShared (xs ys : List (Nat × Nat)) : Bool := xs.any (fun x => ys.any (shareWord x))

/-- Whether an access through virtual addresses to physical pieces must wait for an earlier access of the core to one of
its words: a queued tile load or store, or a remote access in flight (R87). -/
def State.holdsWord (s : State) (c : Nat) (ps : List (Nat × Nat)) : Bool :=
  let k := s.core c
  k.remote.any (fun r => anyShared r.parts ps) ||
    k.queue.any (fun e => decide (0x40 ≤ e.op ∧ e.op ≤ 0x42) && anyShared (s.touches k.ctx (e.op == 0x41) (k.rowPieces e)) ps)

/-- Core-store offsets a queued drain to the core store writes (R207). -/
def QEntry.drainPieces (e : QEntry) : List (Nat × Nat) :=
  let w := e.word.toNat
  let n := rowBytes w (shA w)
  if e.op = 0x58 && tdDest w then (List.range (shRows w)).map (fun r =>
    (((e.vals.getD 0 0).toNat + r * (if shBlocked w then n else 128)) % 0x100000, n)) else []

/-- Whether a local access must wait for an earlier drain to the same words of the core store (R87). -/
def Core.holdsLocal (k : Core) (off n : Nat) : Bool := k.queue.any (fun e => anyShared e.drainPieces [(off, n)])

/-- Puts the held demand lines among those listed in front, each a hit; one with a parity error is dropped (R117). -/
def State.hitHeld (s : State) (c : Nat) : List Nat → State
  | [] => s
  | pa :: rest =>
    match (s.core c).demandLine? (s.core c).ctx pa with
    | none => s.hitHeld c rest
    | some l =>
      let r := s.lineHit c l
      (if r.1 then r.2.setCore c ((r.2.core c).putDemand l) else r.2).hitHeld c rest

/-- The poisoned words, by word number, at offsets within pieces. -/
def badWords : Nat → List (Nat × Nat) → List Nat → Store Bool
  | _, [], _ => []
  | off, (pa, n) :: rest, bad =>
    (bad.filter (fun o => decide (off ≤ o ∧ o < off + n))).foldl (fun m o => Store.set false m ((pa + o - off) / 8) true)
      (badWords (off + n) rest bad)

/-- Loads `n` bytes at a virtual address for core `c`: every fault is taken; a range with a remote part that no demand line holds
waits for its replies under `kind`; else `done` goes on with the bytes (R82, R95, R118, R188, R196). `used` says which bytes of the
access count for poison (R66). POISON_CONSUMED names the access's own address, with LEVEL 0xFF and ENTRY 0 (R86; assumption 67). -/
def State.vaLoad (s : State) (c va n : Nat) (kind : RemoteKind) (used : Nat → Bool)
    (done : List Byte → State → State) : State :=
  let ctx := (s.core c).ctx
  match s.xlateRange ctx va n false with
  | .error f => s.accFault c f false false
  | .ok ps =>
    match s.hostCheck ctx ps with
    | some (f, bus) => s.hostReadFault c f bus
    | none =>
      if s.holdsWord c (ps.map (fun p => (s.norm p.2.1, p.2.2))) then s else
      let s0 := s.keepPieces ctx (pagePieces va n)
      let parts := s0.byLines ps
      let far := linesOf (parts.filter (fun p => s0.isRemote p.1))
      let s1 := s0.hitHeld c far
      let asked := far.filter (fun a => ((s1.core c).demandLine? ctx a).isNone)
      let near := parts.filter (fun p => !asked.contains (p.1 - p.1 % 256))
      let r := s1.readLines c (s1.stpAt ctx ps) 0 near
      if near.length = parts.length then
        if r.2.1.any (wordUsed used) then r.2.2.accFault c { cause := 5, va := va % 2 ^ 64 } false false
        else done r.1 r.2.2
      else (r.2.2.advance c).remoteRead c va kind parts asked (keyed near r.1 []) (badWords 0 near r.2.1)

/-- Stores bytes at a virtual address for core `c` where `runs` lists (offset, bytes) to write; the whole range of `n`
bytes is translated first (R82, R85, R196). -/
def State.vaStore (s : State) (c va n : Nat) (runs : List (Nat × List Byte)) : State :=
  let ctx := (s.core c).ctx
  match s.xlateRange ctx va n true with
  | .error f => s.accFault c f true false
  | .ok ps =>
    if s.holdsWord c (ps.map (fun p => (s.norm p.2.1, p.2.2))) then s else
    let s0 := s.keepPieces ctx (pagePieces va n)
    match s0.unreachable ps with
    | some node => s0.coreTimeout c node 0
    | none =>
      (s0.advance c).storeAll c (runs.flatMap (fun r =>
        match s0.xlateRange ctx (va + r.1) r.2.length true with
        | .ok qs => s0.storePieces qs r.2
        | .error _ => []))

end Sys2Proof.Machine
end

