-- ==== Sys2Proof/Machine/Scalar.lean ====
section
/-! DEFINITION. The scalar instructions: arithmetic, system reads, branches, and scalar loads and stores (R184 to R191). -/

namespace Sys2Proof.Machine

open Sys2Proof

/-- Writes a scalar result and moves on. -/
def State.writeS (s : State) (c sd : Nat) (v : W64) : State := s.retire c (fun k => k.setS sd v)

/-- The major opcodes the instruction set lists (R183). -/
def majorOpcode (op : Nat) : Bool :=
  [0x01, 0x02, 0x04, 0x05, 0x06, 0x07, 0x08, 0x10, 0x11, 0x12, 0x13, 0x18, 0x19, 0x1A, 0x1B, 0x20, 0x21, 0x22, 0x23, 0x28, 0x29, 0x2A,
    0x2B, 0x2C, 0x2D, 0x2E, 0x40, 0x41, 0x42, 0x43, 0x50, 0x58, 0x59, 0x60, 0x61, 0x70, 0x71, 0x72, 0x78].contains op

/-- NOP has no effect (R219). The command is given the whole word: one whose major opcode is reserved raises ILLEGAL_OPCODE in D
(R179, R183); a word of another listed opcode is another command's and does nothing here. -/
def execNop (c : Nat) (w : W64) (s : State) : Host.Outcome State Fault Refusal :=
  let op := w.toNat / 2 ^ 56
  if op = 0x01 then issue c (w.setWidth 56) op 0xFFFFFFFFFFFFFF s (fun _ => s.advance c)
  else if majorOpcode op then .next s
  else issue c (w.setWidth 56) op 0 s (fun w => s.illegal c w)

/-- ALU (R184, R185). -/
def execAlu (c : Nat) (b : Body) (s : State) : Host.Outcome State Fault Refusal :=
  issue c b 0x04 0x7FFFFFFFF s (fun w =>
    let k := s.core c
    match aluFn (fnSreg w) (k.sreg (fA w)) (k.sreg (fB w)) with
    | none => s.illegal c w
    | some v => s.writeS c (fD w) v)

/-- ALUI (R184). -/
def execAlui (c : Nat) (b : Body) (s : State) : Host.Outcome State Fault Refusal :=
  issue c b 0x05 0 s (fun w =>
    if !aluiOk (fnSimm w) then s.illegal c w
    else match aluFn (fnSimm w) ((s.core c).sreg (fA w)) (immSimm w) with
      | none => s.illegal c w
      | some v => s.writeS c (fD w) v)

/-- MOVI (R186). -/
def execMovi (c : Nat) (b : Body) (s : State) : Host.Outcome State Fault Refusal :=
  issue c b 0x06 0 s (fun w => if fnSimm w ≠ 0 then s.illegal c w else s.writeS c (fD w) (immSimm w))

/-- MOVHI (R186): bits [63:40] replaced by IMM[23:0]; IMM[39:24] is reserved. -/
def execMovhi (c : Nat) (b : Body) (s : State) : Host.Outcome State Fault Refusal :=
  issue c b 0x07 0xFFFF000000 s (fun w =>
    if fnSimm w ≠ 0 then s.illegal c w
    else s.writeS c (fD w) (BitVec.ofNat 64 (putBits ((s.core c).sreg (fA w)).toNat 40 24 (bitsOf w 0 24))))

/-- Conversion statistic `n` of a core (R246); reserved numbers read as zero. -/
def ConvStats.read (x : ConvStats) : Nat → W64
  | 0 => BitVec.ofNat 64 x.elems | 1 => BitVec.ofNat 64 x.sqerr | 2 => BitVec.ofNat 64 x.sqval
  | 3 => BitVec.ofNat 64 x.sat | 4 => BitVec.ofNat 64 x.nonfinite | 5 => BitVec.ofNat 64 x.selvage
  | 6 => x.satcols | 7 => BitVec.ofNat 64 x.maxabs.toNat | 8 => BitVec.ofNat 64 x.drains | _ => 0

/-- Whether the tile queue holds a drain. -/
def Core.hasDrain (k : Core) : Bool := k.queue.any (fun e => bitsOf e.word.toNat 56 8 == 0x58)

/-- k of R24 for the Blocks of a core's half: CLK_STATUS (R555). -/
def State.blockK (s : State) (c : Nat) : Nat := s.fld 0x200C (4 * (c / 288)) 4

/-- RDSYS (R187); FN 0x04 waits until every earlier drain has completed. -/
def execRdsys (c : Nat) (b : Body) (s : State) : Host.Outcome State Fault Refusal :=
  issue c b 0x08 0x7FFFFFFFF s (fun w =>
    let k := s.core c
    match fnSreg w with
    | 0 => s.writeS c (fD w) (BitVec.ofNat 64 s.now)
    | 1 => s.writeS c (fD w) (BitVec.ofNat 64 c)
    | 2 => s.writeS c (fD w) (BitVec.ofNat 64 k.ctx)
    | 3 => s.writeS c (fD w) (BitVec.ofNat 64 (s.blockK c))
    | 4 => if k.hasDrain then s else s.writeS c (fD w) (k.stats.read ((k.sreg (fA w)).toNat % 32))
    | _ => s.illegal c w)

/-- Branches to (pc + off) modulo 2^20 when `taken`, else moves on (R190). -/
def State.branchIf (s : State) (c : Nat) (taken : Bool) (off : W64) : State :=
  let k := s.core c
  s.setCore c { k with
    pc := (if taken then (BitVec.ofNat 64 k.pc + off).toNat else k.pc + 8) % 0x100000, lastDone := s.now }

/-- BR (R190). -/
def execBr (c : Nat) (b : Body) (s : State) : Host.Outcome State Fault Refusal :=
  issue c b 0x10 0x3FFF00000 s (fun w =>
    let k := s.core c
    match brHolds (brCond w) (k.sreg (brA w)) (k.sreg (brB w)) with
    | none => s.illegal c w
    | some t => s.branchIf c t (brOff w))

/-- BRP (R190). -/
def execBrp (c : Nat) (b : Body) (s : State) : Host.Outcome State Fault Refusal :=
  issue c b 0x11 0x3FFF00000 s (fun w =>
    match brpHolds (brCond w) ((s.core c).preg (brP w)) with
    | none => s.illegal c w
    | some t => s.branchIf c t (brOff w))

/-- JAL (R190): the link register takes PC + 8 before the jump. -/
def execJal (c : Nat) (b : Body) (s : State) : Host.Outcome State Fault Refusal :=
  issue c b 0x12 0x3FFF00000 s (fun w =>
    if brCond w ≠ 0 then s.illegal c w
    else
      let k := s.core c
      s.setCore c { k.setS (brD w) (BitVec.ofNat 64 (k.pc + 8)) with
        pc := (BitVec.ofNat 64 k.pc + brOff w).toNat % 0x100000, lastDone := s.now })

/-- JALR (R190, R191): a target whose bits [2:0] are not zero faults before sd is written. -/
def execJalr (c : Nat) (b : Body) (s : State) : Host.Outcome State Fault Refusal :=
  issue c b 0x13 0x3FFF00000 s (fun w =>
    if brCond w ≠ 0 then s.illegal c w
    else
      let k := s.core c
      let t := (k.sreg (brA w) + brOff w).toNat % 0x100000
      if t % 8 ≠ 0 then s.misaligned c t w
      else s.setCore c { k.setS (brD w) (BitVec.ofNat 64 (k.pc + 8)) with pc := t, lastDone := s.now })

/-- The core-store offset of a local access (R188, R196). -/
def localOff (k : Core) (w : Nat) : Nat := (k.sreg (fA w) + immMem w).toNat % 0x100000
/-- The virtual address of an access through a virtual address (R188, R196). -/
def virtAddr (k : Core) (w : Nat) : Nat := (k.sreg (fA w) + immMem w).toNat

/-- LDL (R108, R188). -/
def execLdl (c : Nat) (b : Body) (s : State) : Host.Outcome State Fault Refusal :=
  issue c b 0x18 0x7FF00000000 s (fun w =>
    let off := localOff (s.core c) w
    let n := smSize w
    if off % n ≠ 0 then s.misaligned c off w
    else if (s.core c).holdsLocal off n then s
    else if s.isPoisoned (csAddr c off) then s.localPoison c (off - off % 8) 8
    else s.writeS c (fD w) (extend n (smSx w) (s.csRead c off n)))

/-- Stores bytes to the core's own store and updates its held copies (R108, R119). -/
def State.localStore (s : State) (c off : Nat) (bs : List Byte) : State :=
  let k := s.core c
  ((s.setCore c (k.storeHeld k.ctx (csAddr c off) bs)).countPartial (csAddr c off) bs.length).csWrite c off bs

/-- STL (R108, R188); a part of a poisoned word leaves it poisoned (R66). -/
def execStl (c : Nat) (b : Body) (s : State) : Host.Outcome State Fault Refusal :=
  issue c b 0x19 0x7FF00000000 s (fun w =>
    let k := s.core c
    let off := localOff k w
    let n := smSize w
    if off % n ≠ 0 then s.misaligned c off w
    else if k.holdsLocal off n then s
    else (s.localStore c off (natLE n (k.sreg (fD w)).toNat)).advance c)

/-- LD (R188). -/
def execLd (c : Nat) (b : Body) (s : State) : Host.Outcome State Fault Refusal :=
  issue c b 0x1A 0x7FF00000000 s (fun w =>
    let va := virtAddr (s.core c) w
    let n := smSize w
    s.vaLoad c va n (.load (fD w) n (smSx w)) (fun _ => true)
      (fun bs t => t.writeS c (fD w) (extend n (smSx w) (leNat bs))))

/-- ST (R188). -/
def execSt (c : Nat) (b : Body) (s : State) : Host.Outcome State Fault Refusal :=
  issue c b 0x1B 0x7FF00000000 s (fun w =>
    let k := s.core c
    let n := smSize w
    s.vaStore c (virtAddr k w) n [(0, natLE n (k.sreg (fD w)).toNat)])

end Sys2Proof.Machine
end

