-- ==== Sys2Proof/Machine/Vector.lean ====
section
/-! DEFINITION. The vector and predicate instructions, the vector loads and stores and the row moves (R139 to R141, R192 to
R198). -/

namespace Sys2Proof.Machine

open Sys2Proof

/-- The 64 lanes of a vector register. -/
def Core.vlanes (k : Core) (n : Nat) : List W32 := (List.range 64).map (k.vlane n)

/-- Writes the lanes whose mask bit is 1; the others keep their value (R139). -/
def Core.setLanes (k : Core) (n : Nat) (mask : W64) (xs : List W32) : Core :=
  ((List.range 64).zip xs).foldl (fun (k : Core) p => if mask.getLsbD p.1 then k.setV n p.1 p.2 else k) k

/-- The second operand of a vector instruction: vb, or with BS the low half of sb in every lane (R181). -/
def Core.vsecond (k : Core) (w i : Nat) : W32 :=
  if vrBs w then (k.sreg (fB w)).setWidth 32 else k.vlane (fB w) i

/-- Whether a drain in the queue adds vector register `n` as bias (R198); `cfg` is the configuration in force before the
queue's first entry. -/
def biasUsed (n : Nat) : DrainCfg → List QEntry → Bool
  | _, [] => false
  | cfg, e :: es =>
    let op := bitsOf e.word.toNat 56 8
    if op = 0x59 then biasUsed n (tcCfg e.word.toNat) es
    else if op = 0x58 ∧ cfg.bias ∧ cfg.vb = n then true
    else biasUsed n cfg es

/-- Whether an instruction that writes vector register `n` must wait for an earlier drain (R198). -/
def Core.biasHolds (k : Core) (n : Nat) : Bool := biasUsed n k.dcfg k.queue

/-- VOP (R192). -/
def execVop (c : Nat) (b : Body) (s : State) : Host.Outcome State Fault Refusal :=
  issue c b 0x20 0x3FFFFFF s (fun w =>
    let k := s.core c
    if (laneFn (vrFn w) 0 0 0 false 0).isNone then s.illegal c w
    else if k.biasHolds (fD w) then s
    else
      let sel := k.preg (fC w % 8)
      let res := (List.range 64).map (fun i =>
        (laneFn (vrFn w) (k.vlane (fA w) i) (k.vsecond w i) (k.vlane (fC w) i) (sel.getLsbD i) i).getD 0)
      s.retire c (fun k => k.setLanes (fD w) (k.preg (vrPg w)) res))

/-- A predicate with the bits of a mask replaced. -/
def blend (old mask new : W64) : W64 := (old &&& ~~~mask) ||| (new &&& mask)

/-- The predicate whose bit i is `f i`. -/
def predOf (f : Nat → Bool) : W64 := BitVec.ofNat 64 ((List.range 64).map (fun i => b2n (f i) * 2 ^ i)).sum

/-- VCMP (R193); VD[4:3] must be zero. -/
def execVcmp (c : Nat) (b : Body) (s : State) : Host.Outcome State Fault Refusal :=
  issue c b 0x21 0xC0000003FFFFFF s (fun w =>
    let k := s.core c
    if (cmpFn (vrFn w) 0 0).isNone then s.illegal c w
    else
      let res := predOf (fun i => (cmpFn (vrFn w) (k.vlane (fA w) i) (k.vsecond w i)).getD false)
      s.retire c (fun k => k.setP (fD w % 8) (blend (k.preg (fD w % 8)) (k.preg (vrPg w)) res)))

/-- VRED (R194). -/
def execVred (c : Nat) (b : Body) (s : State) : Host.Outcome State Fault Refusal :=
  issue c b 0x22 0x3FFFFFF s (fun w =>
    let k := s.core c
    match redFn (vrFn w) with
    | none => s.illegal c w
    | some (f, e) =>
      let pg := k.preg (vrPg w)
      let xs := (List.range 64).map (fun i => if pg.getLsbD i then k.vlane (fA w) i else e)
      s.writeS c (fD w) (BitVec.ofNat 64 (tree64 f xs).toNat))

/-- Bits a PLOG word must leave zero: the reserved ones and the upper two of every field that names a predicate; FN 0x05 reads
VA and FN 0x06 reads VD as a scalar register (R195). -/
def plogZero (b : Body) : Nat :=
  0x300003FFFFFF + (if vrFn b.toNat = 6 then 0 else 0xC0000000000000) + (if vrFn b.toNat = 5 then 0 else 0x6000000000000)

/-- PLOG (R195). -/
def execPlog (c : Nat) (b : Body) (s : State) : Host.Outcome State Fault Refusal :=
  issue c b 0x23 (plogZero b) s (fun w =>
    let k := s.core c
    let fn := vrFn w
    if fn ≤ 4 then s.retire c (fun k => k.setP (fD w % 8) (plogFn fn (k.preg (fA w % 8)) (k.preg (fB w % 8))))
    else if fn = 5 then s.retire c (fun k => k.setP (fD w % 8) (k.sreg (fA w)))
    else if fn = 6 then s.writeS c (fD w) (k.preg (fA w % 8))
    else s.illegal c w)

/-- The 64 lanes of a 256-byte line. -/
def lanesOf (bs : List Byte) : List W32 :=
  (List.range 64).map (fun i => BitVec.ofNat 32 (leNat ((bs.drop (4 * i)).take 4)))

/-- Whether byte `off` of a line lies in an enabled lane. -/
def laneUsed (mask : W64) (off : Nat) : Bool := mask.getLsbD (off / 4)

/-- VLD (R140, R196). -/
def execVld (c : Nat) (b : Body) (s : State) : Host.Outcome State Fault Refusal :=
  issue c b 0x28 0xFF00000000 s (fun w =>
    let k := s.core c
    let va := virtAddr k w
    let pg := k.preg (vmPg w)
    if va % 256 ≠ 0 then s.misaligned c va w
    else if k.biasHolds (fD w) then s
    else s.vaLoad c va 256 (.vload (fD w) pg 0 0) (laneUsed pg)
      (fun bs t => t.retire c (fun k => k.setLanes (fD w) pg (lanesOf bs))))

/-- The runs a masked vector store writes: a whole 64-bit word where both its lanes are enabled, else one lane. -/
def laneRuns (mask : W64) (xs : List W32) : List (Nat × List Byte) :=
  if mask = BitVec.allOnes 64 then [(0, xs.flatMap (fun x => natLE 4 x.toNat))]
  else (List.range 32).flatMap (fun i =>
    let lo := (xs.getD (2 * i) 0).toNat
    let hi := (xs.getD (2 * i + 1) 0).toNat
    match mask.getLsbD (2 * i), mask.getLsbD (2 * i + 1) with
    | true, true => [(8 * i, natLE 4 lo ++ natLE 4 hi)]
    | true, false => [(8 * i, natLE 4 lo)]
    | false, true => [(8 * i + 4, natLE 4 hi)]
    | false, false => [])

/-- VST (R140, R196). -/
def execVst (c : Nat) (b : Body) (s : State) : Host.Outcome State Fault Refusal :=
  issue c b 0x29 0xFF00000000 s (fun w =>
    let k := s.core c
    let va := virtAddr k w
    if va % 256 ≠ 0 then s.misaligned c va w
    else s.vaStore c va 256 (laneRuns (k.preg (vmPg w)) (k.vlanes (fD w))))

/-- Offset within a core-store range of the first poisoned word in which a used byte lies. -/
def State.csPoison (s : State) (c off n : Nat) (used : Nat → Bool) : Option Nat :=
  ((List.range (n / 8)).map (fun i => 8 * i)).find? (fun o => s.isPoisoned (csAddr c (off + o)) && wordUsed used o)

/-- VLDL (R196). -/
def execVldl (c : Nat) (b : Body) (s : State) : Host.Outcome State Fault Refusal :=
  issue c b 0x2A 0xFF00000000 s (fun w =>
    let k := s.core c
    let off := localOff k w
    let pg := k.preg (vmPg w)
    if off % 256 ≠ 0 then s.misaligned c off w
    else if k.biasHolds (fD w) || k.holdsLocal off 256 then s
    else match s.csPoison c off 256 (laneUsed pg) with
      | some o => s.localPoisonAt c off 256 o
      | none => (s.countLocal c off 256).retire c (fun k => k.setLanes (fD w) pg (lanesOf (natLE 256 (s.csRead c off 256)))))

/-- VSTL (R196). -/
def execVstl (c : Nat) (b : Body) (s : State) : Host.Outcome State Fault Refusal :=
  issue c b 0x2B 0xFF00000000 s (fun w =>
    let k := s.core c
    let off := localOff k w
    if off % 256 ≠ 0 then s.misaligned c off w
    else if k.holdsLocal off 256 then s
    else
      let s1 := (laneRuns (k.preg (vmPg w)) (k.vlanes (fD w))).foldl
        (fun (t : State) r => t.localStore c (off + r.1) r.2) s
      s1.advance c)

/-! ## Row moves (R197) -/

/-- Tile registers a queued word of core `c` reads and writes; `cfg` is the drain configuration in force. Operand fields of
group members that do not feed create no hazard (R163). -/
def tileUses (c : Nat) (cfg : DrainCfg) (w : Nat) (maskNonzero : Bool) : List Nat × List Nat :=
  match bitsOf w 56 8 with
  | 0x40 => ([], [tmT w])
  | 0x41 => ([tmT w], [])
  | 0x42 => ([], [tmT w])
  | 0x43 => ([], maskRegs (ctMask w))
  | 0x50 =>
    let g := stitchShape (shStitch w)
    ((if coreCol c % g.2 = 0 then taA w :: (if taScl w then [taSa w] else []) else []) ++
      (if coreRow c % g.1 = 0 then taB w :: (if taScl w then [taSb w] else []) else []), [])
  | 0x58 =>
    ((if 0x20 ≤ cfg.func then [cfg.side] else []),
     (if tdDest w then [] else [tdT w]) ++ (if maskNonzero then [tdSel w] else []) ++
       (if cfg.outMx || shA w == 11 then [tdSo w] else []))
  | _ => ([], [])

/-- Tile registers a queue entry reads and writes. -/
def entryUses (c : Nat) (cfg : DrainCfg) (e : QEntry) : List Nat × List Nat :=
  tileUses c cfg e.word.toNat (e.vals.getD 1 0 != 0)

/-- Whether an entry of the queue uses tile register `t`, with DCFG followed in program order (R106, R205). -/
def queueUses (c t : Nat) : DrainCfg → List QEntry → Bool
  | _, [] => false
  | cfg, e :: es =>
    if bitsOf e.word.toNat 56 8 = 0x59 then queueUses c t (tcCfg e.word.toNat) es
    else
      let u := entryUses c (if e.st = .started then e.cfg else cfg) e
      u.1.contains t || u.2.contains t || queueUses c t cfg es

/-- The format of a row move (R116 settles reserved codes in D). -/
def vwFormat (w : Nat) : ElemFmt := (ElemFmt.ofCode (vwFmt w)).getD .fp32

/-- Element `n` of a row as FP32 bits; integer and pixel codes convert exactly (R197). -/
def rowToLane (f : ElemFmt) (row n : Nat) : W32 := f32of (f.val (rowElem row f.bits n))

/-- TROWR (R197). -/
def execTrowr (c : Nat) (b : Body) (s : State) : Host.Outcome State Fault Refusal :=
  issue c b 0x2D 0xFFFFFFFF s (fun w =>
    let k := s.core c
    if vrowShapeBad w then s.shapeFault c w
    else if queueUses c (vwT w) k.dcfg k.queue || k.biasHolds (fD w) then s
    else
      let f := vwFormat w
      let row := k.trow (vwT w) (vwRow w)
      let xs := (List.range 64).map (fun i =>
        let n := 64 * vwQtr w + i
        if n < rowCapacity (vwFmt w) then rowToLane f row n else 0)
      s.retire c (fun k => k.setLanes (fD w) (k.preg (vwPg w)) xs))

/-- The code a lane becomes in a row move: to nearest, saturating, with the canonical NaN (R197, R225, R236, R237). -/
def laneToCode (f : ElemFmt) (x : W32) : Nat := (convert f .near false false (f32v x)).code

/-- The row with lanes converted into its elements; lanes beyond the capacity or not enabled write nothing (R197). -/
def lanesToRow (f : ElemFmt) (cap qtr : Nat) (pg : W64) (row : Nat) (xs : List W32) : Nat :=
  ((List.range 64).zip xs).foldl (fun r p =>
    let n := 64 * qtr + p.1
    if pg.getLsbD p.1 && decide (n < cap) then setRowElem r f.bits n (laneToCode f p.2) else r) row

/-- A tile register about to be written: it becomes live, a register that was dead starts with zero rows (R112, R114). -/
def Core.liven (k : Core) (n : Nat) : Core :=
  if k.isLive n then k
  else { k with live := k.live ||| BitVec.ofNat 16 (2 ^ n), t := Store.keep (fun i => i / 64 != n) k.t }

/-- Writes a whole 128-byte row of tile register `n`, which becomes live. -/
def Core.setRow (k : Core) (n r v : Nat) : Core :=
  let k1 := k.liven n
  { k1 with t := Store.set 0 k1.t (64 * n + r) (BitVec.ofNat 1024 v) }

/-- A tile register about to be written becomes live (R112). What it held before it died is lost: its rows are free values
unless its bank has been gated since (R114). -/
def State.livenTile (s : State) (c n : Nat) : State :=
  let k := s.core c
  if k.isLive n then s
  else
    let k1 := k.liven n
    if k.dirty.getLsbD n then
      let t := Store.setAll 0 k1.t (64 * n) ((List.range 64).map (fun r => BitVec.ofNat 1024 (Config.freeNat (s.free + r))))
      { s with free := s.free + 64 }.setCore c { k1 with t, dirty := k1.dirty &&& ~~~ BitVec.ofNat 16 (2 ^ n) }
    else s.setCore c k1

/-- A write of tile register `n` asks its bank to be awake: the request wakes a gated bank (R113). -/
def Core.wakeBank (k : Core) (n : Nat) : Core :=
  if k.bank (n / 4) = .gated then { k with power := Store.set .gated k.power (n / 4) .waking } else k

/-- Whether the bank of tile register `n` can be written (R113). -/
def Core.bankReady (k : Core) (n : Nat) : Bool := k.bank (n / 4) == .awake

/-- TROWW (R197): it waits for its bank to be awake, after asking for it (R113). -/
def execTroww (c : Nat) (b : Body) (s : State) : Host.Outcome State Fault Refusal :=
  issue c b 0x2E 0xFFFFFFFF s (fun w =>
    let k := s.core c
    if vrowShapeBad w then s.shapeFault c w
    else if queueUses c (vwT w) k.dcfg k.queue then s
    else if !k.bankReady (vwT w) then s.setCore c (k.wakeBank (vwT w))
    else
      (s.livenTile c (vwT w)).retire c (fun k =>
        k.setRow (vwT w) (vwRow w) (lanesToRow (vwFormat w) (rowCapacity (vwFmt w)) (vwQtr w) (k.preg (vwPg w))
          (k.trow (vwT w) (vwRow w)) (k.vlanes (fD w)))))

end Sys2Proof.Machine
end

