-- ==== Sys2Proof/Machine/ArrayOps.lean ====
section
/-! DEFINITION. The arithmetic of the cell array (R143 to R148, R231 to R234) and its sequence tags (R256, R257). -/

namespace Sys2Proof.Machine

open Sys2Proof

/-- An FP32 sum of the array: IEEE 754 addition of an exact value, a magnitude below 2^-126 after rounding written as zero
with the sign of the exact result (R232, R233). -/
def arraySum (acc : W32) (x : Fv) : W32 :=
  let v := Fv.add (f32v acc) x
  let r := f32of v
  if r.toNat % 2 ^ 31 < 0x800000 then (if v.isNeg then 0x80000000 else 0) else r

/-- The element format a code names; reserved codes never reach the array (R116). -/
def fmtOf (c : Nat) : ElemFmt := (ElemFmt.ofCode c).getD .fp32

/-- The value of element `k` of an operand row as the array reads it: its own format, subnormals of BF16 and FP16 as zero
(R231), MX INT8 as code × 2^-6 (R227). -/
def operandVal (fmt : Nat) (kind : ScaleKind) (row k : Nat) : Fv :=
  let f := fmtOf fmt
  scaledElemVal f kind (f.arrayVal (rowElem row f.bits k))

/-- The exact sum of the products of elements `k` to `k + n - 1` below `cols` (R145). -/
def dotVal (fa fb : Nat) (kind : ScaleKind) (ra rb k n cols : Nat) : Fv :=
  Fv.sum (((List.range n).filter (fun i => decide (k + i < cols))).map
    (fun i => Fv.mul (operandVal fa kind ra (k + i)) (operandVal fb kind rb (k + i))))

/-- The integer products of a row pair (classes 2I and 4I). -/
def intDot (fa fb ra rb cols : Nat) : Int :=
  ((List.range cols).map (fun k =>
    let v := fun (c row : Nat) => match fmtOf c with
      | .int8 => twos 8 (rowElem row 8 k)
      | .int4 => twos 4 (rowElem row 4 k)
      | _ => ((rowElem row 8 k : Nat) : Int)
    v fa ra * v fb rb)).foldl (· + ·) 0

/-- Scale code of block `b` in a scale-tile row (R229). -/
def scaleCode (row b : Nat) : Nat := bitsOf row (16 * b) 8
/-- Tag of block `b` in a scale-tile row (R229). -/
def scaleTag (row b : Nat) : Nat := bitsOf row (16 * b + 8) 6

/-- What one cell computes: the start sum plus the products of a row of A and a row of B, in increasing steps, or blocks
with their scales (R143, R203, R232). -/
def cellSum (w : Nat) (start : W32) (ra rb sa sb : Nat) : W32 :=
  let cols := shCols w
  let cls := arrayClass (shA w)
  if taScl w then
    let kind := scaleKindOf (shA w)
    let n := kind.block
    (List.range (cols / n)).foldl (fun acc b =>
      let part := dotVal (shA w) (shB w) kind ra rb (n * b) n cols
      arraySum acc (Fv.mul (Fv.mul part (kind.val (scaleCode sa b))) (kind.val (scaleCode sb b)))) start
  else if cls = 3 ∨ cls = 6 then start + BitVec.ofInt 32 (intDot (shA w) (shB w) ra rb cols)
  else
    let n := classStep cls
    (List.range (ceilDiv cols n)).foldl (fun acc t => arraySum acc (dotVal (shA w) (shB w) .none ra rb (n * t) n cols)) start

/-- The bank of one member after an array instruction: rows 0 to rows - 1, all 64 columns (R143). `ka` and `kb` are the
cores that feed A and B, `wa` and `wb` the words they dispatched. -/
def mmaBank (k ka kb : Core) (w wa wb rows : Nat) : Store W32 :=
  let bank := taBank w
  (List.range rows).foldl (fun acc i =>
    (List.range 64).foldl (fun acc j =>
      let start := if taClr w then 0 else k.accAt bank i j
      Store.set 0 acc (4096 * bank + 64 * i + j)
        (cellSum w start (ka.trow (taA wa) i) (kb.trow (taB wb) j) (ka.trow (taSa wa) i) (kb.trow (taSb wb) j))) acc) k.acc

/-- Blocks of an instruction (R256). -/
def blockCount (w : Nat) : Nat := shCols w / (scaleKindOf (shA w)).block

/-- Steps per block: 16 for MX of 8 bits and 6 bits, 8 for MX FP4, 4 for FB4 (R257). -/
def stepsPerBlock (w : Nat) : Nat := if shA w = 11 then 4 else if shA w = 7 then 8 else 16

/-- The tag an instruction's first block expects (R256). -/
def tagStart (k : Core) (w : Nat) : Nat := if taClr w then 0 else k.tagOf (taBank w)

/-- The tag counter after an instruction completes (R256). -/
def tagAfter (k : Core) (w : Nat) : Nat :=
  if taScl w then (tagStart k w + blockCount w) % 64 else if taClr w then 0 else k.tagOf (taBank w)

/-- A skewed block: the feeding core, the step, the side (0 row, 1 column) and the Bobbin number (R257). -/
structure Skew where
  core : Nat
  step : Nat
  side : Nat
  bobbin : Nat
  deriving DecidableEq, Repr

/-- The first skewed Bobbin of one block on one side: sources are (core, its state, scale tile, rows), in group order. -/
def skewSide (want b side step : Nat) : List (Nat × Core × Nat × Nat) → Option Skew
  | [] => none
  | (c, k, tile, rows) :: rest =>
    match (List.range rows).find? (fun n => scaleTag (k.trow tile n) b != want) with
    | some n => some ⟨c, step, side, n⟩
    | none => skewSide want b side step rest

/-- The first skewed block by step, row Bobbins before column Bobbins, lower numbers first (R257). -/
def skewFrom (w start : Nat) (as bs : List (Nat × Core × Nat × Nat)) : Nat → Nat → Option Skew
  | 0, _ => none
  | fuel + 1, b =>
    let want := (start + b) % 64
    let step := b * stepsPerBlock w
    match skewSide want b 0 step as with
    | some x => some x
    | none => match skewSide want b 1 step bs with
      | some x => some x
      | none => skewFrom w start as bs fuel (b + 1)

/-- The skew of an instruction, none without block scales (R146, R257). -/
def skewOf (w start : Nat) (as bs : List (Nat × Core × Nat × Nat)) : Option Skew :=
  if taScl w then skewFrom w start as bs (blockCount w) 0 else none

/-- INFO of SCALE_SKEW (R221). -/
def Skew.info (x : Skew) : Nat := x.step % 2 ^ 16 + x.side * 2 ^ 16 + x.bobbin * 2 ^ 17

end Sys2Proof.Machine
end

