-- ==== Sys2Proof/Machine/DrainOps.lean ====
section
/-! DEFINITION. The drain: its stages on one row and its effect on tiles, core store and statistics (R158, R205 to R208,
R235 to R249, R262 to R264). -/

namespace Sys2Proof.Machine

open Sys2Proof

/-- How the destination's block scales are formed (R238, R239). -/
def drainScale (cfg : DrainCfg) (w : Nat) : ScaleKind := if shA w = 11 then .fb4 else if cfg.outMx then .mx else .none

/-- Stages 1 to 5 of one element: bank word, other bank's word, bias and side operand (R158). -/
def drainElem (cfg : DrainCfg) (w : Nat) (scale : Option W32) (x other bias side : W32) : W32 :=
  let a := if shB w = 8 then f32ofInt x.toInt else x
  let a := if tdMerge w then f32add a other else a
  let a := match scale with | none => a | some m => f32mul a m
  let a := if cfg.bias then f32add a bias else a
  if cfg.func < 0x20 then drainForward cfg.func a else drainDerivative cfg.func a side

/-- What a drain accumulates over its rows. -/
structure DrainAcc where
  gens : Store W32
  stats : ConvStats
  deriving DecidableEq, Repr

/-- One converted element and what it adds to its row: the code, the error and the value for the squares. -/
structure DrainCell where
  code : Nat := 0
  err2 : W32 := 0
  val2 : W32 := 0
  deriving DecidableEq, Repr

/-- Conversion and statistics of one element of column `j` under its block's scale (R236 to R247). -/
def drainConvert (cfg : DrainCfg) (w : Nat) (sc : Nat × Bool) (acc : DrainAcc) (j : Nat) (y : W32) : DrainCell × DrainAcc :=
  let f := fmtOf (shA w)
  let k := drainScale cfg w
  let g := if cfg.stochastic then xorshift (Store.get 0 acc.gens j) else Store.get 0 acc.gens j
  let rm := if cfg.stochastic then RoundMode.rand (g.toNat / 2 ^ 16) else .near
  let yv := f32v y
  let cv := if k = .none then convert f rm cfg.nfmode false yv else convertScaled f k rm cfg.nfmode sc yv
  let d := decodeScaled f k sc.1 cv.code
  let fin := yv.isFin && d.isFin
  let e := f32of (Fv.sub d yv)
  let st := acc.stats
  let st1 := { st with
    elems := satAdd (2 ^ 64 - 1) st.elems 1
    sat := satAdd (2 ^ 64 - 1) st.sat (b2n cv.sat)
    nonfinite := satAdd (2 ^ 64 - 1) st.nonfinite (b2n cv.nf)
    satcols := if cv.sat then st.satcols ||| BitVec.ofNat 64 (2 ^ j) else st.satcols
    maxabs := if yv.isFin && decide (st.maxabs.toNat < y.toNat % 2 ^ 31) then BitVec.ofNat 32 (y.toNat % 2 ^ 31) else st.maxabs }
  ({ code := cv.code, err2 := if fin then f32mul e e else 0, val2 := if fin then f32mul y y else 0 },
   { gens := Store.set 0 acc.gens j g, stats := st1 })

/-- Conversion of the columns listed, in order; Selvage columns hold the code of zero and count in SELVAGE only (R249). -/
def drainCols (cfg : DrainCfg) (w : Nat) (mask : W64) (ys : List W32) (scales : List (Nat × Bool)) :
    List Nat → DrainAcc → List DrainCell × DrainAcc
  | [], acc => ([], acc)
  | j :: js, acc =>
    let r := if mask.getLsbD j then
        ({}, { acc with stats := { acc.stats with selvage := satAdd (2 ^ 64 - 1) acc.stats.selvage 1 } })
      else drainConvert cfg w (scales.getD (j / (drainScale cfg w).block) (0, false)) acc j (ys.getD j 0)
    let rest := drainCols cfg w mask ys scales js r.2
    (r.1 :: rest.1, rest.2)

/-- What a drain writes for one row. -/
structure DrainRow where
  /-- the row bytes as a little-endian number -/
  main : Nat
  /-- Selvage values, BF16 -/
  selvage : List Nat
  /-- scale entries: code and tag -/
  scales : List (Nat × Nat)
  deriving DecidableEq, Repr

/-- Stages 1 to 8 of row `r` (R158). `sc` is the register named by SC, none for SC = 0. -/
def drainRow (k : Core) (cfg : DrainCfg) (w : Nat) (mask : W64) (sc : Option W64) (acc : DrainAcc) (r : Nat) :
    DrainRow × DrainAcc :=
  let cols := shCols w
  let bank := taBank w
  let ys := (List.range cols).map (fun j =>
    drainElem cfg w (sc.map (fun x => x.setWidth 32)) (k.accAt bank r j) (k.accAt (1 - bank) r j) (k.vlane cfg.vb j)
      (f32of (ElemFmt.bf16.val (rowElem (k.trow cfg.side r) 16 j))))
  let kind := drainScale cfg w
  let f := fmtOf (shA w)
  let scales := if kind = .none then [] else
    (List.range (cols / kind.block)).map (fun b =>
      blockScale f kind cfg.nfmode
        ((((List.range kind.block).map (fun i => kind.block * b + i)).filter (fun j => !mask.getLsbD j)).map
          (fun j => f32v (ys.getD j 0))))
  let cells := drainCols cfg w mask ys scales (List.range cols) acc
  let row := ((List.range cols).zip cells.1).foldl (fun x p => setRowElem x f.bits p.1 p.2.code) 0
  let pad := fun (g : DrainCell → W32) => (cells.1.map g) ++ List.replicate (64 - cols) 0
  let st := cells.2.stats
  let st1 := { st with
    sqerr := f64add st.sqerr (f64of32 (tree64 f32add (pad DrainCell.err2)))
    sqval := f64add st.sqval (f64of32 (tree64 f32add (pad DrainCell.val2))) }
  let tag := match sc with | none => 0 | some x => bitsOf x.toNat 32 6
  ({ main := row
     selvage := ((List.range cols).filter (fun j => mask.getLsbD j)).map (fun j => Fmt.bf16.enc (f32v (ys.getD j 0)))
     scales := scales.zipIdx.map (fun p => (p.1.1, (tag + p.2) % 64)) },
   { cells.2 with stats := st1 })

/-- Rows `r` to `r + n - 1` of a drain. -/
def drainRows (k : Core) (cfg : DrainCfg) (w : Nat) (mask : W64) (sc : Option W64) : Nat → Nat → DrainAcc → List DrainRow × DrainAcc
  | 0, _, acc => ([], acc)
  | n + 1, r, acc =>
    let x := drainRow k cfg w mask sc acc r
    let y := drainRows k cfg w mask sc n (r + 1) x.2
    (x.1 :: y.1, y.2)

/-- A tile row with its first `n` bytes replaced (R116, R241, R249). -/
def Core.setRowBytes (k : Core) (t r n v : Nat) : Core := k.setRow t r (putBits (k.trow t r) 0 (8 * n) v)

/-- Selvage values of a row as bytes in a number. -/
def packed16 (xs : List Nat) : Nat := (xs.zipIdx.map (fun p => p.1 % 2 ^ 16 * 2 ^ (16 * p.2))).sum
/-- Scale entries of a row as bytes in a number (R229). -/
def packedScales (xs : List (Nat × Nat)) : Nat :=
  (xs.zipIdx.map (fun p => (p.1.1 % 2 ^ 8 + p.1.2 % 64 * 2 ^ 8) * 2 ^ (16 * p.2))).sum

/-- Tile registers a drain writes: TD, TSEL with a non-zero mask, TSO for block scales (R208). -/
def drainDests (cfg : DrainCfg) (w : Nat) (mask : W64) : List Nat :=
  (if tdDest w then [] else [tdT w]) ++ (if mask = 0 then [] else [tdSel w]) ++
    (if drainScale cfg w = .none then [] else [tdSo w])

/-- Whether a list has a repeat. -/
def hasRepeat : List Nat → Bool
  | [] => false
  | x :: xs => xs.contains x || hasRepeat xs

/-- SHAPE_FAULT of a drain at the drain path (R208). -/
def drainUnitBad (cfg : DrainCfg) (w : Nat) (mask : W64) : Bool :=
  (cfg.outMx && !(mxFormat (shA w))) ||
    (drainScale cfg w != .none && shCols w % (drainScale cfg w).block != 0) ||
    hasRepeat (drainDests cfg w mask) ||
    (decide (0x20 ≤ cfg.func) && (drainDests cfg w mask).contains cfg.side)

/-- Writes the tile registers of a drained row. -/
def Core.writeDrained (k : Core) (cfg : DrainCfg) (w : Nat) (mask : W64) (r : Nat) (x : DrainRow) : Core :=
  let k1 := if tdDest w then k else k.setRowBytes (tdT w) r (rowBytes w (shA w)) x.main
  let k2 := if mask = 0 then k1 else k1.setRowBytes (tdSel w) r (2 * x.selvage.length) (packed16 x.selvage)
  if drainScale cfg w = .none then k2 else k2.setRowBytes (tdSo w) r (2 * x.scales.length) (packedScales x.scales)

end Sys2Proof.Machine
end

