-- ==== Sys2Proof/Machine/TileOps.lean ====
section
/-! DEFINITION. What the tile queue shares: entering, hazards, tile loads in their data phase, and abandoning (R105, R106, R121
to R125, R129, R163 to R170). -/

namespace Sys2Proof.Machine

open Sys2Proof

/-! ## The queue -/

/-- Puts a word into the tile queue with the scalar values it names and moves past it; a full queue stalls issue (R105). -/
def State.enqueue (s : State) (c w first : Nat) (vals : List W64) (f : Core → Core) : State :=
  let k := s.core c
  if 8 ≤ k.queue.length then s
  else s.setCore c { f k with
    queue := k.queue ++ [{ word := BitVec.ofNat 64 w, pc := k.pc, vals, first }], pc := (k.pc + 8) % 0x100000 }

/-- The unit of a queued word: load/store 0, array 1, drain path 2 (R105). -/
def QEntry.unit (e : QEntry) : Nat := if e.op = 0x50 then 1 else if e.op = 0x58 ∨ e.op = 0x59 then 2 else 0

/-- Replaces entry `i` of the queue. -/
def Core.setEntry (k : Core) (i : Nat) (e : QEntry) : Core := { k with queue := k.queue.set i e }

/-- Removes entry `i` of the queue, which completed now. -/
def Core.dropEntry (k : Core) (i now : Nat) : Core := { k with queue := k.queue.eraseIdx i, lastDone := now }

/-- Index of the first entry of a unit. -/
def Core.firstOf (k : Core) (unit : Nat) : Option Nat := k.queue.findIdx? (fun e => e.unit == unit)

/-- Accumulator banks a word reads and writes (R106, R157, R160). -/
def bankUses (w : Nat) : List Nat × List Nat :=
  let op := bitsOf w 56 8
  if op = 0x50 then (if taClr w then [] else [taBank w], [taBank w])
  else if op = 0x58 then (if tdMerge w then [0, 1] else [taBank w], [])
  else ([], [])

/-- Whether a list has an element of another. -/
def meets (xs ys : List Nat) : Bool := xs.any ys.contains

/-- Whether later uses must wait for earlier uses (R106). -/
def hazard (early late : List Nat × List Nat) : Bool :=
  meets late.1 early.2 || meets late.2 early.1 || meets late.2 early.2

/-- Whether two array words can form a chain (R156). -/
def chainable (p w : Nat) : Bool :=
  !taClr w && taBank p == taBank w && shStitch p == shStitch w && shA p == shA w && shB p == shB w && taScl p == taScl w

/-- The array entry immediately before entry `i`. -/
def Core.arrayBefore (k : Core) (i : Nat) : Option QEntry := ((k.queue.take i).filter (fun e => e.unit == 1)).getLast?

/-- Whether the array word at entry `i` is chained if it starts now (R156). -/
def Core.chainsAt (k : Core) (i w : Nat) : Bool :=
  match k.arrayBefore i with
  | some p => p.st == .started && chainable p.word.toNat w
  | none => false

/-- Whether entry `i` of core `c` may start: no hazard with an earlier entry (R106). A chained array instruction does not
wait for the bank of the chain before it (R156). -/
def Core.hazardFree (c : Nat) (k : Core) (i : Nat) (e : QEntry) : Bool :=
  let w := e.word.toNat
  let chain := e.op == 0x50 && k.chainsAt i w
  let mine := entryUses c k.dcfg e
  (k.queue.take i).all (fun p =>
    !hazard (entryUses c p.cfg p) mine && ((chain && p.op == 0x50) || !hazard (bankUses p.word.toNat) (bankUses w)))

/-- A fault of a queued instruction reported under R221. -/
def State.entryFault (s : State) (c cause info : Nat) (e : QEntry) : State := s.instrFault c cause e.pc info e.word

/-! ## Rows -/

/-- Row `i` of a transposed 64 × 64 block: element k is element i of row k (R201). -/
def transposedRow (bits : Nat) (rows : Nat → Nat) (i : Nat) : Nat :=
  (List.range 64).foldl (fun r k => setRowElem r bits k (rowElem (rows k) bits i)) 0

/-- The row a tile load writes, or a tile store stores, as row `i`, from the rows it reads (R201). -/
def movedRow (w : Nat) (rows : Nat → Nat) (i : Nat) : Nat :=
  if tmTr w then transposedRow (fmtBits (shA w)) rows i else rows i

/-- The address a tile load or store rejects: base or stride not a multiple of 16 (R120, R200). -/
def rowMisaligned (e : QEntry) : Option Nat :=
  let base := (e.vals.getD 0 0).toNat
  let stride := (e.vals.getD 1 0).toNat
  if e.op = 0x42 then none
  else if base % 16 ≠ 0 then some base
  else if !shBlocked e.word.toNat && stride % 16 ≠ 0 then some stride else none

/-- Translates the rows of a tile access, each whole: the pieces of every row with the row's number and address, or the
fault of the lowest-numbered row that faults, at that row's address (R121, R123). -/
def State.xlateRows (s : State) (ctx n : Nat) (write : Bool) :
    Nat → List Nat → Except AccFault (List (Nat × Nat × List (Nat × Nat × Nat)))
  | _, [] => .ok []
  | r, va :: rest =>
    match s.xlateRange ctx va n write with
    | .error f => .error { f with va }
    | .ok ps =>
      match s.xlateRows ctx n write (r + 1) rest with
      | .error f => .error f
      | .ok l => .ok ((r, va, ps) :: l)

/-- The parts of translated rows, cut at lines: (row, offset in the row, row address, address, length). -/
def State.rowParts (s : State) (l : List (Nat × Nat × List (Nat × Nat × Nat))) : List Part :=
  l.flatMap (fun x => ((s.byLines x.2.2).foldl (fun (acc : Nat × List Part) p =>
    (acc.1 + p.2, acc.2 ++ [({ row := x.1, off := acc.1, va := x.2.1, pa := p.1, len := p.2 } : Part)])) (0, [])).2)

/-- The line of a held list a part finds: for a stream's use its run-ahead lines first, then the demand lines. -/
def Core.heldLine? (k : Core) (stream : Option Nat) (pa : Nat) : Option Line :=
  let near := k.lines.filter (fun l => l.ctx == k.ctx && l.pa == pa)
  match stream with
  | none => near.find? (fun l => l.owner == 8)
  | some n => match near.find? (fun l => l.owner == n) with
    | some l => some l
    | none => near.find? (fun l => l.owner == 8)

/-- Replaces a held line by a demand line in front of the list (R118). -/
def Core.useLine (k : Core) (l : Line) (m : Line) : Core :=
  { k with lines := { m with owner := 8 } :: k.lines.filter (fun x =>
      !(x.ctx == l.ctx && x.pa == l.pa && (x.owner == l.owner || x.owner == 8))) }

/-- Takes the bytes of the parts that lie in line `l` into an entry, of a stale line those that waited for it; the row address of the
first part with a poisoned word among its bytes, when there is one (R90, R122). -/
def QEntry.takeLine (e : QEntry) (l : Line) : QEntry × Option Nat :=
  let mine := fun (p : Part) => p.pa - p.pa % 256 == l.pa && (!l.stale || p.old)
  ({ e with
     parts := e.parts.filter (fun p => !mine p)
     buf := (e.parts.filter mine).foldl (fun b p => Memory.setBytes b (128 * p.row + p.off) (l.bytes (p.pa % 256) p.len)) e.buf },
   (e.parts.find? (fun p => mine p && (l.poisonIn (p.pa % 256) p.len).isSome)).map (·.va))

/-! ## Completing tile loads -/

/-- Whether an entry is a tile load. -/
def QEntry.isLoad (e : QEntry) : Bool := e.op == 0x40 || e.op == 0x42

/-- The rows of a tile load that can be written now: those all of whose parts have come and that are not written yet, and with TR
none before every part has come (R121, R201). -/
def QEntry.rowsReady (e : QEntry) : List Nat :=
  let w := e.word.toNat
  if tmTr w && !e.parts.isEmpty then []
  else (List.range (shRows w)).filter (fun r => !bitOf e.wrote r && !e.parts.any (fun p => p.row == r))

/-- Writes rows of a tile load (R116, R121, R201). -/
def Core.writeLoad (k : Core) (e : QEntry) (rows : List Nat) : Core :=
  let w := e.word.toNat
  let n := rowBytes w (shA w)
  let stored := fun r => Memory.readLE e.buf (128 * r) n
  rows.foldl (fun (k : Core) r => k.setRowBytes (tmT w) r n (movedRow w stored r)) k

/-- A stream whose use of items up to `next` completed: its position, and its run-ahead lines behind it freed (R136, R138). -/
def Core.streamUsed (k : Core) (n next : Nat) : Core :=
  let x := k.stream n
  let k1 := k.setStream n { x with pos := max x.pos next, issued := max x.issued next }
  { k1 with lines := k1.lines.filter (fun l => !(l.owner == n && decide (l.lastItem < next))) }

/-- Entry `i`, a tile load that has started, writes the rows that have come once its bank can be written; a gated bank is asked to
wake. The register is live from the first row on (R112, R113, R121). -/
def State.writeRows (s : State) (c i : Nat) : State :=
  let k := s.core c
  let e := k.queue.getD i {}
  let t := tmT e.word.toNat
  let rows := e.rowsReady
  if e.st != .started || !e.isLoad || rows.isEmpty then s
  else if !k.bankReady t then s.setCore c (k.wakeBank t)
  else
    let s1 := s.livenTile c t
    s1.setCore c (((s1.core c).writeLoad e rows).setEntry i { e with wrote := rows.foldl (fun m r => m ||| 2 ^ r) e.wrote })

/-- Completes the tile loads all of whose rows are written, in order (R105, R121). -/
def State.completeLoads (s : State) (c : Nat) : Nat → State
  | 0 => s
  | fuel + 1 =>
    let k := s.core c
    match k.firstOf 0 with
    | none => s
    | some i =>
      let e := k.queue.getD i {}
      let w := e.word.toNat
      if e.st != .started || !e.parts.isEmpty || e.wrote != 2 ^ shRows w - 1 then s
      else
        let k1 := k.dropEntry i s.now
        (s.setCore c (if e.op = 0x42 then k1.streamUsed (tmStream w) (e.first + shRows w) else k1)).completeLoads c fuel

/-- The tile loads of core `c` go on with what has come (R121). -/
def State.finishLoads (s : State) (c : Nat) : State :=
  ((List.range 8).foldl (fun (t : State) i => t.writeRows c i) s).completeLoads c 8

/-- Gives a line to every started entry of core `c` that waits for it; a poisoned word used ends the work (R119, R122). -/
def State.serveLine (s : State) (c : Nat) (l : Line) : State :=
  let k := s.core c
  let served := k.queue.map (fun e => if e.st == .started then e.takeLine l else (e, none))
  match (served.filterMap (·.2)).head? with
  | some va => s.accFault c { cause := 5, va } false false
  | none => (s.setCore c { k with queue := served.map (·.1) }).finishLoads c

/-- The line of fill `f` has come for core `c`: kept unless it is stale, and given to who waits (R90, R119). A line a waiting part
uses becomes a demand line at once (R118). -/
def State.lineArrives (s : State) (c : Nat) (f l : Line) : State :=
  let k := s.core c
  let wanted := k.queue.any (fun e => e.st == .started && e.parts.any (fun p => p.pa - p.pa % 256 == l.pa && (!l.stale || p.old)))
  let k1 := { k with fills := k.fills.erase f }
  let k2 :=
    if l.stale then k1
    else if wanted || l.owner == 8 then k1.putDemand { l with owner := 8 } else { k1 with lines := l :: k1.lines }
  if wanted then (s.setCore c k2).serveLine c l else s.setCore c k2

/-- Serves the parts of entry `i` that held lines can serve; the others' lines go to `fills` unless in flight already, those of pages
with STP marked. A line with a parity error serves nothing (R117). The answer is the row address of a poisoned word used, if any, and
the state. -/
def State.servePartsHeld (s : State) (c i : Nat) (stream : Option Nat) (stp : Nat → Bool) : List Nat → Option Nat × State
  | [] => (none, s)
  | pa :: rest =>
    let held := (s.core c).heldLine? stream pa
    let hit := match held with | some l => s.lineHit c l | none => (false, s)
    let k := hit.2.core c
    match held, hit.1 with
    | some l, true =>
      let e := (k.queue.getD i {}).takeLine l
      let s1 := hit.2.setCore c ((k.useLine l l).setEntry i e.1)
      match e.2 with
      | some va => (some va, s1)
      | none => s1.servePartsHeld c i stream stp rest
    | _, _ =>
      let flying := k.fills.any (fun f => f.ctx == k.ctx && f.pa == pa && !f.stale && (f.owner == 8 || stream == some f.owner))
      let k1 := if flying then k else { k with fills := k.fills ++ [{ ctx := k.ctx, pa, owner := 8, stp := stp pa }] }
      (hit.2.setCore c k1).servePartsHeld c i stream stp rest

/-- The line addresses of parts, without repeats. -/
def partLines (ps : List Part) : List Nat := nub (ps.map (fun p => p.pa - p.pa % 256))

/-- Sends the reads of remote demand lines to be filled that no request asks for yet, one transaction a line (R408). -/
def State.remoteFill (s : State) (c va : Nat) : List Nat → State
  | [] => s
  | pa :: rest =>
    match s.sendReads c [pa] with
    | .error node => s.coreTimeout c node 0
    | .ok (xids, s1) =>
      let k := s1.core c
      let x := xids.headD 0
      let fills := k.fills.map (fun f => if f.pa = pa ∧ f.owner = 8 ∧ f.req = 0 then { f with req := x + 1 } else f)
      let r : RemoteWait := { xids, kind := .fill x, va, parts := [(pa, 256)], asked := [pa], above := k.storesOn [pa] }
      ((s1.setCore c { k with fills }).addRemote c r).remoteFill c va rest

/-- The remote lines among a core's demand fills that no request asks for yet. -/
def State.unasked (s : State) (c : Nat) : List Nat :=
  ((s.core c).fills.filter (fun f => f.owner == 8 && f.req == 0 && s.isRemote f.pa)).map (·.pa)

/-! ## Abandoning and replaying (R125, R129, R130) -/

/-- An entry abandoned: it stands in the queue again from its beginning. -/
def QEntry.abandoned (e : QEntry) : QEntry := { e with st := .queued, parts := [], buf := [], wrote := 0, chained := false }

/-- Which of the group instructions of its stitch code in a queue entry `i` is: they complete together at every member, so the one of
the same number at another member is the same instruction (R129, R169). -/
def groupOrdinal (q : List QEntry) (i : Nat) : Nat := (q.take i).countP (fun e => e.stitch == (q.getD i {}).stitch)

/-- The index of the group instruction of a stitch code and number in a queue. -/
def groupIndex (q : List QEntry) (code ord : Nat) : Option Nat :=
  ((List.range q.length).filter (fun i => (q.getD i {}).stitch == code))[ord]?

/-- The same group instruction as entry `i` of core `c` at the other members: (core, index) (R169). -/
def State.groupPeers (s : State) (c i : Nat) : List (Nat × Nat) :=
  let q := (s.core c).queue
  let code := (q.getD i {}).stitch
  if code = 0 then []
  else ((stitchMembers code c).filter (fun m => m != c)).filterMap (fun m =>
    (groupIndex (s.core m).queue code (groupOrdinal q i)).map (fun j => (m, j)))

/-- What stands in the Bobbins while an array instruction runs: of the rows of A of a member that feeds them and of the columns of B
likewise, the elements of the first 32 steps (R144, R149, R163). -/
def Core.bobbinsOf (c : Nat) (k : Core) (w : Nat) : Store (BitVec 17) :=
  let g := stitchShape (shStitch w)
  let bits := fun (fmt : Nat) => classStep (arrayClass fmt) * fmtBits fmt
  let steps := ceilDiv (shCols w) (classStep (arrayClass (shA w)))
  let entries := fun (tile fmt rows : Nat) => (List.range rows).flatMap (fun n => (List.range 32).map (fun j =>
    if j < steps then BitVec.ofNat 17 (2 ^ 16 + bitsOf (k.trow tile n) (j * bits fmt) (bits fmt)) else 0))
  Store.setAll 0 (Store.setAll 0 [] 0 (if coreCol c % g.2 = 0 then entries (taA w) (shA w) (shRows w) else [])) 2048
    (if coreRow c % g.1 = 0 then entries (taB w) (shB w) 64 else [])

/-- The Bobbins follow the array instruction that runs: filled for the oldest that has started, empty when none has (R149, R156). -/
def Core.feed (k : Core) (c : Nat) : Core :=
  match k.queue.find? (fun e => e.unit == 1) with
  | some e => { k with bobbins := if e.st = .started then k.bobbinsOf c e.word.toNat else [] }
  | none => { k with bobbins := [] }

/-- Abandons entry `i` of core `c` and every later entry that has started; the other members of the groups among them replay the
same group instructions (R129, R130, R169). A work item holds a core and an index. -/
def State.abandonFrom : Nat → List (Nat × Nat) → State → State
  | 0, _, s => s
  | _ + 1, [], s => s
  | fuel + 1, (c, i) :: todo, s =>
    let k := s.core c
    let hit := fun (p : QEntry × Nat) => p.2 == i || (decide (i < p.2) && p.1.st == .started)
    let more := (k.queue.zipIdx.filter (fun p => hit p && p.1.st == .started)).flatMap (fun p => s.groupPeers c p.2)
    let s1 := s.setCore c ({ k with queue := k.queue.zipIdx.map (fun p => if hit p then p.1.abandoned else p.1) }.feed c)
    State.abandonFrom fuel (todo ++ more.filter (fun p => ((s1.core p.1).queue.getD p.2 {}).st == .started)) s1

/-! ## Groups -/

/-- What the rendezvous compares (R165), apart from the context. -/
def groupKey (w : Nat) : Nat × Nat × Nat × Nat × Bool × Bool × Bool × Nat :=
  (shStitch w, shCols w, shA w, shB w, shBlocked w, taScl w, taClr w, taBank w)

/-- The index of the first array entry that waits at a rendezvous, of a stitch code. -/
def Core.arrivedAt (k : Core) (code : Nat) : Option Nat := k.queue.findIdx? (fun e => e.st == .arrived && e.stitch == code)

/-- Whether every member of a placement has arrived. -/
def State.allArrived (s : State) (code c : Nat) : Bool := (stitchMembers code c).all (fun m => ((s.core m).arrivedAt code).isSome)

/-- Whether every member's arrived instruction has the same fields and context (R165). -/
def State.groupAgrees (s : State) (code c : Nat) : Bool :=
  let key := fun m => let k := s.core m
    (k.ctx, groupKey (k.queue.getD ((k.arrivedAt code).getD 0) {}).word.toNat)
  (stitchMembers code c).all (fun m => key m == key (stitchLead code c))

/-- Starts the arrived group instruction of every member (R165). -/
def State.startGroup (s : State) (code c : Nat) : State :=
  (stitchMembers code c).foldl (fun (t : State) m =>
    let k := t.core m
    match k.arrivedAt code with
    | none => t
    | some i =>
      let e := k.queue.getD i {}
      t.setCore m ((k.setEntry i { e with st := .started, chained := k.chainsAt i e.word.toNat }).feed m)) s

/-- Whether every member's arrived group instruction is chained (R156, R165). -/
def State.groupChained (s : State) (code c : Nat) : Bool :=
  (stitchMembers code c).all (fun m => let k := s.core m
    match k.arrivedAt code with
    | none => false
    | some i => k.chainsAt i (k.queue.getD i {}).word.toNat)

/-- Breaks the placements listed, by stitch code and lead, with reason MISMATCH: every core that has arrived in one of them ends its
work, and each lead writes its record (R165, R169 to R172). -/
def State.mismatch (s : State) (ps : List (Nat × Nat)) : State :=
  State.runBreaks s s (s.breakPlan 4096 (ps.map (fun p => (⟨p.1, p.2, 2, 0xFFFF, 0⟩ : Break))) []) 0xFFFF

/-- The other overlapping placements at whose rendezvous another core of the placement of core `c` waits (R170). -/
def State.clashes (s : State) (code c : Nat) : List (Nat × Nat) :=
  ((stitchMembers code c).filter (fun m => m != c)).flatMap (fun m =>
    ([1, 2, 3, 4, 5, 6].filter (fun d => d != code && ((s.core m).arrivedAt d).isSome)).map (fun d => (d, stitchLead d m)))

end Sys2Proof.Machine
end

