-- ==== Sys2Proof/Machine/StreamOps.lean ====
section
/-! DEFINITION. The stream unit: discarding, pausing, and the next line to run ahead to (R89, R92 to R98, R133 to R137). -/

namespace Sys2Proof.Machine

open Sys2Proof

/-- Discards the run-ahead data and in-flight run-ahead fetches of the streams chosen; what it looked at next starts over
from the position (R89, R98, R128). -/
def Core.discardAhead (k : Core) (which : Nat → Bool) : Core :=
  let keep := fun (l : Line) => l.owner == 8 || !which l.owner
  { k with
    lines := k.lines.filter keep
    fills := k.fills.filter keep
    streams := k.streams.map (fun p => if which p.1 then (p.1, { p.2 with ahead := 0 }) else p) }

/-- Run-ahead of the streams of a mask resumes only after the memory accesses now outstanding (R89). -/
def Core.holdAhead (k : Core) (mask : Nat) : Core :=
  { k with
    queue := k.queue.map (fun e => if e.isMem then { e with holds := e.holds ||| mask } else e)
    remote := k.remote.map (fun r => { r with holds := r.holds ||| mask }) }

/-- SFENCE on the streams of a mask (R89). -/
def Core.sfence (k : Core) (mask : Nat) : Core := (k.discardAhead (bitOf mask)).holdAhead mask

/-- Whether an access holds back run-ahead of stream `n`. -/
def Core.aheadHeld (k : Core) (n : Nat) : Bool :=
  k.queue.any (fun e => bitOf e.holds n) || k.remote.any (fun r => bitOf r.holds n)

/-- The line address of a virtual address. -/
def lineAddr (a : Nat) : Nat := a - a % 256

/-- The first item at or after `ahead` that starts a line after the line of the next unused item, within a depth in lines
(R135, R136). Walks from item `k` with the line before it and the lines passed. -/
def Stream.nextAhead (x : Stream) (depth : Nat) : Nat → Nat → Nat → Nat → Option Nat
  | 0, _, _, _ => none
  | fuel + 1, k, prev, count =>
    if x.total ≤ k then none
    else
      let l := lineAddr (x.item k)
      if l = prev then x.nextAhead depth fuel (k + 1) prev count
      else if depth ≤ count then none
      else if x.ahead ≤ k then some k
      else x.nextAhead depth fuel (k + 1) l (count + 1)

/-- The last of the consecutive items from `k` that lie in the line of item `k`. -/
def Stream.lastInLine (x : Stream) (l : Nat) : Nat → Nat → Nat
  | 0, k => k
  | fuel + 1, k => if x.total ≤ k + 1 ∨ lineAddr (x.item (k + 1)) ≠ l then k else x.lastInLine l fuel (k + 1)

/-- The first item from `k` that does not lie in the paused page; the walk is as long as the items left (R94). -/
def Stream.beyondPage (x : Stream) : Nat → Nat → Nat
  | 0, k => k
  | fuel + 1, k =>
    if x.item k / 2 ^ x.pausedBits = (x.paused - 1) / 2 ^ x.pausedBits ∧ k < x.total then x.beyondPage fuel (k + 1) else k

/-- Whether a kept translation of the page of a virtual address shows STP: one of the 64 KiB that hold it, else one of any other part of
the same page (R84, R136). -/
def State.stpSeen (s : State) (ctx va : Nat) : Bool :=
  let tlb := (s.ctx ctx).tlb
  let own := Store.get {} tlb (va / 2 ^ 16)
  if own = {} then
    tlb.any (fun p => let b := pageBits p.2.level; p.2.stp && p.1 * 2 ^ 16 / 2 ^ b == va / 2 ^ b)
  else own.stp

/-- The depth in force: STP_DEPTH when the page of the next unused item showed STP at its last translation (R136). -/
def State.aheadDepth (s : State) (c n : Nat) : Nat :=
  let k := s.core c
  let x := k.stream n
  if s.stpSeen k.ctx (x.item x.issued) ∧ x.stpDepth ≠ 0 then x.stpDepth else x.depth

/-- The next item run-ahead of stream `n` would fetch (R136). -/
def State.aheadItem (s : State) (c n : Nat) : Option Nat :=
  let x := (s.core c).stream n
  let d := s.aheadDepth c n
  x.nextAhead d (4 * (d + 2)) x.issued (lineAddr (x.item x.issued)) 0

/-- A demand use by stream `n` of items from `first`, at addresses that translated: a pause at a page one of them touches ends, and
run-ahead goes on after it, or with NP at the first line beyond the page (R94). -/
def State.touchStream (s : State) (c n first : Nat) (vas : List Nat) : State :=
  let k := s.core c
  let x := k.stream n
  if x.paused = 0 then s
  else match vas.zipIdx.find? (fun v => v.1 / 2 ^ x.pausedBits == (x.paused - 1) / 2 ^ x.pausedBits) with
    | none => s
    | some v =>
      let np := match s.translate k.ctx v.1 false with | .ok _ np _ => np | .fault _ => false
      s.setCore c (k.setStream n { x with paused := 0, ahead := if np then x.beyondPage (x.total - (first + v.2)) (first + v.2) else x.ahead })

/-- A run-ahead fetch dropped at address `va`: counted, and the stream paused at its page (R93, R94). -/
def State.dropAhead (s : State) (c n va bits : Nat) : State :=
  let k := s.core c
  s.setCore c ({ k with dropped := k.dropped + 1 }.setStream n
    { k.stream n with paused := va - va % 2 ^ bits + 1, pausedBits := bits })

/-- The size in address bits of the page of a translated address. -/
def State.pageBitsOf (s : State) (ctx va : Nat) : Nat :=
  match s.leafOf va 4 0 (bitsOf (s.ptRoot ctx) 14 42 * 2 ^ 14) with | some t => pageBits t.level | none => 16

/-- The size in address bits of the page in which a translation failed: the leaf's where one was found, which denied the access or named
nothing; where the walk ended before a leaf the page has no size of its own, and the model takes 64 KiB (R94, assumption 68). -/
def AccFault.pageBits (f : AccFault) : Nat :=
  if f.cause = 3 ∨ (f.unbacked ∧ f.level ≠ 0 ∧ !(f.level < 3 && bitOf f.entry 1)) then Machine.pageBits f.level else 16

/-- Lines run-ahead may still take: the 120 shared lines less those held (R117, R137). -/
def Core.aheadRoom (k : Core) : Bool :=
  let demand := (k.lines ++ k.fills).countP (fun l => l.owner == 8)
  decide ((k.lines ++ k.fills).length - demand + (demand - 8) < 120)

/-- The next item run-ahead of stream `n` of core `c` wants, none while it is off, paused or held (R89, R94, R136). -/
def State.aheadWants (s : State) (c n : Nat) : Option Nat :=
  let k := s.core c
  let x := k.stream n
  if !x.declared || x.paused != 0 || k.aheadHeld n then none else s.aheadItem c n

/-- Issues the run-ahead fetch of item `i` of stream `n` on a free line (R92, R93, R136). One of a node that cannot be reached brings
nothing: it is not a drop of R93 (assumption 69). -/
def State.issueAhead (s : State) (c n i : Nat) : State :=
  let k := s.core c
  let x := k.stream n
  let va := lineAddr (x.item i)
  match s.translate k.ctx va false with
  | .fault f => s.dropAhead c n va f.pageBits
  | .ok pa np stp =>
    if np then s.dropAhead c n va (s.pageBitsOf k.ctx va)
    else
      let s1 := s.keepXlat k.ctx va
      let k1 := s1.core c
      let pa1 := s1.norm pa
      let last := x.lastInLine va 256 i
      let k2 := k1.setStream n { x with ahead := i + 1 }
      let f : Line := { ctx := k1.ctx, pa := pa1, owner := n, lastItem := last, stp }
      let longer := fun (l : Line) => if l.ctx = k1.ctx ∧ l.pa = pa1 ∧ l.owner = n then { l with lastItem := max l.lastItem last } else l
      if (k1.lines ++ k1.fills).any (fun l => l.ctx == k1.ctx && l.pa == pa1 && l.owner == n) then
        s1.setCore c { k2 with lines := k2.lines.map longer, fills := k2.fills.map longer }
      else if s1.isRemote pa1 then
        match s1.sendReads c [pa1] with
        | .error _ => s1.setCore c k2
        | .ok (xids, s2) =>
          let k3 := s2.core c
          let x0 := xids.headD 0
          (s2.setCore c { k3.setStream n { x with ahead := i + 1 } with fills := k3.fills ++ [{ f with req := x0 + 1 }] }).addRemote c
            { xids, kind := .fill x0, va, parts := [(pa1, 256)], asked := [pa1], above := k3.storesOn [pa1] }
      else s1.setCore c { k2 with fills := k2.fills ++ [f] }

/-- Stream `n` takes its turn for the fetch of item `i`: the streams that found no free line come first, in the order in which they
asked, one line a turn (R137). -/
def State.aheadTurn (s : State) (c n i : Nat) : State :=
  let k := s.core c
  let queue := k.aheadWait.filter (fun m => (s.aheadWants c m).isSome)
  if !k.aheadRoom || !(queue.isEmpty || queue.head? == some n) then
    s.setCore c { k with aheadWait := if queue.contains n then queue else queue ++ [n] }
  else (s.setCore c { k with aheadWait := queue.erase n }).issueAhead c n i

end Sys2Proof.Machine
end

