-- ==== Sys2Proof/Machine/SyncOps.lean ====
section
/-! DEFINITION. The operations of the sync unit (R438 to R463): signals, waits, wakes, and what a change of an object sends. -/

namespace Sys2Proof.Machine

open Sys2Proof

/-! ## Handles and entries -/

/-- INDEX of a handle (R211). -/
def hIndex (h : Nat) : Nat := bitsOf h 0 16
/-- GEN of a handle. -/
def hGen (h : Nat) : Nat := bitsOf h 16 8
/-- NODE of a handle. -/
def hNode (h : Nat) : Nat := bitsOf h 24 14
/-- Whether a handle names an object of another node (R211). -/
def State.hRemote (s : State) (h : Nat) : Bool := bitOf h 38 && hNode h != s.node

/-- Entry `i` of the sync table. -/
def State.obj (s : State) (i : Nat) : SyncEntry := Store.get {} s.sync.table i
/-- Replaces entry `i`. -/
def State.setObj (s : State) (i : Nat) (e : SyncEntry) : State :=
  { s with sync := { s.sync with table := Store.set {} s.sync.table i e } }
/-- Whether entry `i` is poisoned (R445). -/
def State.objPoisoned (s : State) (i : Nat) : Bool := Store.get false s.sync.poison i
/-- Counts a stale operation (R446). -/
def State.countStale (s : State) : State := { s with sync := { s.sync with stale := satAdd (2 ^ 64 - 1) s.sync.stale 1 } }
/-- Counts a barrier overrun (R446). -/
def State.countOverrun (s : State) : State :=
  { s with sync := { s.sync with overrun := satAdd (2 ^ 64 - 1) s.sync.overrun 1 } }

/-- Whether a SIG mode is valid for a kind (R212). -/
def sigModeOk (mode kind : Nat) : Bool :=
  match mode with
  | 0 => kind == 0 || kind == 2
  | 1 => kind == 2
  | 2 => kind == 1
  | _ => false

/-- Whether a WAIT mode is valid for a kind (R212). -/
def waitModeOk (mode kind : Nat) : Bool :=
  match mode with
  | 0 => kind == 0 || kind == 2
  | 1 => kind == 0
  | 2 => kind == 1
  | _ => false

/-- Whether round `v` has been released (R449). -/
def roundReleased (counter v : Nat) : Bool :=
  let d := (counter + 2 ^ 48 - v % 2 ^ 48) % 2 ^ 48
  decide (1 ≤ d ∧ d ≤ 2 ^ 47)

/-! ## Changes, wakes and signal words -/

/-- What a waiter with a mode and threshold makes of the first 8 bytes of an entry (R453). -/
inductive Snap where
  | stale
  | abandoned
  | met
  /-- a TAKE that could succeed: the atomic check runs again -/
  | retry
  | no
  deriving DecidableEq, Repr

/-- A waiter's reading of a snapshot (R453). -/
def readSnap (snap gen mode thr : Nat) : Snap :=
  if bitsOf snap 48 8 ≠ gen ∨ bitsOf snap 56 2 = 3 then .stale
  else if bitOf snap 58 then .abandoned
  else if mode = 0 ∧ thr ≤ bitsOf snap 0 48 then .met
  else if mode = 2 ∧ roundReleased (bitsOf snap 0 48) thr then .met
  else if mode = 1 ∧ thr ≤ bitsOf snap 0 48 then .retry
  else .no

/-- The word a WAIT writes: status and the counter for GE and TAKE (R214). -/
def waitResult (status mode counter : Nat) : Nat := status * 2 ^ 62 + (if mode = 2 then 0 else counter % 2 ^ 48)

/-- A host wait ends: result word and outcome (R459). -/
def Cmd.waitEnds (c : Cmd) (status cause : Nat) (result : Nat) : Cmd :=
  { c.settle status cause 0 with result := BitVec.ofNat 64 result }

/-- A command whose wait on entry `i` meets a wake with a snapshot (R453, R459, R460, R491). -/
def Cmd.wake (c : Cmd) (i snap : Nat) : Cmd :=
  match c.phase, c.job with
  | .running, .wait j =>
    if j.index ≠ i then c
    else match readSnap snap j.gen j.mode j.thr with
      | .stale => c.waitEnds 0 0 (1 * 2 ^ 62)
      | .abandoned => c.waitEnds 4 8 0
      | .met => c.waitEnds 0 0 (waitResult 0 j.mode snap)
      | .retry => { c with job := .wait { j with woken := true } }
      | .no => c
  | .read, _ =>
    if c.pre ≠ .waiting ∨ hIndex c.prewait ≠ i then c
    else match readSnap snap (hGen c.prewait) (if c.pwMode = 1 then 0 else 2) c.pwThr with
      | .stale => { c with pre := .stale }
      | .abandoned => { c with pre := .abandoned }
      | .met => { c with pre := .met }
      | _ => c
  | _, _ => c

/-- Whether a command waits on entry `i` as a host wait. -/
def Cmd.waitsHost (c : Cmd) (i : Nat) : Bool :=
  match c.phase, c.job with | .running, .wait j => j.index == i | _, _ => false
/-- Whether Town Hall waits on entry `i` for a command's PREWAIT. -/
def Cmd.waitsEngine (c : Cmd) (i : Nat) : Bool := c.phase == .read && c.pre == .waiting && hIndex c.prewait == i

/-- Some command of some context satisfies `p`. -/
def State.anyCmd (s : State) (p : Cmd → Bool) : Bool := s.ctxs.any (fun x => x.2.cmds.any p)

/-- ENGINE and HOST of entry `i` say who waits: host waits, PREWAITs, and Cutting Room shares that wait for FREE (R441, R459,
R460). -/
def State.setWaiters (s : State) (i : Nat) : State :=
  let e := s.obj i
  if e.kind = 3 then s
  else s.setObj i { e with
    host := s.anyCmd (fun c => c.waitsHost i)
    engine := s.roomWait.any (fun p => p.2 == i + 1) || s.anyCmd (fun c => c.waitsEngine i) }

/-- The signal word of entry `i` (R456, R457); HSIG, owner and vector are those of `old`. -/
def State.signalWord (s : State) (i : Nat) (old new : SyncEntry) : State :=
  let base := 0x700 + 8 * old.owner
  if old.hsig && s.flag base 0 then
    (s.hostWrite (bitsOf (s.reg64 base) 12 42 * 4096 + 8 * i) (natLE 8 (new.word0 % 2 ^ 59))).msixIf old.msix old.vector
  else s

/-- Whether an operation changed a field that wakes (R452). -/
def SyncEntry.differs (a b : SyncEntry) : Bool :=
  a.counter != b.counter || a.kind != b.kind || a.gen != b.gen || a.abandoned != b.abandoned || a.frozen != b.frozen

/-- Replaces entry `i` after an operation and, where that is a change of R452 on an entry that is not frozen, wakes every
waiter and writes the signal word (R452, R456, R461). `sig` holds the host-signal fields that apply. -/
def State.changeObj (s : State) (i : Nat) (sig new : SyncEntry) : State :=
  let old := s.obj i
  if !old.differs new || new.frozen then s.setObj i new
  else
    let flits := ((List.range 36).filter (fun b => bitOf old.blocks b)).map (fun b => (⟨b, i, new.word0⟩ : WakeFlit))
    let s1 := s.setObj i { new with blocks := 0 }
    let s2 := { s1 with
      sync := { s1.sync with flits := s1.sync.flits ++ flits }
      roomWait := s1.roomWait.filter (fun p => p.2 != i + 1)
      ctxs := s1.ctxs.map (fun (x : Nat × Ctx) => (x.1, { x.2 with cmds := x.2.cmds.map (fun (c : Cmd) => c.wake i new.word0) })) }
    (s2.setWaiters i).signalWord i sig new

/-! ## Signals (R213, R447) -/

/-- The outcome of a signal at the sync unit. -/
inductive SigRes where
  /-- applied; the round for ARRIVE, else 0 -/
  | applied (round : Nat)
  | stale
  | abandoned
  | wrongKind
  | overrun
  | poisoned
  deriving DecidableEq, Repr

/-- Releases rounds while the counter of the open round is full (R447): the rounds released and the entry. -/
def releaseRounds : Nat → SyncEntry → SyncEntry
  | 0, e => e
  | fuel + 1, e =>
    let n := if e.counter % 2 = 0 then e.even else e.odd
    if n = e.participants then
      let e1 := if e.counter % 2 = 0 then { e with even := 0 } else { e with odd := 0 }
      releaseRounds fuel { e1 with counter := (e.counter + 1) % 2 ^ 48 }
    else e

/-- An arrival at round `v`; none is an overrun (R447). -/
def arrive (e : SyncEntry) (v : Nat) : Option SyncEntry :=
  let d := (v + 2 ^ 48 - e.counter) % 2 ^ 48
  let n := if v % 2 = 0 then e.even else e.odd
  if 1 < d ∨ n = e.participants then none
  else some (releaseRounds 2 (if v % 2 = 0 then { e with even := n + 1 } else { e with odd := n + 1 }))

/-- SIG on a local handle (R213, R445): the outcome and the state. -/
def State.signalObj (s : State) (h v mode : Nat) : SigRes × State :=
  let i := hIndex h
  let e := s.obj i
  if s.objPoisoned i then (.poisoned, s)
  else if e.kind = 3 then (.stale, s.countStale)
  else if !sigModeOk mode e.kind then (.wrongKind, s)
  else if hGen h ≠ e.gen then (.stale, s.countStale)
  else if e.abandoned then (.abandoned, s)
  else match mode with
    | 0 => (.applied 0, s.changeObj i e { e with counter := satAdd (2 ^ 48 - 1) e.counter (v % 2 ^ 48) })
    | 1 => (.applied 0, s.changeObj i e { e with counter := v % 2 ^ 48 })
    | _ => match arrive e (v % 2 ^ 48) with
      | none => (.overrun, s.countOverrun)
      | some e1 => (.applied (v % 2 ^ 48), s.changeObj i e e1)

/-- The word SIG writes for a status (R213). -/
def SigRes.word : SigRes → Nat
  | .applied r => r
  | .stale => 1 * 2 ^ 62
  | .abandoned => 2 * 2 ^ 62
  | _ => 0

/-- Sends a signal to another node as a SYNC frame (R411); an unreachable node gives the E2E_TIMEOUT record at once (R410). -/
def State.signalRemote (s : State) (n tag h v mode : Nat) : State :=
  let node := hNode h
  let (s1, xid) := s.openTxn (.sync n tag) node 5 h 0
  if s.nodeFailed node then (s1.closeTxn xid false).e2eRecord n tag node xid
  else match s1.sendFrame (s1.request 0 node 5 xid h (v % 2 ^ 48 + mode % 4 * 2 ^ 48) [] 0) with
    | some s2 => s2
    | none => (s1.closeTxn xid false).e2eRecord n tag node xid

/-! ## Waits (R214) -/

/-- The atomic check of a wait at the sync unit. -/
inductive WaitRes where
  | stale
  | abandoned
  | wrongKind
  | poisoned
  /-- satisfied, with the counter as the condition found it -/
  | met (counter : Nat)
  | no (counter : Nat)
  deriving DecidableEq, Repr

/-- The atomic check of R214 on a local handle, a TAKE subtracting. -/
def State.waitObj (s : State) (h mode thr : Nat) : WaitRes × State :=
  let i := hIndex h
  let e := s.obj i
  if s.objPoisoned i then (.poisoned, s)
  else if e.kind = 3 then (.stale, s.countStale)
  else if !waitModeOk mode e.kind then (.wrongKind, s)
  else if hGen h ≠ e.gen then (.stale, s.countStale)
  else if e.abandoned then (.abandoned, s)
  else match mode with
    | 0 => if thr ≤ e.counter then (.met e.counter, s) else (.no e.counter, s)
    | 1 => if thr ≤ e.counter then (.met e.counter, s.changeObj i e { e with counter := e.counter - thr }) else (.no e.counter, s)
    | _ => if roundReleased e.counter thr then (.met e.counter, s) else (.no e.counter, s)

/-! ## Signals on behalf of engines and commands (R448, R492) -/

/-- Signals a handle for a command of context `n`, or for a gate, Press or Cutting Room acting for one: what it found, with
a remote handle sent and taken as applied. -/
def State.signalFor (s : State) (n tag h v mode : Nat) : SigRes × State :=
  if s.hRemote h then (.applied 0, s.signalRemote n tag h v mode) else s.signalObj h v mode

/-- The fault record fields of a refused signal or wait: the object's first 8 bytes, 0 for a poisoned or remote one (R221,
R492). -/
def State.objFault (s : State) (cause h : Nat) : AccFault :=
  { cause, va := h, entry := if cause = 5 ∨ s.hRemote h then 0 else (s.obj (hIndex h)).word0 }

/-- Signals the SIGNAL handle of a command that completes with a status and cause (R492): the status and cause it then has,
and the state. -/
def State.signalCmd (s : State) (n : Nat) (c : Cmd) : (Nat × Nat) × State :=
  let h := c.signal
  if h = 0 ∨ c.status = 8 then ((c.status, c.cause), s)
  else
    let r := s.signalFor n c.tag h 1 0
    let cause := match r.1 with | .wrongKind => 3 | .poisoned => 5 | _ => 0
    if cause = 0 then ((c.status, c.cause), r.2)
    else (if c.status = 0 then (4, cause) else (c.status, c.cause), r.2.cmdFaultRec n c.tag 4 0 (s.objFault cause h) false)

/-! ## Freezing and abandonment (R461, R462) -/

/-- Applies an operation to every entry that context `n` owns, in index order. -/
def State.ownedObjs (s : State) (n : Nat) : List Nat :=
  (s.sync.table.filter (fun p => p.2.kind != 3 && p.2.owner == n)).map (·.1)

/-- Sets FROZEN on every entry the context owns, abandoned entries excepted (R461, R462). -/
def State.freezeCtx (s : State) (n : Nat) : State :=
  (s.ownedObjs n).foldl (fun (t : State) i =>
    let e := t.obj i
    if e.abandoned then t else t.setObj i { e with frozen := true }) s

/-- Clears FROZEN on every entry the context owns, which wakes (R461). -/
def State.thawCtx (s : State) (n : Nat) : State :=
  (s.ownedObjs n).foldl (fun (t : State) i =>
    let e := t.obj i
    if e.frozen then t.changeObj i e { e with frozen := false } else t) s

/-- Sets ABANDONED on every entry the context owns, which wakes even a frozen entry (R462, R463). -/
def State.abandonCtx (s : State) (n : Nat) : State :=
  (s.ownedObjs n).foldl (fun (t : State) i =>
    let e := t.obj i
    t.changeObj i e { e with abandoned := true, frozen := false }) s

end Sys2Proof.Machine
end

