-- ==== Sys2Proof/Machine/EngOps.lean ====
section
/-! DEFINITION. How the engines that act for commands read and write memory: translation of ranges, views of bytes with
their poison, transfers with remote parts (R66, R73, R78, R408 to R410, R503, R603). -/

namespace Sys2Proof.Machine

open Sys2Proof

/-! ## Ranges and views -/

/-- Cuts a virtual range at 64 KiB pages. -/
def pageCut : Nat → Nat → Nat → List (Nat × Nat)
  | 0, _, _ => []
  | fuel + 1, va, n =>
    if n = 0 then []
    else
      let m := min n (2 ^ 16 - va % 2 ^ 16)
      (va % 2 ^ 64, m) :: pageCut fuel (va + m) (n - m)

/-- The page pieces of a virtual range. -/
def vaPieces (va n : Nat) : List (Nat × Nat) := pageCut (n / 2 ^ 16 + 2) va n

/-- Translates a virtual range of any length whole (R82). Answers (virtual, physical, length) pieces. -/
def State.engXlate (s : State) (n va len : Nat) (write : Bool) : Except AccFault (List (Nat × Nat × Nat)) :=
  s.xlatePieces n write (vaPieces va len)

/-- A range as it was read: its bytes, and the byte ranges of it that lie in poisoned words. -/
structure View where
  bytes : List Byte := []
  bad : List (Nat × Nat) := []
  deriving DecidableEq, Repr

/-- The bytes of a physical range; remote bytes come from a transfer's buffer. -/
def State.physBytes (s : State) (buf : Memory) (pa len : Nat) : List Byte :=
  match s.space pa with
  | .loc a => Memory.bytes s.dev a len
  | .host b => Memory.bytes s.host b len
  | .remote _ _ => Memory.bytes buf pa len
  | _ => List.replicate len 0

/-- Whether the 64-bit word at a physical address is poisoned. -/
def State.physBad (s : State) (bad : Store Bool) (pa : Nat) : Bool :=
  match s.space pa with
  | .loc a => Store.get false s.poison (a / 8)
  | .host b => Store.get false s.hostEp (b / 8)
  | .remote _ _ => Store.get false bad (pa / 8)
  | _ => false

/-- The parts of [pa, pa + len) that lie in poisoned words, as offsets. -/
def State.badParts (s : State) (bad : Store Bool) (pa len : Nat) : List (Nat × Nat) :=
  ((List.range (wordsOf pa len)).filter (fun i => s.physBad bad (pa - pa % 8 + 8 * i))).map (fun i =>
    let lo := pa - pa % 8 + 8 * i
    (max pa lo - pa, min (pa + len) (lo + 8) - pa))

/-- A list of pieces as one view. -/
def State.view (s : State) (buf : Memory) (bad : Store Bool) (ps : List (Nat × Nat × Nat)) : View :=
  (ps.foldl (fun (acc : Nat × View) p =>
    (acc.1 + p.2.2,
     { bytes := acc.2.bytes ++ s.physBytes buf p.2.1 p.2.2
       bad := acc.2.bad ++ (s.badParts bad p.2.1 p.2.2).map (fun q => (acc.1 + q.1, acc.1 + q.2)) })) (0, {})).2

/-- The view's bytes as one little-endian number. -/
def View.nat (v : View) : Nat := leNat v.bytes

/-- Whether a byte range of a view touches a poisoned word. -/
def View.badIn (v : View) (off len : Nat) : Bool := v.bad.any (fun p => decide (p.1 < off + len ∧ off < p.2))

/-- Bytes [off, off + n) of a view, with their poison. -/
def View.part (v : View) (off n : Nat) : View :=
  { bytes := (v.bytes.drop off).take n
    bad := (v.bad.filter (fun p => decide (p.1 < off + n ∧ off < p.2))).map (fun p => (max p.1 off - off, min p.2 (off + n) - off)) }

/-- Marks the words of bytes [a, a + n) as poisoned. -/
def poisonWords (p : Store Bool) (a n : Nat) : Store Bool := markWords p (a / 8) true (wordsOf a n)

/-- Writes a view at one physical piece of the local or host space: whole words become clean, then every word that receives
a byte of a poisoned word becomes poisoned (R66). A memory line that is present in its cache region becomes dirty; a `demand` access
allocates one that is absent (R46, R47). -/
def State.physWrite (s : State) (pa : Nat) (v : View) (demand : Bool := false) (stp : Bool := false) : State :=
  match s.space pa with
  | .loc a =>
    let s1 := ((s.countPartial a v.bytes.length).touchRange a v.bytes.length true demand stp).devWrite a v.bytes
    { s1 with poison := v.bad.foldl (fun p q => poisonWords p (a + q.1) (q.2 - q.1)) s1.poison }
  | .host b =>
    let s1 := s.hostWrite b v.bytes
    { s1 with hostEp := v.bad.foldl (fun p q => poisonWords p (b + q.1) (q.2 - q.1)) s1.hostEp }
  | _ => s

/-- STP of the page of a virtual address (R81). -/
def State.stpOf (s : State) (n va : Nat) (write : Bool) : Bool := match s.translate n va write with | .ok _ _ stp => stp | .fault _ => false

/-- Whether the engines of a command make demand accesses to memory lines: the engines of the Cutting Room do, DMA, the Press, the
mesh and the fabric engines allocate nothing (R46, R47, assumption 70). -/
def State.engDemand (s : State) (n tag : Nat) : Bool := match s.cmd? n tag with | some c => c.op == 7 | none => false

/-- A read of translated pieces meets the cache regions, and its poisoned words are counted (R47, R69, R81). -/
def State.noteReads (s : State) (n : Nat) (demand : Bool) (ps : List (Nat × Nat × Nat)) : State :=
  ps.foldl (fun (t : State) p => match t.space p.2.1 with
    | .loc a => (t.countFound a p.2.2).touchRange a p.2.2 false demand (demand && t.stpOf n p.1 false)
    | _ => t) s

/-- Whether any 4 KiB page of a host range fails to read (R503). -/
def State.hostRangeFails (s : State) (bus len : Nat) : Bool :=
  (List.range ((bus % 4096 + len + 4095) / 4096)).any (fun i => s.hostFails (bus - bus % 4096 + 4096 * i))

/-- The first piece of host space that fails to read: its fault and bus address (R503). -/
def State.engHostCheck (s : State) (n : Nat) : List (Nat × Nat × Nat) → Option (AccFault × Nat)
  | [] => none
  | (va, pa, len) :: rest =>
    match s.space pa with
    | .host bus => if s.hostRangeFails bus len then some (s.hostFault n va, bus) else s.engHostCheck n rest
    | _ => s.engHostCheck n rest

/-! ## Transfers with remote parts -/

/-- The transfer of a step, if it has one. -/
def State.xfer? (s : State) (n tag key : Nat) : Option EngXfer :=
  s.fab.xfers.find? (fun x => x.ctx == n && x.tag == tag && x.key == key)
/-- The list without the transfer of a step. -/
def State.dropXfer (s : State) (n tag key : Nat) : State :=
  { s with fab := { s.fab with xfers := s.fab.xfers.filter (fun x => !(x.ctx == n && x.tag == tag && x.key == key)) } }
/-- Replaces the transfer of a step. -/
def State.putXfer (s : State) (x : EngXfer) : State :=
  let t := s.dropXfer x.ctx x.tag x.key
  { t with fab := { t.fab with xfers := t.fab.xfers ++ [x] } }
/-- Ends every transfer of a command. -/
def State.dropXfers (s : State) (n tag : Nat) : State :=
  { s with fab := { s.fab with xfers := s.fab.xfers.filter (fun x => !(x.ctx == n && x.tag == tag)) } }

/-- The remote ranges among pieces, whole words, cut at 4 KiB (R408). -/
def State.remoteRanges (s : State) (ps : List (Nat × Nat × Nat)) : List (Nat × Nat) :=
  (ps.filter (fun p => s.isRemote p.2.1)).flatMap (fun p =>
    let lo := p.2.1 - p.2.1 % 8
    let hi := (p.2.1 + p.2.2 + 7) / 8 * 8
    cut4k ((hi - lo) / 4096 + 2) lo (hi - lo))

/-- The words of remote space that pieces written would fill only in part. -/
def State.remoteEdges (s : State) (ps : List (Nat × Nat × Nat)) : List (Nat × Nat) :=
  (ps.filter (fun p => s.isRemote p.2.1)).flatMap (fun p =>
    let lo := p.2.1
    let hi := p.2.1 + p.2.2
    (if lo % 8 = 0 then [] else [(lo - lo % 8, 8)]) ++ (if hi % 8 = 0 then [] else [(hi - hi % 8, 8)]))

/-- Sends READ_REQ frames of an engine; a range that cannot be reached counts as no reply (R410). -/
def State.engReads (s : State) (n tag key : Nat) : List (Nat × Nat) → Except Nat (List Nat × State)
  | [] => .ok ([], s)
  | (pa, len) :: rest =>
    match s.space pa with
    | .remote node off =>
      let (s1, xid) := s.openTxn (.eng n tag key) node 2 pa len
      if s.nodeFailed node then .error node
      else match s1.sendFrame (s1.request 2 node 2 xid off len [] 0) with
        | none => .error node
        | some s2 => match s2.engReads n tag key rest with
          | .error e => .error e
          | .ok r => .ok (xid :: r.1, r.2)
    | _ => s.engReads n tag key rest

/-- The poison map of a payload (R395). -/
def poisonMap (bad : List (Nat × Nat)) : Nat :=
  (nub (bad.flatMap (fun p => (List.range (wordsOf p.1 (p.2 - p.1))).map (fun i => p.1 / 8 + i)))).foldl (fun m i => m + 2 ^ i) 0

/-- Sends WRITE frames of an engine on VC3 for whole words of a remote range given as a view (R408). -/
def State.engWrites (s : State) (n tag key : Nat) (v : View) (base : Nat) : List (Nat × Nat) → Except Nat (List Nat × State)
  | [] => .ok ([], s)
  | (pa, len) :: rest =>
    match s.space pa with
    | .remote node off =>
      let (s1, xid) := s.openTxn (.eng n tag key) node 1 pa len
      let part := v.part (pa - base) len
      if s.nodeFailed node then .error node
      else match s1.sendFrame (s1.request 3 node 1 xid off 0 part.bytes (poisonMap part.bad)) with
        | none => .error node
        | some s2 => match s2.engWrites n tag key v base rest with
          | .error e => .error e
          | .ok r => .ok (xid :: r.1, r.2)
    | _ => s.engWrites n tag key v base rest

/-- Where a step of an engine stands with its remote parts. -/
inductive EngNow where
  /-- replies are outstanding -/
  | wait (s : State)
  /-- a request was refused: whether the writes were being sent, and its physical address -/
  | refused (writing : Bool) (pa : Nat) (s : State)
  /-- no reply, or a node that cannot be reached -/
  | lost (s : State)
  /-- every write has been acknowledged -/
  | done (s : State)
  /-- what the step reads is there: remote bytes and their poison -/
  | go (buf : Memory) (bad : Store Bool) (s : State)

/-- Advances a step that must read remote ranges (R408, R410). -/
def State.engNow (s : State) (n tag key : Nat) (need : List (Nat × Nat)) : EngNow :=
  match s.xfer? n tag key with
  | some x =>
    if !x.xids.isEmpty then .wait s
    else if x.fail = 1 then .refused x.writing x.failAt (s.dropXfer n tag key)
    else if x.fail = 2 then .lost (s.dropXfer n tag key)
    else if x.writing then .done (s.dropXfer n tag key)
    else .go x.buf x.bad (s.dropXfer n tag key)
  | none =>
    if need.isEmpty then .go [] [] s
    else match s.engReads n tag key need with
      | .error node => .lost (s.e2eRecord n tag node 0)
      | .ok r => .wait (r.2.putXfer { ctx := n, tag, key, xids := r.1 })

/-- The bytes of a remote piece widened to whole words, the edges from the buffer. -/
def State.widen (buf : Memory) (bad : Store Bool) (pa : Nat) (v : View) : Nat × View :=
  let lo := pa - pa % 8
  let hi := (pa + v.bytes.length + 7) / 8 * 8
  let pre := Memory.bytes buf lo (pa - lo)
  let post := Memory.bytes buf (pa + v.bytes.length) (hi - (pa + v.bytes.length))
  let edge := fun (a : Nat) (off : Nat) => if a % 8 ≠ 0 ∧ Store.get false bad (a / 8) then [(off - off % 8, off - off % 8 + 8)] else []
  (lo, { bytes := pre ++ v.bytes ++ post
         bad := (v.bad.map (fun q => (pa - lo + q.1, pa - lo + q.2))) ++ edge pa (pa - lo) ++
           edge (pa + v.bytes.length) (pa - lo + v.bytes.length) })

/-- The virtual address of a piece that holds the first byte of a request for the words from `pa` on. -/
def pieceVa (ps : List (Nat × Nat × Nat)) (pa : Nat) : Option Nat :=
  (ps.find? (fun p => decide (p.2.1 - p.2.1 % 8 ≤ pa ∧ pa < p.2.1 + p.2.2))).map (fun p => (p.1 + (pa - p.2.1)) % 2 ^ 64)

/-- The fault of a step whose request was refused, and whether it was a write (R86, R410): the read of the words a write fills only in
part is part of the write. -/
def refusedAt (rs ws : List (Nat × Nat × Nat)) (writing : Bool) (pa : Nat) : AccFault × Bool :=
  let f := fun (va : Nat) => ({ cause := 2, unbacked := true, va } : AccFault)
  match if writing then none else pieceVa rs pa with
  | some va => (f va, false)
  | none => (f ((pieceVa ws pa).getD 0), true)

/-- The outcome of writing a step's outputs. -/
inductive EngOut where
  | lost (s : State)
  /-- written; `waits` says that acknowledgements are outstanding -/
  | ok (waits : Bool) (s : State)

/-- Writes views at their pieces: local and host parts at once, remote parts as frames whose acknowledgements the step then
waits for. -/
def State.engPutAs (s : State) (demand : Bool) (n tag key : Nat) (buf : Memory) (bad : Store Bool) (ws : List (List (Nat × Nat × Nat) × View)) : EngOut :=
  let flat := ws.flatMap (fun w => (w.1.foldl (fun (acc : Nat × List (Nat × View)) p =>
    (acc.1 + p.2.2, acc.2 ++ [(p.2.1, w.2.part acc.1 p.2.2)])) (0, [])).2)
  let near := (ws.flatMap (fun w => (w.1.foldl (fun (acc : Nat × List (Nat × Nat × View)) p =>
    (acc.1 + p.2.2, acc.2 ++ [(p.1, p.2.1, w.2.part acc.1 p.2.2)])) (0, [])).2)).foldl (fun (t : State) p =>
      if t.isRemote p.2.1 then t else t.physWrite p.2.1 p.2.2 demand (demand && t.stpOf n p.1 true)) s
  let far := (flat.filter (fun p => s.isRemote p.1)).map (fun p => State.widen buf bad p.1 p.2)
  if far.isEmpty then .ok false near
  else
    let sent := far.foldl (fun (acc : Except Nat (List Nat × State)) p =>
      match acc with
      | .error e => .error e
      | .ok (xs, t) =>
        let len := p.2.bytes.length
        match t.engWrites n tag key p.2 p.1 (cut4k (len / 4096 + 2) p.1 len) with
        | .error e => .error e
        | .ok r => .ok (xs ++ r.1, r.2)) (.ok ([], near))
    match sent with
    | .error node => .lost (near.e2eRecord n tag node 0)
    | .ok (xs, t) => .ok true (t.putXfer { ctx := n, tag, key, xids := xs, writing := true })

/-- Writes views at their pieces for a step of an engine. -/
def State.engPut (s : State) (n tag key : Nat) (buf : Memory) (bad : Store Bool) (ws : List (List (Nat × Nat × Nat) × View)) : EngOut :=
  s.engPutAs (s.engDemand n tag) n tag key buf bad ws

/-! ## Structures a command names (R603) -/

/-- Keys of the transfers Town Hall makes for a command, besides those of its engines. -/
def hallKey (i : Nat) : Nat := 2 ^ 64 + i

/-- What Town Hall finds when it reads structures for a command. -/
inductive ThIn where
  /-- the structures as little-endian numbers -/
  | ok (xs : List Nat) (s : State)
  /-- a fault that was recorded -/
  | fault (cause : Nat) (s : State)
  /-- a read of host space that failed and is tried again later (R503) -/
  | again (s : State)
  /-- replies of remote space are outstanding (R408) -/
  | wait (s : State)
  /-- no reply of remote space (R410) -/
  | lost (s : State)

/-- Translates ranges to read in order; the first fault wins. -/
def State.xlateAll (s : State) (n : Nat) : List (Nat × Nat) → Except AccFault (List (List (Nat × Nat × Nat)))
  | [] => .ok []
  | (va, len) :: rest =>
    match s.engXlate n va len false with
    | .error f => .error f
    | .ok ps => match s.xlateAll n rest with
      | .error f => .error f
      | .ok l => .ok (ps :: l)

/-- Town Hall reads structures for a command, (address, bytes) each (R603): demand accesses, their remote parts carried in frames
(R408). `retry` says that a failed host read is tried again rather than a fault. -/
def State.thRead (s : State) (n tag key : Nat) (rs : List (Nat × Nat)) (retry : Bool) : ThIn :=
  match s.xlateAll n rs with
  | .error f => .fault f.cause (s.cmdFaultRec n tag 4 0 f false)
  | .ok l =>
    match s.engHostCheck n l.flatten with
    | some (f, bus) =>
      let s1 := s.hostReadError n bus
      if retry then .again s1 else .fault 2 (s1.cmdFaultRec n tag 4 0 f false)
    | none =>
      match s.engNow n tag key (s.remoteRanges l.flatten) with
      | .wait t => .wait t
      | .refused _ pa t => .fault 2 (t.cmdFaultRec n tag 4 0 (refusedAt l.flatten [] false pa).1 false)
      | .lost t => .lost t
      | .done t => .ok [] t
      | .go buf bad t =>
        let vs := l.map (t.view buf bad)
        let t1 := t.noteReads n true l.flatten
        match (rs.zip vs).find? (fun x => !x.2.bad.isEmpty) with
        | some x => .fault 5 (t1.cmdFaultRec n tag 4 0 { cause := 5, va := x.1.1 } false)
        | none => .ok (vs.map View.nat) t1

/-- How a write of Town Hall for a command ends. -/
inductive ThOut where
  /-- written, or a fault that was recorded: its cause, 0 for none -/
  | ok (cause : Nat) (s : State)
  | wait (s : State)
  | lost (s : State)

/-- Town Hall writes a view at a virtual address for a command (R603), a demand access; remote parts go in frames (R408). -/
def State.thWrite (s : State) (n tag key va : Nat) (v : View) : ThOut :=
  match s.engXlate n va v.bytes.length true with
  | .error f => .ok f.cause (s.cmdFaultRec n tag 4 0 f true)
  | .ok ps =>
    match s.engNow n tag key (s.remoteEdges ps) with
    | .wait t => .wait t
    | .refused _ pa t => .ok 2 (t.cmdFaultRec n tag 4 0 (refusedAt [] ps true pa).1 true)
    | .lost t => .lost t
    | .done t => .ok 0 t
    | .go buf bad t =>
      match t.engPutAs true n tag key buf bad [(ps, v)] with
      | .lost t => .lost t
      | .ok true t => .wait t
      | .ok false t => .ok 0 t

end Sys2Proof.Machine
end

