-- ==== Sys2Proof/Machine/PressOps.lean ====
section
/-! DEFINITION. The Press: job record, checks, element programs, block scales and preconditioning (R282 to R299, R305). -/

namespace Sys2Proof.Machine

open Sys2Proof

/-! ## The job record (R285, R286) -/

/-- `n` bytes at offset `off` of a record kept as a number. -/
def recField (r off n : Nat) : Nat := bitsOf r (8 * off) (8 * n)

/-- STEPS. -/
def pjSteps (r : Nat) : Nat := recField r 0 1
/-- PRECOND. -/
def pjPrecond (r : Nat) : Bool := bitOf r 8
/-- FACTORED. -/
def pjFactored (r : Nat) : Bool := bitOf r 9
/-- LAYOUT: blocked. -/
def pjBlocked (r : Nat) : Bool := bitOf r 10
/-- SEED. -/
def pjSeed (r : Nat) : W32 := BitVec.ofNat 32 (recField r 4 4)
/-- COUNTER. -/
def pjCounter (r : Nat) : Nat := recField r 8 8
/-- RESULT. -/
def pjResult (r : Nat) : Nat := recField r 0x10 8
/-- ROWS. -/
def pjRows (r : Nat) : Nat := recField r 0x18 4
/-- COLS. -/
def pjCols (r : Nat) : Nat := recField r 0x1C 4
/-- START_UNIT. -/
def pjStart (r : Nat) : Nat := recField r 0x20 4
/-- STAT_EVERY. -/
def pjStatEvery (r : Nat) : Nat := recField r 0x24 2
/-- BLOCK_R. -/
def pjBlockR (r : Nat) : Nat := recField r 0x28 2
/-- BLOCK_C. -/
def pjBlockC (r : Nat) : Nat := recField r 0x2A 2
/-- BETA_S. -/
def pjBetaS (r : Nat) : W32 := BitVec.ofNat 32 (recField r 0x2C 4)
/-- LEFT_PUB. -/
def pjLeftPub (r : Nat) : Nat := recField r 0x30 8
/-- RIGHT_PUB. -/
def pjRightPub (r : Nat) : Nat := recField r 0x38 8
/-- STATS. -/
def pjStats (r : Nat) : Nat := recField r 0x40 8
/-- Constant k`n` of the record, n below 12. -/
def pjK (r n : Nat) : W32 := BitVec.ofNat 32 (recField r (0x50 + 4 * n) 4)
/-- Step word `n` (R289). -/
def pjStep (r n : Nat) : Nat := recField r (0x80 + 4 * n) 4
/-- The step words of the program. -/
def pjProgram (r : Nat) : List Nat := (List.range (pjSteps r)).map (pjStep r)

/-- BASE of a slot. -/
def slBase (r s : Nat) : Nat := recField r (0x100 + 32 * s) 8
/-- SCALE_BASE. -/
def slScaleBase (r s : Nat) : Nat := recField r (0x108 + 32 * s) 8
/-- Word 0x10 of a slot. -/
def slWord (r s : Nat) : Nat := recField r (0x110 + 32 * s) 4
/-- FMT. -/
def slFmt (r s : Nat) : Nat := bitsOf (slWord r s) 0 4
/-- SCALED. -/
def slScaled (r s : Nat) : Bool := bitOf (slWord r s) 4
/-- STATE. -/
def slState (r s : Nat) : Bool := bitOf (slWord r s) 5
/-- ROUND: stochastic. -/
def slRound (r s : Nat) : Bool := bitOf (slWord r s) 6
/-- USED. -/
def slUsed (r s : Nat) : Bool := bitOf (slWord r s) 7
/-- TSCALE. -/
def slTscale (r s : Nat) : W32 := BitVec.ofNat 32 (recField r (0x114 + 32 * s) 4)
/-- The element format of a slot. -/
def slElem (r s : Nat) : ElemFmt := (ElemFmt.ofCode (slFmt r s)).getD .fp32
/-- Bits per element of a slot. -/
def slBits (r s : Nat) : Nat := (slElem r s).bits
/-- The scales of a slot: FB4 always has them (R286). -/
def slKind (r s : Nat) : ScaleKind := if slFmt r s = 11 then .fb4 else if slScaled r s then .mx else .none
/-- Elements per scale block, 0 for an unscaled slot. -/
def slBlock (r s : Nat) : Nat := if slKind r s = .none then 0 else (slKind r s).block
/-- Elements per group that a poisoned word poisons (R305). -/
def slGroup (r s : Nat) : Nat := if slKind r s = .none then 32 else (slKind r s).block

/-- OP of a step word (R289). -/
def psOp (w : Nat) : Nat := bitsOf w 26 6
/-- D. -/
def psD (w : Nat) : Nat := bitsOf w 22 4
/-- A. -/
def psA (w : Nat) : Nat := bitsOf w 17 5
/-- B. -/
def psB (w : Nat) : Nat := bitsOf w 12 5
/-- C. -/
def psC (w : Nat) : Nat := bitsOf w 7 5

/-- Times the program loads slot `s`. -/
def pjLoads (r s : Nat) : Nat := (pjProgram r).countP (fun w => psOp w == 1 && psA w % 8 == s)
/-- Times the program stores slot `s`. -/
def pjStores (r s : Nat) : Nat := (pjProgram r).countP (fun w => psOp w == 2 && psD w % 8 == s)
/-- Whether slot `s` holds row or column statistics (R286). -/
def pjStatSlot (r s : Nat) : Bool := pjFactored r && (s == 6 || s == 7)
/-- The tensor slots in use. -/
def pjSlots (r : Nat) : List Nat := (List.range 8).filter (fun s => slUsed r s && !pjStatSlot r s)

/-- A block side of a preconditioned program (R288). -/
def sideOk (n : Nat) : Bool := n == 64 || n == 128 || n == 256

/-- Units of the tensor (R287). -/
def pjUnits (r : Nat) : Nat :=
  if pjPrecond r then
    (if sideOk (pjBlockR r) && sideOk (pjBlockC r) then pjRows r / pjBlockR r * (pjCols r / pjBlockC r) else 0)
  else ceilDiv (pjRows r * pjCols r) 4096

/-- A step word that R288 refuses. -/
def stepBad (r w : Nat) : Bool :=
  let op := psOp w
  op == 0 || decide (0x13 < op) ||
    (op == 1 && (decide (8 ≤ psA w) || !slUsed r (psA w % 8) || pjStatSlot r (psA w % 8))) ||
    (op == 2 && (decide (8 ≤ psD w) || !slUsed r (psD w % 8) || pjStatSlot r (psD w % 8) || !slState r (psD w % 8))) ||
    ((op == 0x10 || op == 0x11 || op == 0x12) && !pjFactored r) || (op == 0x13 && !pjPrecond r)

/-- ILLEGAL_OPCODE conditions (R288). -/
def pjIllegal (r : Nat) : Bool :=
  pjSteps r == 0 || decide (32 < pjSteps r) || (pjPrecond r && pjFactored r) || (pjProgram r).any (stepBad r) ||
    (pjSlots r).any (fun s => slState r s && (decide (1 < pjLoads r s) || pjStores r s != 1))

/-- SHAPE_FAULT conditions (R288). -/
def pjShape (r : Nat) : Bool :=
  let used := (List.range 8).filter (slUsed r)
  !slUsed r 0 || !slState r 0 ||
    used.any (fun s => !([0, 1, 2, 3, 4, 11].contains (slFmt r s))) ||
    used.any (fun s => slScaled r s && !([3, 4, 11].contains (slFmt r s))) ||
    used.any (fun s => slBlock r s != 0 && pjCols r % slBlock r s != 0) ||
    (pjBlocked r && (pjRows r % 64 != 0 || pjCols r % 64 != 0)) ||
    (pjPrecond r && (!pjBlocked r || !sideOk (pjBlockR r) || !sideOk (pjBlockC r) || pjRows r % pjBlockR r != 0 ||
      pjCols r % pjBlockC r != 0)) ||
    (pjFactored r && ([6, 7].any (fun s => !slUsed r s || slFmt r s != 0 || slScaled r s || !slState r s) ||
      decide (32768 < pjRows r) || decide (32768 < pjCols r))) ||
    decide (pjUnits r ≤ pjStart r)

/-- STREAM_MISALIGNED conditions (R288); `va` is the address of the record. -/
def pjMisaligned (r va : Nat) : Bool :=
  va % 256 != 0 || pjCounter r % 8 != 0 || pjResult r % 32 != 0 ||
    ((List.range 8).filter (slUsed r)).any (fun s =>
      slBase r s % 256 != 0 || (slBlock r s != 0 && slScaleBase r s % 256 != 0))

/-- A reserved bit of the record that is set (R16, R504). -/
def pjReserved (r : Nat) : Bool :=
  bitsOf r 11 21 != 0 || recField r 0x26 2 != 0 || recField r 0x48 8 != 0 ||
    ((List.range 8).filter (slUsed r)).any (fun s => slWord r s / 256 != 0 || recField r (0x118 + 32 * s) 8 != 0) ||
    (pjProgram r).any (fun w => w % 128 != 0)

/-- The cause of R288, 0 for none. -/
def pjCheck (r va : Nat) : Nat :=
  if pjIllegal r then 7 else if pjShape r then 1 else if pjMisaligned r va then 0xA else 0

/-! ## Homes and engines (R282) -/

/-- Half and executing engines by the physical address of slot 0 (R282). -/
def State.pressHome (s : State) (pa : Nat) : Nat × List Nat :=
  let west := [0, 1, 2, 3]
  let east := [5, 6, 7, 8]
  match s.space pa with
  | .loc a =>
    if isHbm a then (if a < 0x6000000000 then (0, west) else (1, east))
    else if isTier2 a then (if a < 0x14000000000 then (0, [4]) else (1, [9]))
    else if s.isStaging a then (if bitOf a 30 then (1, east) else (0, west))
    else (if (a - coreStoreBase) / 0x100000 < 288 then (0, west) else (1, east))
  | .host _ => (1, east)
  | _ => (0, west)

/-! ## Spans (R287) -/

/-- Elements of the tensor. -/
def pjCount (r : Nat) : Nat := pjRows r * pjCols r
/-- Index of span `k` of unit `u`, from the start of the tensor. -/
def pjSpan (r u k : Nat) : Nat :=
  if pjPrecond r then
    let across := pjCols r / pjBlockC r
    let nb := pjBlockC r / 64
    (u / across * (pjBlockR r / 64) + k / nb) * (pjCols r / 64) + (u % across * nb + k % nb)
  else u
/-- Spans of a unit. -/
def pjUnitSpans (r : Nat) : Nat := if pjPrecond r then pjBlockR r / 64 * (pjBlockC r / 64) else 1
/-- Elements of span `i`. -/
def pjSpanLen (r i : Nat) : Nat := min 4096 (pjCount r - 4096 * i)
/-- Row and column of element `e` in storage order (R259, R286). -/
def pjRC (r e : Nat) : Nat × Nat :=
  if pjBlocked r then
    let b := e / 4096
    (64 * (b / (pjCols r / 64)) + e % 4096 / 64, 64 * (b % (pjCols r / 64)) + e % 64)
  else (e / pjCols r, e % pjCols r)

/-- The virtual range of the elements of a span in a slot. -/
def slData (r s i : Nat) : List (Nat × Nat) :=
  let b := slBits r s
  [(slBase r s + 4096 * i * b / 8, ceilDiv (pjSpanLen r i * b) 8)]

/-- The virtual ranges of the scale entries of a span in a slot, in storage order (R286). -/
def slScales (r s i : Nat) : List (Nat × Nat) :=
  let b := slBlock r s
  if b = 0 then []
  else if pjBlocked r then
    (List.range 64).map (fun k =>
      let rc := pjRC r (4096 * i + 64 * k)
      (slScaleBase r s + (rc.1 * (pjCols r / b) + rc.2 / b) * 2, 64 / b * 2))
  else [(slScaleBase r s + 4096 * i / b * 2, ceilDiv (pjSpanLen r i) b * 2)]

/-- Whether the elements of a slot are read: inputs, and state tensors the program loads (R286, R304). -/
def slReads (r s : Nat) : Bool := !slState r s || pjLoads r s != 0
/-- Whether a slot is written. -/
def slWrites (r s : Nat) : Bool := pjStores r s != 0

/-! ## One span's inputs -/

/-- A slot of a span as it was read. -/
structure SlotIn where
  slot : Nat
  data : View := {}
  scale : View := {}
  deriving Repr

/-- The scale entry of local block `b`. -/
def SlotIn.entry (x : SlotIn) (b : Nat) : Nat := leNat ((x.scale.bytes.drop (2 * b)).take 2)

/-- The element codes of a slot's span, in storage order. -/
def SlotIn.codes (x : SlotIn) (r n : Nat) : List Nat :=
  let v := x.data.nat
  (List.range n).map (fun k => bitsOf v (k * slBits r x.slot) (slBits r x.slot))

/-- The elements of a slot's span decoded to FP32 (R293). -/
def SlotIn.values (x : SlotIn) (r n : Nat) : List W32 :=
  let kind := slKind r x.slot
  let entries := (List.range (if slBlock r x.slot = 0 then 0 else ceilDiv n (slBlock r x.slot))).map x.entry
  ((x.codes r n).zipIdx).map (fun p =>
    let v := decodeScaled (slElem r x.slot) kind (if slBlock r x.slot = 0 then 0 else entries.getD (p.2 / slBlock r x.slot) 0) p.1
    f32of (if kind = .fb4 then Fv.mul v (f32v (slTscale r x.slot)) else v))

/-- The ranges of local elements that a slot's poisoned words poison (R305). -/
def SlotIn.bad (x : SlotIn) (r n : Nat) : List (Nat × Nat) :=
  let g := slGroup r x.slot
  let b := slBits r x.slot
  (x.data.bad.map (fun p => (p.1 * 8 / b / g * g, min n ((ceilDiv (p.2 * 8) b + g - 1) / g * g)))) ++
    (x.scale.bad.map (fun p => (p.1 / 2 * g, min n ((p.2 + 1) / 2 * g))))

/-! ## The element program (R289 to R292) -/

/-- What an element's program reads besides its registers. -/
structure ElemEnv where
  /-- constants k0 to k15 -/
  ks : List W32
  t : Nat
  /-- decoded element of each slot -/
  ld : Nat → W32
  row : W32 := 0
  col : W32 := 0
  sumrow : W32 := 0
  pre : W32 := 0

/-- What an element's program has done so far. -/
structure ElemOut where
  regs : List W32 := List.replicate 16 0
  /-- slot, value and random bits of each ST -/
  stores : List (Nat × W32 × Nat) := []
  racc : List W32 := []
  cacc : List W32 := []
  gen : W32 := 0

/-- SIGN (R290). -/
def f32sign (a : W32) : W32 :=
  match f32v a with
  | .nan => f32nan
  | .inf s => if s then 0xBF800000#32 else f32one
  | .fin s m _ => if m = 0 then 0 else if s then 0xBF800000#32 else f32one

/-- One step of an element's program (R290). -/
def elemStep (r : Nat) (env : ElemEnv) (o : ElemOut) (w : Nat) : ElemOut :=
  let val := fun (x : Nat) => if x < 16 then o.regs.getD x 0 else env.ks.getD (x - 16) 0
  let a := val (psA w)
  let b := val (psB w)
  let c := val (psC w)
  let set := fun (v : W32) => { o with regs := o.regs.set (psD w) v }
  match psOp w with
  | 0x01 => set (env.ld (psA w % 8))
  | 0x02 =>
    let slot := psD w % 8
    if slRound r slot then
      let g := xorshift o.gen
      { o with gen := g, stores := o.stores ++ [(slot, a, bitsOf g.toNat 16 16)] }
    else { o with stores := o.stores ++ [(slot, a, 0)] }
  | 0x03 => set (f32add a b)
  | 0x04 => set (f32sub a b)
  | 0x05 => set (f32mul a b)
  | 0x06 => set (f32fma a b c)
  | 0x07 => set (f32div a b)
  | 0x08 => set (f32sqrt a)
  | 0x09 => set (f32rsq a)
  | 0x0A => set (f32max a b)
  | 0x0B => set (f32min a b)
  | 0x0C => set (if (f32v a).isNan then f32nan else a &&& 0x7FFFFFFF#32)
  | 0x0D => set (if Fv.lt (.fin false 0 0) (f32v c) then a else b)
  | 0x0E => set (f32sign a)
  | 0x0F => set (powT a env.t)
  | 0x10 => set (if Fv.lt (.fin false 0 0) (f32v env.sumrow) then f32div (f32mul env.row env.col) env.sumrow else a)
  | 0x11 => { o with racc := o.racc ++ [a] }
  | 0x12 => { o with cacc := o.cacc ++ [a] }
  | 0x13 => set env.pre
  | _ => o

/-- Constant k13: t as FP32 (R289). -/
def tConst (t : Nat) : W32 := f32ofInt (t : Int)

/-- The constants k0 to k15 of a command (R289). -/
def pjConsts (r : Nat) (clip : W32) (t : Nat) : List W32 :=
  (List.range 12).map (pjK r) ++ [clip, tConst t, f32one, 0]

/-- What a span's elements gave: their stores, and the accumulators of the engine. -/
structure SpanOut where
  /-- stores of each element, last element first -/
  elems : List (List (Nat × W32 × Nat)) := []
  racc : Store W32 := []
  cacc : Store W32 := []
  gen : W32 := 0

/-- Adds values to an accumulator, in order (R290, R292). -/
def accAdd (m : Store W32) (k : Nat) (vs : List W32) : Store W32 :=
  vs.foldl (fun (acc : Store W32) v => Store.set 0 acc k (f32add (Store.get 0 acc k) v)) m

/-- Runs the program on every element of a span, in storage order. `ins` gives the decoded slots, `gp` the preconditioned
gradient of the span. -/
def runSpan (j : PressJob) (eng i : Nat) (ins : List (Nat × List W32)) (gp : List W32) : SpanOut :=
  let r := j.jrec
  let n := pjSpanLen r i
  let prog := pjProgram r
  let ks := pjConsts r j.clip j.t
  (List.range n).foldl (fun (acc : SpanOut) x =>
    let rc := pjRC r (4096 * i + x)
    let env : ElemEnv := {
      ks, t := j.t, ld := fun s => ((ins.find? (fun p => p.1 == s)).map (fun p => p.2.getD x 0)).getD 0
      row := j.rowOld.getD rc.1 0, col := j.colOld.getD rc.2 0, sumrow := j.sumrow, pre := gp.getD x 0 }
    let o := prog.foldl (elemStep r env) { gen := acc.gen }
    { elems := o.stores :: acc.elems
      racc := accAdd acc.racc (eng * 65536 + rc.1) o.racc
      cacc := accAdd acc.cacc (eng * 65536 + rc.2) o.cacc
      gen := o.gen }) { racc := j.racc, cacc := j.cacc, gen := seedState (pjSeed r) i }

/-! ## A span's outputs (R294) -/

/-- What ST wrote to one slot of a span. -/
structure SlotOut where
  slot : Nat
  data : List Byte := []
  scale : List Byte := []
  sat : Nat := 0
  nf : Nat := 0

/-- Elements packed at `w` bits each (R224). -/
def packElems (w : Nat) (cs : List Nat) : List Byte :=
  natLE (ceilDiv (cs.length * w) 8) (cs.foldr (fun c acc => c % 2 ^ w + 2 ^ w * acc) 0)

/-- The values of a slot's span cut in blocks of `b`. -/
def chunk {α : Type} (b : Nat) : Nat → List α → List (List α)
  | 0, _ => []
  | k + 1, xs => if xs.isEmpty then [] else xs.take b :: chunk b k (xs.drop b)

/-- Writes the values of one slot of a span: conversions, scales and counts (R294, R306). `entries` are the scale entries as
read, whose tags stay. -/
def slotWrite (r slot : Nat) (vals : List (W32 × Nat)) (entries : Nat → Nat) : SlotOut :=
  let f := slElem r slot
  let rm := fun (x : Nat) => if slRound r slot then RoundMode.rand x else RoundMode.near
  match slKind r slot with
  | .none =>
    if f = .fp32 then
      { slot, data := packElems 32 (vals.map (fun p => p.1.toNat)), nf := vals.countP (fun p => !(f32v p.1).isFin) }
    else
      let cs := vals.map (fun p => convert f (rm p.2) false false (f32v p.1))
      { slot, data := packElems f.bits (cs.map (·.code)), sat := cs.countP (·.sat), nf := cs.countP (·.nf) }
  | kind =>
    let ys := vals.map (fun p => (f32v (if kind = .fb4 then f32div p.1 (slTscale r slot) else p.1), p.2))
    let blocks := chunk kind.block (ys.length + 1) ys
    let scs := blocks.map (fun b => blockScale f kind false (b.map (·.1)))
    let cs := (blocks.zip scs).flatMap (fun q => q.1.map (fun p => convertScaled f kind (rm p.2) false q.2 p.1))
    { slot, data := packElems f.bits (cs.map (·.code)), sat := cs.countP (·.sat), nf := cs.countP (·.nf)
      scale := (scs.zipIdx).flatMap (fun q => natLE 2 (q.1.1 % 256 + (entries q.2 / 256 % 64) * 256)) }

/-! ## Preconditioning (R299) -/

/-- A row-major FP32 matrix as rows. -/
def matRows (cols : Nat) (v : View) : List (List W32) :=
  let ws := (chunk 4 (v.bytes.length + 1) v.bytes).map (fun b => BitVec.ofNat 32 (leNat b))
  chunk cols (ws.length + 1) ws

/-- The transpose of a matrix with `cols` columns. -/
def matT (cols : Nat) (m : List (List W32)) : List (List W32) := (List.range cols).map (fun j => m.map (fun row => row.getD j 0))

/-- A sum of products in increasing order, one fused multiply-add a term. -/
def fdot (xs ys : List W32) : W32 := (xs.zip ys).foldl (fun acc p => f32fma p.1 p.2 acc) 0

/-- Product of `a` with the matrix whose columns are the rows of `bt`. -/
def matMul (a bt : List (List W32)) : List (List W32) := a.map (fun row => bt.map (fdot row))

/-- beta × s + p, each rounded once. -/
def matDecay (beta : W32) (s p : List (List W32)) : List (List W32) :=
  (s.zip p).map (fun q => (q.1.zip q.2).map (fun x => f32add (f32mul beta x.1) x.2))

/-- The bytes of a matrix. -/
def matBytes (m : List (List W32)) : List Byte := m.flatten.flatMap (fun x => natLE 4 x.toNat)

/-- The gradient of a unit as rows, from its spans in storage order. -/
def unitRows (r : Nat) (spans : List (List W32)) : List (List W32) :=
  let nb := pjBlockC r / 64
  (List.range (pjBlockR r)).map (fun i =>
    (List.range nb).flatMap (fun b => ((spans.getD (i / 64 * nb + b) []).drop (64 * (i % 64))).take 64))

/-- The part of a unit's matrix that span `k` holds, in storage order. -/
def unitSpan (r k : Nat) (gp : List W32) : List W32 :=
  let nb := pjBlockC r / 64
  (List.range 64).flatMap (fun i => (gp.drop ((64 * (k / nb) + i) * pjBlockC r + 64 * (k % nb))).take 64)

/-- Whether a command gathers preconditioner statistics at its step (R285, R299). -/
def pjStatStep (r t : Nat) : Bool := pjPrecond r && pjStatEvery r != 0 && t % pjStatEvery r == 0

end Sys2Proof.Machine
end

