-- ==== Sys2Proof/Machine/Progress.lean ====
section
/-! DEFINITION. Progress slots (R302, R496). -/

namespace Sys2Proof.Machine

open Sys2Proof

/-- Number of cores a mask names. -/
def coreCount (m : Nat) : Nat := (List.range 576).countP (bitOf m)

/-- The position a Press command reports (R302). -/
def PressJob.position (j : PressJob) : Nat :=
  j.next % 2 ^ 32 + (if j.faultUnit = 0 then 0xFFFFFFFF else (j.faultUnit - 1) % 2 ^ 32) * 2 ^ 32

/-- The lowest of the first `n` keys that a store of flags does not list, from `i` on. -/
def lowestFrom (m : Store Bool) : Nat → Nat → Nat
  | 0, i => i
  | n + 1, i => if Store.get false m i then lowestFrom m n (i + 1) else i

/-- The lowest of the first `n` keys that a store of flags does not list, `n` if it lists all. -/
def lowest (m : Store Bool) (n : Nat) : Nat := lowestFrom m n 0

/-- Bits of a mask that are set, below 64. -/
def maskCount (m : Nat) : Nat := (List.range 64).countP (bitOf m)

/-- The delivered-target mask (R371). -/
def McastJob.delivered (j : McastJob) : Nat :=
  ((List.range j.targets.length).filter (fun i => j.counts.getD i 0 == j.total)).foldl (fun m i => m + 2 ^ i) 0

/-- KIND of a collective: 1 RS, 2 AG, 3 AR (R415, R486). -/
def Cmd.collKind (c : Cmd) : Nat := bitsOf (c.body 2) 0 2
/-- LENGTH of a collective, in elements. -/
def Cmd.collLen (c : Cmd) : Nat := bitsOf (c.body 2) 32 32

/-- DST chunks of 1,024 elements (R415): a shard's for RS, else all. -/
def Cmd.collChunks (c : Cmd) (j : CollJob) : Nat := (if c.collKind = 1 then c.collLen / j.p else c.collLen) / 1024

/-- DONE, TOTAL and POSITION of a command with a progress slot (R496). -/
def Cmd.progress (c : Cmd) : Option (Nat × Nat × Nat) :=
  match c.job with
  | .compute j => some (coreCount j.ended, coreCount j.named, coreCount j.ended)
  | .dma j => some (j.done, j.total, 65536 * j.next)
  | .press j => some (pjStart j.jrec + j.done, j.total, j.position)
  | .dump j => some (j.next - j.first, j.total, j.next)
  | .reduce j => some (j.written.length, j.total, lowest j.written j.total)
  | .mcast j => some (maskCount j.delivered, j.targets.length, j.delivered)
  | .gather j => some (j.finished.length, j.total, lowest j.finished j.total)
  | .coll j => some (j.done, c.collChunks j, lowest j.written (c.collChunks j))
  | .ingest j => some (j.count, recField j.jrec 0x1C 4, j.first)
  | _ => none

/-- Writes the progress slot of a command; nothing once the context's reset has begun (R496, R502). -/
def State.writeProgress (s : State) (n : Nat) (c : Cmd) : State :=
  match c.progress with
  | none => s
  | some (done, total, pos) =>
    if s.ctxState n = 3 then s
    else
      (s.hostWrite (s.progressBase n + 16 * (c.tag % 2 ^ s.cmdLog n)) (natLE 4 done ++ natLE 4 total ++ natLE 8 pos)).setCmd n
        { c with progressAt := s.now }

/-- Writes the progress slot of the command with a tag. -/
def State.progressFor (s : State) (n tag : Nat) : State :=
  match s.cmd? n tag with | some c => s.writeProgress n c | none => s

/-- A command starts to run with a job; its progress slot is written (R491, R496). -/
def State.startJob (s : State) (n : Nat) (c : Cmd) (job : Job) : State :=
  let c1 := { c with phase := .running, job }
  (s.setCmd n c1).writeProgress n c1

end Sys2Proof.Machine
end

