-- ==== Sys2Proof/Machine/Press.lean ====
section
/-! DEFINITION. The Press commands and engines: opening, hand-out, spans, faults and completion (R288 to R308). -/

namespace Sys2Proof.Machine

open Sys2Proof

/-- Press engine `p`. -/
def State.pressEng (s : State) (p : Nat) : PressEng := Store.get {} s.press p
/-- Replaces Press engine `p`. -/
def State.setPressEng (s : State) (p : Nat) (e : PressEng) : State := { s with press := Store.set {} s.press p e }

/-- The Press job of a command. -/
def Cmd.pressJob? (c : Cmd) : Option PressJob := match c.job with | .press j => some j | _ => none

/-- Applies `f` to the Press job of the command with a tag. -/
def State.updPress (s : State) (n tag : Nat) (f : PressJob → PressJob) : State :=
  s.updCmd n tag (fun c => match c.job with | .press j => { c with job := .press (f j) } | _ => c)

/-- The virtual address of byte `off` of ranges read as one view. -/
def rangesVa : List (Nat × Nat) → Nat → Nat
  | [], _ => 0
  | (va, n) :: rest, off => if off < n then va + off else rangesVa rest (off - n)

/-- Ends a command that never started a unit: nothing of its own is written afterwards (R301, R603). -/
def State.pressEndEarly (s : State) (n tag status cause : Nat) : State :=
  s.updCmd n tag (fun c => { c.settle status cause 0 with job := .none })

/-! ## Closing and settling -/

/-- The sum of the partial accumulators of the executing engines, in engine-number order (R292). -/
def partials (m : Store W32) (engines : List Nat) (i : Nat) : W32 :=
  match engines with
  | [] => 0
  | e :: es => es.foldl (fun acc p => f32add acc (Store.get 0 m (p * 65536 + i))) (Store.get 0 m (e * 65536 + i))

/-- The new statistics of one slot (R292). -/
def newStats (beta : W32) (old : List W32) (m : Store W32) (engines : List Nat) : List W32 :=
  (old.zipIdx).map (fun p => f32add (f32mul beta p.1) (partials m engines p.2))

/-- A list of FP32 values with poisoned groups of 32, as a view. -/
def statView (xs : List W32) (bad : List Nat) : View :=
  { bytes := xs.flatMap (fun x => natLE 4 x.toNat)
    bad := bad.map (fun g => (128 * g, min (128 * g + 128) (4 * xs.length))) }

/-- Settles a Press command whose units have ended (R301 to R305). -/
def Cmd.pressDone (c : Cmd) (j : PressJob) : Cmd :=
  if j.faultUnit ≠ 0 then c.settle 4 j.fcause 0
  else if j.timeout then c.settle 6 0 0
  else if j.aborted then c.settle 1 0 j.position
  else if j.poisonMet then c.settle 4 5 0
  else c.settle 0 0 0

/-- Writes the row and column statistics of a factored command and settles it (R292); their poisoned blocks, written, are counted
(R305, R306). -/
def State.pressClose (s : State) (n tag : Nat) (c : Cmd) (j : PressJob) : State :=
  let r := j.jrec
  let eng := j.engines.headD 0
  let rv := statView (newStats (pjBetaS r) j.rowOld j.racc j.engines) j.rowBad
  let cv := statView (newStats (pjBetaS r) j.colOld j.cacc j.engines) j.colBad
  let fail := fun (t : State) (f : AccFault) =>
    (t.cmdFaultRec n tag 2 eng f true).updPress n tag (fun k => { k with faultUnit := 2 ^ 32, fcause := f.cause })
  let wrote := fun (k : PressJob) => { k with poisoned := satAdd 0xFFFFFFFF k.poisoned (k.rowBad.length + k.colBad.length) }
  let settle := fun (t : State) => match t.cmd? n tag with
    | some c1 => match c1.pressJob? with | some k => t.setCmd n (c1.pressDone k) | none => t
    | none => t
  match s.engXlate n (slBase r 6) rv.bytes.length true, s.engXlate n (slBase r 7) cv.bytes.length true with
  | .error f, _ => settle (fail s f)
  | _, .error f => settle (fail s f)
  | .ok p6, .ok p7 =>
    match s.engNow n tag 998 (s.remoteEdges (p6 ++ p7)) with
    | .wait t => t
    | .refused _ pa t => settle (fail t (refusedAt [] (p6 ++ p7) true pa).1)
    | .lost t => settle (t.updPress n tag (fun k => { k with timeout := true }))
    | .done t => settle (t.updPress n tag wrote)
    | .go buf bad t =>
      match t.engPut n tag 998 buf bad [(p6, rv), (p7, cv)] with
      | .lost t1 => settle (t1.updPress n tag (fun k => { k with timeout := true }))
      | .ok true t1 => t1.setCmd n { c with job := .press { j with phase := .closing } }
      | .ok false t1 => settle (t1.updPress n tag wrote)

/-- Settles a Press command once every unit handed out has run (R302, R304). -/
def State.pressSettle (s : State) (n tag : Nat) : State :=
  match s.cmd? n tag with
  | none => s
  | some c => match c.pressJob? with
    | none => s
    | some j =>
      let busy := (List.range 10).any (fun p => let e := s.pressEng p; e.busy && e.ctx == n && e.tag == tag)
      if c.phase ≠ .running ∨ (j.phase ≠ .running ∧ !j.stop) ∨ busy ∨ (!j.stop ∧ j.next < j.total) then s
      else if pjFactored j.jrec ∧ !j.stop then s.pressClose n tag c j
      else s.setCmd n (c.pressDone j)

/-! ## Opening (R292, R298, R301) -/

/-- The FP32 words of a view. -/
def View.words32 (v : View) : List W32 := (chunk 4 (v.bytes.length + 1) v.bytes).map (fun b => BitVec.ofNat 32 (leNat b))

/-- The 32-element groups of an FP32 view that hold poisoned words. -/
def View.groups32 (v : View) : List Nat := nub (v.bad.map (fun p => p.1 / 128))

/-- SUMROW: the sum in index order in FP64, rounded to FP32 (R292). -/
def sumRow (xs : List W32) : W32 := f32of64 (xs.foldl (fun acc x => f64add acc (f64of32 x)) 0)

/-- The command starts to run its units. -/
def State.pressGo (s : State) (n tag : Nat) (j : PressJob) : State :=
  ((s.updPress n tag (fun _ => { j with phase := .running })).progressFor n tag).pressSettle n tag

/-- Reads slots 6 and 7 of a factored command whole (R292), then starts it. A poisoned word poisons the blocks of its own slot that hold
an element of the word, which are written poisoned at the end (R305, assumption 72). -/
def State.pressStats (s : State) (n tag : Nat) (j : PressJob) : State :=
  let r := j.jrec
  let eng := j.engines.headD 0
  let fail := fun (t : State) (f : AccFault) => (t.cmdFaultRec n tag 2 eng f false).pressEndEarly n tag 4 f.cause
  match s.engXlate n (slBase r 6) (4 * pjRows r) false, s.engXlate n (slBase r 7) (4 * pjCols r) false with
  | .error f, _ => fail s f
  | _, .error f => fail s f
  | .ok p6, .ok p7 =>
    match s.engHostCheck n (p6 ++ p7) with
    | some (f, bus) => fail (s.hostReadError n bus) f
    | none =>
      match s.engNow n tag 999 (s.remoteRanges (p6 ++ p7)) with
      | .wait t => t.updPress n tag (fun _ => { j with phase := .opening })
      | .refused _ pa t => fail t (refusedAt (p6 ++ p7) [] false pa).1
      | .lost t => t.pressEndEarly n tag 6 0
      | .done t => t
      | .go buf bad t0 =>
        let v6 := t0.view buf bad p6
        let v7 := t0.view buf bad p7
        let t := t0.noteReads n false (p6 ++ p7)
        let met := !v6.bad.isEmpty || !v7.bad.isEmpty
        let va := if v6.bad.isEmpty then slBase r 7 + (v7.bad.headD (0, 0)).1 else slBase r 6 + (v6.bad.headD (0, 0)).1
        let t1 := if met then t.cmdFaultRec n tag 2 eng { cause := 5, va } false else t
        t1.pressGo n tag { j with
          rowOld := v6.words32, colOld := v7.words32, rowBad := v6.groups32, colBad := v7.groups32
          sumrow := sumRow v6.words32, poisonMet := met }

/-- The gate of the step opened: the counter and the publication records the record names are read, then the statistics of a factored
command (R292, R298, R301). -/
def State.pressOpen (s : State) (n tag : Nat) (j : PressJob) : State :=
  let r := j.jrec
  let pub : Nat → List (Nat × Nat) := fun va => if va = 0 then [] else [(va, if pjPrecond r then 24 else 8)]
  match s.thRead n tag (hallKey 0) ([(pjCounter r, 8)] ++ pub (pjLeftPub r) ++ pub (pjRightPub r)) false with
  | .again t => t
  | .wait t => t.updPress n tag (fun _ => { j with phase := .reading })
  | .lost t => t.pressEndEarly n tag 6 0
  | .fault cause t => t.pressEndEarly n tag 4 cause
  | .ok xs t =>
    let l := if pjLeftPub r = 0 then 0 else xs.getD 1 0
    let g := if pjRightPub r = 0 then 0 else xs.getD (if pjLeftPub r = 0 then 1 else 2) 0
    let j1 := { j with
      t := xs.headD 0 + 1, leftEpoch := bitsOf l 32 32, rightEpoch := bitsOf g 32 32
      leftCopy := recField l (if bitOf l 0 then 16 else 8) 8, rightCopy := recField g (if bitOf g 0 then 16 else 8) 8 }
    if pjFactored r then t.pressStats n tag j1 else t.pressGo n tag j1

/-- The gate of a command's step has resolved with an outcome (R273, R277, R604). -/
def State.pressGate (s : State) (n tag outcome : Nat) (clip : W32) : State :=
  match s.cmd? n tag with
  | none => s
  | some c => match c.pressJob? with
    | none => s
    | some j =>
      if c.phase ≠ .running ∨ j.phase ≠ .gate then s
      else if outcome = 0 then s.pressOpen n tag { j with clip }
      else s.setCmd n (c.settle outcome 0 (if outcome = 1 then pjStart j.jrec else 0))

/-- Every Press command of context `n` that waits for a gate step is released with its outcome (R271). -/
def State.releasePress (s : State) (n step outcome : Nat) (clip : W32) : State :=
  ((s.ctx n).cmds.filter (fun (c : Cmd) => c.op == 5 && c.gateStep == step)).foldl (fun (t : State) c => t.pressGate n c.tag outcome clip) s

/-! ## The command -/

/-- How the read of a job record ends when Town Hall has read its command. -/
inductive LoadRes where
  | ok (s : State)
  /-- a host error of R504 -/
  | error

/-- Town Hall has read a PRESS: its job record is read and checked, and the home of slot 0 found (R282, R288, R603). -/
def State.loadPress (s : State) (n : Nat) (c : Cmd) : LoadRes :=
  match s.thRead n c.tag (hallKey 0) [(c.body 0, 512)] true with
  | .again t => .ok t
  | .wait t => .ok t
  | .lost t => .ok (t.settleCmd n c.tag 6 0 0)
  | .fault cause t => .ok (t.settleCmd n c.tag 4 cause 0)
  | .ok xs t =>
    let r := xs.headD 0
    let cause := pjCheck r (c.body 0)
    if cause ≠ 0 then .ok (t.settleCmd n c.tag 4 cause 0)
    else if pjReserved r then .error
    else match t.translate n (slBase r 0) (pjLoads r 0 == 0) with
      | .fault f => .ok (t.cmdFault n c.tag 4 0 f (pjLoads r 0 == 0) 0)
      | .ok pa _ _ => .ok (t.updCmd n c.tag (fun d => { d with jrec := some r, home := t.pressHome pa }))

/-- PRESS, dispatched: the command waits for its gate (R274). -/
def State.pressBegin (s : State) (n : Nat) (c : Cmd) : State :=
  match c.jrec with
  | none => s
  | some r =>
    let s1 := s.startJob n c (.press { jrec := r, half := c.home.1, engines := c.home.2, total := pjUnits r, next := pjStart r })
    match (s.ctx n).gateDone.find? (fun g => g.step == c.gateStep) with
    | none => s1
    | some g => s1.pressGate n c.tag g.outcome g.clip

/-- PRESS (R284 to R308): starts a dispatched command, or continues the reads of its opening or the writes of its statistics. -/
def execPress (n tag : Nat) (s : State) : Host.Outcome State Fault Refusal :=
  match s.cmd? n tag with
  | none => .next s
  | some c =>
    if c.op ≠ 5 then .next s
    else match c.phase, c.job with
      | .dispatched, _ => .next (s.pressBegin n c)
      | .running, .press j => match j.phase with
        | .reading => .next (s.pressOpen n tag j)
        | .opening => .next (s.pressStats n tag j)
        | .closing => .next (s.pressClose n tag c j)
        | _ => .next s
      | _, _ => .next s

/-- An abort that reaches a Press command before its commit point (R303); none when it comes too late. -/
def State.pressAbort (s : State) (n : Nat) (c : Cmd) (j : PressJob) : Option State :=
  match j.phase with
  | .gate => some (s.setCmd n { c.settle 1 0 (pjStart j.jrec) with abortRec := true })
  | .running =>
    if pjFactored j.jrec ∨ j.stop ∨ j.total ≤ j.next then none
    else some ((s.setCmd n { c with abortRec := true, job := .press { j with stop := true, aborted := true } }).pressSettle n c.tag)
  | .reading =>
    if pjFactored j.jrec then none
    else some ((((s.dropXfers n c.tag).setCmd n { c with abortRec := true, job := .press { j with stop := true, aborted := true } })).pressSettle n c.tag)
  | _ => none

/-! ## Hand-out (R302, R307) -/

/-- Whether a Press command of half `h` has units left to hand out, or may have (R307). -/
def Cmd.pressHolds (c : Cmd) (h : Nat) : Bool :=
  c.op == 5 && match c.phase, c.job with
    | .dispatched, _ => c.home.1 == h
    | .running, .press j => j.half == h && !j.stop && decide (j.next < j.total)
    | _, _ => false

/-- The command of context `n` that may hand a unit to engine `p` of half `h`: the first in ring order that has units left. -/
def State.pressCand (s : State) (n h p : Nat) : Option Nat :=
  match (s.ctx n).cmds.find? (fun (c : Cmd) => c.pressHolds h) with
  | none => none
  | some c => match c.pressJob? with
    | none => none
    | some j => if c.phase = .running ∧ j.phase = .running ∧ j.engines.contains p then some c.tag else none

/-- PRESS_UNIT_HANDOUT (R302, R307): engine `p`, when free, takes the next unit; contexts take turns in each half. -/
def execPressUnitHandout (p : Nat) (s : State) : Host.Outcome State Fault Refusal :=
  let h := if p < 5 then 0 else 1
  if 10 ≤ p ∨ (s.pressEng p).busy then .next s
  else
    let last := Store.get 0 s.pressTurn h
    match ((List.range 8).map (fun i => (last + i) % 8)).find? (fun n => (s.pressCand n h p).isSome) with
    | none => .next s
    | some n =>
      let tag := (s.pressCand n h p).getD 0
      match (s.cmd? n tag).bind Cmd.pressJob? with
      | none => .next s
      | some j =>
        let s1 := s.setPressEng p { busy := true, ctx := n, tag, unit := j.next }
        let s2 := s1.updPress n tag (fun k => { k with next := k.next + 1 })
        .next { s2 with pressTurn := Store.set 0 s2.pressTurn h (n + 1) }

/-! ## Spans (R299, R304, R305) -/

/-- What a step of an engine reads or writes: (slot code, write, ranges). Slot codes: 0 to 7 elements, 8 to 15 scale entries,
16 gradient of the unit, 17 its scale entries, 18 right factor, 19 left factor, 20 left statistics, 21 right statistics. -/
structure PressIo where
  code : Nat
  write : Bool
  ranges : List (Nat × Nat)

/-- Reads and writes of a span, in slot order (R294, R304). -/
def spanIo (r i : Nat) : List PressIo :=
  let slots := pjSlots r
  slots.flatMap (fun s =>
    (if slReads r s then [⟨s, false, slData r s i⟩] else []) ++
    (if slReads r s || slWrites r s then (if slBlock r s = 0 then [] else [⟨8 + s, false, slScales r s i⟩]) else [])) ++
  slots.flatMap (fun s => if slWrites r s then
    ⟨s, true, slData r s i⟩ :: (if slBlock r s = 0 then [] else [⟨8 + s, true, slScales r s i⟩]) else [])

/-- Reads and writes of the array phase of a unit (R299). -/
def arrayIo (j : PressJob) (u : Nat) : List PressIo :=
  let r := j.jrec
  let br := pjBlockR r
  let bc := pjBlockC r
  let spans := (List.range (pjUnitSpans r)).map (pjSpan r u)
  let st := pjStats r + u * (br * br + bc * bc) * 4
  ⟨16, false, spans.flatMap (slData r 1)⟩ :: (if slBlock r 1 = 0 then [] else [⟨17, false, spans.flatMap (slScales r 1)⟩]) ++
    (if pjRightPub r = 0 then [] else [⟨18, false, [(j.rightCopy + u * bc * bc * 4, bc * bc * 4)]⟩]) ++
    (if pjLeftPub r = 0 then [] else [⟨19, false, [(j.leftCopy + u * br * br * 4, br * br * 4)]⟩]) ++
    (if pjStatStep r j.t then
      [⟨20, false, [(st, br * br * 4)]⟩, ⟨21, false, [(st + br * br * 4, bc * bc * 4)]⟩,
       ⟨20, true, [(st, br * br * 4)]⟩, ⟨21, true, [(st + br * br * 4, bc * bc * 4)]⟩]
    else [])

/-- Translates every range of a step; the first fault wins, with the direction of the access. -/
def State.ioXlate (s : State) (n : Nat) : List PressIo → Except (AccFault × Bool) (List (PressIo × List (Nat × Nat × Nat)))
  | [] => .ok []
  | x :: rest =>
    match s.xlatePieces n x.write (x.ranges.flatMap (fun p => vaPieces p.1 p.2)) with
    | .error f => .error (f, x.write)
    | .ok ps => match s.ioXlate n rest with
      | .error e => .error e
      | .ok l => .ok ((x, ps) :: l)

/-- A unit ends by a fault: nothing further is handed out (R304). -/
def State.pressUnitFault (s : State) (n tag p cause : Nat) : State :=
  let u := (s.pressEng p).unit
  ((s.setPressEng p {}).updPress n tag (fun j =>
    if j.faultUnit ≠ 0 ∨ j.timeout then { j with stop := true }
    else { j with stop := true, faultUnit := u + 1, fcause := cause })).pressSettle n tag

/-- A unit ends because a remote slot gave no reply (R410). -/
def State.pressUnitLost (s : State) (n tag p : Nat) : State :=
  ((s.setPressEng p {}).updPress n tag (fun j => { j with stop := true, timeout := j.timeout || j.faultUnit == 0 })).pressSettle n tag

/-- A span has been written: the engine goes on to the next span, or its unit is complete (R302). -/
def State.pressSpanDone (s : State) (n tag p r : Nat) : State :=
  let e := s.pressEng p
  if e.span + 1 < pjUnitSpans r then s.setPressEng p { e with span := e.span + 1, retries := 0, arrayRetries := 0 }
  else (((s.setPressEng p {}).updPress n tag (fun j => { j with done := j.done + 1 })).progressFor n tag).pressSettle n tag

/-- The decoded gradient of one slot-1 span, from the unit's views. -/
def gradSpan (r : Nat) (data scale : View) (k : Nat) : List W32 :=
  let db := 4096 * slBits r 1 / 8
  let sb := if slBlock r 1 = 0 then 0 else 4096 / slBlock r 1 * 2
  ({ slot := 1, data := data.part (k * db) db, scale := scale.part (k * sb) sb } : SlotIn).values r 4096

/-- What the array phase of a unit gives: the preconditioned gradient, the statistics to write, and whether a copy or the
statistics held a poisoned word (R299, R305). -/
structure ArrayOut where
  gp : List W32 := []
  sl : List (List W32) := []
  sr : List (List W32) := []
  bad : Bool := false

/-- The array phase (R299). `get` gives the view of an input code. -/
def arrayPhase (j : PressJob) (get : Nat → View) : ArrayOut :=
  let r := j.jrec
  let br := pjBlockR r
  let bc := pjBlockC r
  let gc := unitRows r ((List.range (pjUnitSpans r)).map (fun k => (gradSpan r (get 16) (get 17) k).map (f32mul j.clip)))
  let gcT := matT bc gc
  let h := if pjRightPub r = 0 then gc else matMul gc (matT bc (matRows bc (get 18)))
  let gp := if pjLeftPub r = 0 then h else matMul (matRows br (get 19)) (matT bc h)
  let st := pjStatStep r j.t
  { gp := gp.flatten
    sl := if st then matDecay (pjBetaS r) (matRows br (get 20)) (matMul gc gc) else []
    sr := if st then matDecay (pjBetaS r) (matRows bc (get 21)) (matMul gcT gcT) else []
    bad := [18, 19, 20, 21].any (fun c => !(get c).bad.isEmpty) }

/-- Whether two half-open ranges meet. -/
def rangesMeet (a b : Nat × Nat) : Bool := decide (a.1 < b.2 ∧ b.1 < a.2)

/-- The inputs of a span stand in the buffer of engine `p` from its first byte on, in the order they are read, with their poison (R281,
R304, assumption 73). -/
def State.fillBuffer (s : State) (p : Nat) (v : View) : State :=
  let a := 2 ^ 20 * p
  let n := min v.bytes.length (2 ^ 20)
  { s with mem := { s.mem with
      buffers := Memory.setBytes s.mem.buffers a (v.bytes.take n)
      buffersBad := (v.part 0 n).bad.foldl (fun b q => poisonWords b (a + q.1) (q.2 - q.1)) (markWords s.mem.buffersBad (a / 8) false (wordsOf a n)) } }

/-- Computes and writes a span, with the array phase before the first span of a preconditioned unit. `io` holds the
translated ranges, `get` the views read. The scale entries of a poisoned block are written clean, their words holding those of other
blocks too (the model's choice, assumption 71). -/
def State.pressCompute (s : State) (n tag p : Nat) (j : PressJob) (io : List (PressIo × List (Nat × Nat × Nat)))
    (buf : Memory) (bad : Store Bool) : State :=
  let e := s.pressEng p
  let r := j.jrec
  let i := pjSpan r e.unit e.span
  let len := pjSpanLen r i
  let views := (io.filter (fun x => !x.1.write)).map (fun x => (x.1.code, s.view buf bad x.2))
  let get := fun (c : Nat) => ((views.find? (fun v => v.1 == c)).map (·.2)).getD {}
  let first := pjPrecond r && e.span == 0
  let arr := if first then arrayPhase j get else {}
  let gp := if first then arr.gp else e.gp
  let wholeBad := e.bad || arr.bad
  let ins := (pjSlots r).map (fun c => ({ slot := c, data := get c, scale := get (8 + c) } : SlotIn))
  let out := runSpan j p i (ins.map (fun x => (x.slot, x.values r len))) (unitSpan r e.span gp)
  let elems := out.elems.reverse
  let marks := (if wholeBad then [(0, len)] else []) ++ ins.flatMap (fun x => x.bad r len)
  let outs := ((pjSlots r).filter (slWrites r)).map (fun c =>
    slotWrite r c (elems.map (fun (l : List (Nat × W32 × Nat)) => ((l.find? (fun q => q.1 == c)).map (·.2)).getD (0, 0)))
      (({ slot := c, scale := get (8 + c) } : SlotIn).entry))
  let groupsBad := fun (c : Nat) =>
    (List.range (ceilDiv len (slGroup r c))).countP (fun g => marks.any (rangesMeet (g * slGroup r c, (g + 1) * slGroup r c)))
  let piecesOf := fun (c : Nat) => ((io.find? (fun x => x.1.write && x.1.code == c)).map (·.2)).getD []
  let writes := outs.flatMap (fun o =>
      let b := slBits r o.slot
      let v : View := { bytes := o.data, bad := marks.map (fun m => (m.1 * b / 8, min o.data.length (ceilDiv (m.2 * b) 8))) }
      (piecesOf o.slot, v) :: (if o.scale.isEmpty then [] else [(piecesOf (8 + o.slot), { bytes := o.scale })])) ++
    (if first && pjStatStep r j.t then
      [(piecesOf 20, { bytes := matBytes arr.sl, bad := (get 20).bad }), (piecesOf 21, { bytes := matBytes arr.sr, bad := (get 21).bad })]
    else [])
  let badIo := io.find? (fun x => !x.1.write && !(s.view buf bad x.2).bad.isEmpty &&
    (x.1.code < 16 || (18 ≤ x.1.code && first)))
  let reads := (io.filter (fun x => !x.1.write)).flatMap (·.2)
  let s0 := (s.noteReads n false reads).fillBuffer p (s.view buf bad reads)
  let s1 := match badIo with
    | some x => if j.poisonMet then s0 else
        s0.cmdFaultRec n tag 2 p { cause := 5, va := rangesVa x.1.ranges (((get x.1.code).bad.headD (0, 0)).1) } false
    | none => s0
  match s1.engPut n tag (1000 + p) buf bad writes with
  | .lost t => t.pressUnitLost n tag p
  | .ok waits t =>
    let t1 := (t.setPressEng p { e with gp := if first then gp else e.gp, bad := e.bad || arr.bad }).updPress n tag (fun k => { k with
      racc := out.racc, cacc := out.cacc, gathered := k.gathered || (first && pjStatStep r j.t)
      sat := satAdd 0xFFFFFFFF k.sat (outs.map (·.sat)).sum
      nonfinite := satAdd 0xFFFFFFFF k.nonfinite (outs.map (·.nf)).sum
      poisoned := satAdd 0xFFFFFFFF k.poisoned ((outs.map (fun o => groupsBad o.slot)).sum)
      poisonMet := k.poisonMet || badIo.isSome || !marks.isEmpty })
    if waits then t1 else t1.pressSpanDone n tag p r

/-- PRESS_SPAN_COMPLETE (R299, R304, R305): engine `p` reads, computes and writes the span in progress. -/
def execPressSpanComplete (p : Nat) (s : State) : Host.Outcome State Fault Refusal :=
  let e := s.pressEng p
  if 10 ≤ p ∨ !e.busy then .next s
  else match (s.cmd? e.ctx e.tag).bind Cmd.pressJob? with
    | none => .next (s.setPressEng p {})
    | some j =>
      let r := j.jrec
      let n := e.ctx
      let ios := (if pjPrecond r && e.span == 0 then arrayIo j e.unit else []) ++ spanIo r (pjSpan r e.unit e.span)
      match s.ioXlate n ios with
      | .error (f, w) => .next ((s.cmdFaultRec n e.tag 2 p f w).pressUnitFault n e.tag p f.cause)
      | .ok io =>
        let reads := (io.filter (fun x => !x.1.write)).flatMap (·.2)
        let wr := (io.filter (fun x => x.1.write)).flatMap (·.2)
        match s.engHostCheck n reads with
        | some (f, bus) => .next (((s.hostReadError n bus).cmdFaultRec n e.tag 2 p f false).pressUnitFault n e.tag p f.cause)
        | none =>
          match s.engNow n e.tag (1000 + p) (s.remoteRanges reads ++ s.remoteEdges wr) with
          | .wait t => .next t
          | .refused w pa t =>
            let x := refusedAt reads wr w pa
            .next ((t.cmdFaultRec n e.tag 2 p x.1 x.2).pressUnitFault n e.tag p 2)
          | .lost t => .next (t.pressUnitLost n e.tag p)
          | .done t => .next (t.pressSpanDone n e.tag p r)
          | .go buf bad t => .next (t.pressCompute n e.tag p j io buf bad)

/-- PRESS_PARITY_RESTART (R304): a parity error in an engine restarts the span, or the array phase before a unit's first span where it
was met there, from its buffered inputs, each up to twice; a third error ends the unit. -/
def execPressParityRestart (p : PressPart) (s : State) : Host.Outcome State Fault Refusal :=
  let e := s.pressEng p.engine
  let precond := match (s.cmd? e.ctx e.tag).bind Cmd.pressJob? with | some j => pjPrecond j.jrec | none => false
  if 10 ≤ p.engine ∨ !e.busy ∨ (p.array && !(precond && e.span == 0)) then .next s
  else if (if p.array then e.arrayRetries else e.retries) < 2 then
    .next (s.setPressEng p.engine (if p.array then { e with arrayRetries := e.arrayRetries + 1 } else { e with retries := e.retries + 1 }))
  else .next ((s.dropXfer e.ctx e.tag (1000 + p.engine)).pressUnitFault e.ctx e.tag p.engine 5)

/-! ## Completion (R301, R306) -/

/-- The result slot (R306). -/
def PressJob.resultBytes (j : PressJob) : List Byte :=
  natLE 8 j.t ++ natLE 4 j.sat ++ natLE 4 j.nonfinite ++ natLE 4 j.poisoned ++ natLE 4 j.leftEpoch ++ natLE 4 j.rightEpoch ++
    natLE 4 (b2n j.gathered)

/-- Whether a Press command that ended writes its counter word: it would complete OK, or FAULT under the poison rule (R301). -/
def PressJob.counts (c : Cmd) (j : PressJob) : Bool :=
  let d := c.pressDone j
  j.phase != .gate && j.phase != .reading && (d.status == 0 || (d.status == 4 && j.faultUnit == 0))

/-- The counter word and the result slot a Press command writes before its completion record, in order (R301, R306). -/
def PressJob.finals (c : Cmd) (j : PressJob) : List (Nat × View) :=
  (if j.counts c then [(pjCounter j.jrec, { bytes := natLE 8 (j.t % 2 ^ 64) })] else []) ++
    (if pjResult j.jrec = 0 then [] else [(pjResult j.jrec, { bytes := j.resultBytes })])

end Sys2Proof.Machine
end

