-- ==== Sys2Proof/Machine/Advisory.lean ====
section
/-! DEFINITION. The totals of conversion statistics, the advisory tests, and how many slots a command writes at its completion (R252, R253,
R301, R306, R348, R371, R423). -/

namespace Sys2Proof.Machine

open Sys2Proof

/-- The totals of the conversion statistics of a command's cores, in core-index order (R253). -/
def ComputeJob.totals (j : ComputeJob) : ConvStats :=
  ((List.range 576).filter (bitOf j.named)).foldl (fun (a : ConvStats) c =>
    let k := Store.get {} j.stats c
    { a with
      elems := a.elems + k.elems, sqerr := f64add a.sqerr k.sqerr, sqval := f64add a.sqval k.sqval, sat := a.sat + k.sat
      nonfinite := a.nonfinite + k.nonfinite, selvage := a.selvage + k.selvage
      maxabs := if a.maxabs.toNat < k.maxabs.toNat then k.maxabs else a.maxabs }) {}

/-- An FP64 value times 2^-n, exactly. -/
def fvDown (n : Nat) : Fv → Fv
  | .fin s m e => .fin s m (e - n)
  | v => v

/-- The tests of R252 on the totals: bit 0 MSE, bit 1 saturation, bit 2 non-finite. -/
def State.advisory (s : State) (n : Nat) (t : ConvStats) : Nat :=
  let mse := s.fld (0x540 + 4 * n) 0 6
  let sat := s.fld (0x540 + 4 * n) 8 6
  b2n (decide (mse ≠ 0) && Fv.lt (fvDown mse (Fmt.f64.dec t.sqval)) (Fmt.f64.dec t.sqerr)) +
    2 * b2n (decide (sat ≠ 0 ∧ t.elems < t.sat * 2 ^ sat)) + 4 * b2n (s.flag (0x540 + 4 * n) 16 && t.nonfinite != 0)

/-- How many slots and counter words a settled command writes at its completion. -/
def Cmd.slots (c : Cmd) : Nat :=
  match c.job with
  | .compute j => b2n (j.slot != 0)
  | .fill j => b2n (recField j.lrec 8 8 != 0)
  | .press j => (j.finals c).length
  | .reduce _ | .coll _ => b2n (c.body 3 != 0)
  | .mcast _ => b2n (([0, 1, 3].contains c.status || c.wrote != 0) && c.body 3 != 0)
  | .ingest j => b2n (recField j.jrec 0x58 8 != 0)
  | _ => 0

end Sys2Proof.Machine
end

