-- ==== Sys2Proof/Machine/WireBytes.lean ====
section
/-! DEFINITION. The bytes of a frame on the wire (R382, R389 to R392, R395 to R397). -/

namespace Sys2Proof.Machine

open Sys2Proof

/-- One bit of the Ethernet CRC-32, in its reflected form. -/
def crcBit (c : W32) : W32 := if c.getLsbD 0 then (c >>> 1) ^^^ 0xEDB88320 else c >>> 1

/-- The CRC-32 of IEEE 802.3, which R389 names as the FCS of an Ethernet frame and does not write out (PRESUMED, assumption 93). -/
def crc32 (bs : List Byte) : W32 :=
  ~~~(bs.foldl (fun (c : W32) b => (List.range 8).foldl (fun x _ => crcBit x) (c ^^^ b.setWidth 32)) 0xFFFFFFFF)

/-- LTYPE of a link frame (R391). -/
def LinkFrame.ltype : LinkFrame → Nat
  | .data .. => 0 | .control .. => 1 | .hello .. => 2 | .replayReq .. => 3 | .fenced .. => 4

/-- The 16 bytes of a link header; `flags` and `lseq` are of a DATA frame (R391). -/
def linkHeader (ltype flags lseq lack : Nat) (credit : List Nat) : List Byte :=
  natBE 1 (16 + ltype) ++ natBE 1 flags ++ natBE 2 lseq ++ natBE 2 lack ++ natBE 2 0 ++
    (List.range 4).flatMap (fun i => natBE 2 (credit.getD i 0))

/-- The 32 bytes of an extension header (R396). -/
def ExtHdr.bytes (e : ExtHdr) : List Byte :=
  natBE 2 e.group ++ natBE 2 e.seq ++ natBE 1 e.kind ++ natBE 1 (e.wire % 16 + 16 * e.phase) ++ natBE 2 e.rank ++ natBE 4 e.shard ++
    natBE 4 e.chunk ++ natBE 8 e.cfgSeal ++ natBE 8 0

/-- Bytes of the poison map of a frame that carries one (R389). -/
def Frame.mapLen (f : Frame) : Nat := ceilDiv (ceilDiv f.len 64) 8 * 8

/-- The 32 bytes of a transport header (R392). -/
def Frame.header (f : Frame) : List Byte :=
  natBE 2 (f.src % 2 ^ 14) ++ natBE 2 (f.dst % 2 ^ 14) ++ natBE 1 f.opc ++ natBE 1 (b2n f.ext.isSome + 2 * b2n (f.poison != 0)) ++
    natBE 2 f.len ++ natBE 4 f.xid ++ natBE 2 f.age ++ natBE 1 f.status ++ natBE 1 0 ++ natBE 8 f.addr ++ natBE 8 f.operand

/-- A DATA frame from its transport header through its poison map (R389, R395). -/
def Frame.bytes (f : Frame) : List Byte :=
  f.header ++ (match f.ext with | some e => e.bytes | none => []) ++ f.payload ++
    (if f.poison = 0 then [] else natLE f.mapLen f.poison)

/-- The payload of a HELLO (R397). -/
def helloBytes (node port : Nat) (leaf laneMode fec ack : Bool) (grant : List Nat) : List Byte :=
  natBE 2 (node % 2 ^ 14) ++ natBE 1 port ++ natBE 1 (b2n leaf + 2 * b2n laneMode + 4 * b2n fec + 8 * b2n ack) ++
    (List.range 4).flatMap (fun i => natBE 4 (grant.getD i 0))

/-- A link frame after its Ethernet header: the link header, which reports LACK and CREDIT on every frame, a HELLO coming before any
DATA frame of its link (R391, R399), and what follows it. -/
def LinkFrame.bytes : LinkFrame → List Byte
  | .data lseq lack credit f => linkHeader 0 (f.vc % 4 + 4 * (f.cls % 2)) lseq lack credit ++ f.bytes
  | .control lack credit => linkHeader 1 0 0 lack credit
  | .hello node port leaf lane fec ack grant => linkHeader 2 0 0 0xFFFF [] ++ helloBytes node port leaf lane fec ack grant
  | .replayReq lack credit => linkHeader 3 0 0 lack credit
  | .fenced lack credit => linkHeader 4 0 0 lack credit

/-- A frame before its FCS: the Ethernet header, the link frame, and zeros up to 60 bytes (R389). -/
def WireFrame.body (w : WireFrame) : List Byte :=
  let b := natBE 6 w.dst ++ natBE 6 w.src ++ natBE 2 0x88B5 ++ w.frame.bytes
  b ++ List.replicate (60 - b.length) 0

/-- A whole frame with its FCS (R389). -/
def WireFrame.bytes (w : WireFrame) : List Byte := w.body ++ natLE 4 (crc32 w.body).toNat

end Sys2Proof.Machine
end

