-- ==== Sys2Proof/Machine/FatalOps.lean ====
section
/-! DEFINITION. Sending on a link, completion records, and the fatal sequence (R399, R483, R493, R525 to R528). -/

namespace Sys2Proof.Machine

open Sys2Proof

/-! ## Sending on a link -/

/-- The bytes of a frame as port `p` sends it: HELLO to the broadcast address, every other to the address learned from the peer's HELLO
(R382, R389). -/
def State.onWire (s : State) (p : Nat) (f : LinkFrame) : List Byte :=
  WireFrame.bytes { dst := if f.isHello then macBroadcast else (s.port p).peerMac, src := macOf s.node p, frame := f }

/-- Puts a frame on the link of port `p` (R400). -/
def State.putLink (s : State) (p : Nat) (f : LinkFrame) : State :=
  let x := s.port p
  s.setPort p { x with out := x.out ++ [s.onWire p f], sentAt := s.now }

/-- Adds `n` to entry `vc` of a list of four counts. -/
def addAt (l : List Nat) (vc n : Nat) : List Nat := l.set vc (l.getD vc 0 + n)

/-- Sends a DATA frame on port `p` with the next LSEQ; it reports LACK and credits, and is kept until covered (R398, R399). -/
def State.sendData (s : State) (p : Nat) (f : Frame) : State :=
  let x := s.port p
  s.setPort p { x with
    out := x.out ++ [s.onWire p (.data x.nextSeq x.lastSeq (x.freed.map (· % 65536)) f)]
    sentBlocks := addAt x.sentBlocks f.vc f.blocks
    uncovered := x.uncovered ++ [(x.nextSeq, f)]
    nextSeq := (x.nextSeq + 1) % 65536
    progressAt := if x.uncovered.isEmpty then s.now else x.progressAt
    sentAt := s.now, lackDue := 0 }

/-- The FAIL frame that names a failed node, on port `p` (R393, R434). -/
def State.failFrame (s : State) (p node : Nat) : Frame := { vc := 0, src := node, dst := s.peerNode p, opc := 0x30 }

/-! ## Completion records (R483, R493) -/

/-- Whether the completion ring of a context has room. -/
def State.cplRoom (s : State) (n : Nat) : Bool := decide (wrapSub (s.ctx n).cplTail (s.ctx n).cplHead < 2 ^ s.cplLog n)

/-- The 32 bytes of a completion record (R493). -/
def HeldRec.toBytes (r : HeldRec) (phase time : Nat) : List Byte :=
  natLE 4 r.tag ++
    natLE 4 (r.status + (if r.status = 4 then r.cause else 0) * 2 ^ 8 + phase * 2 ^ 16 + b2n r.adv * 2 ^ 17 + r.kind * 2 ^ 18 + b2n r.stale * 2 ^ 20) ++
    natLE 8 r.position ++ natLE 8 r.result.toNat ++ natLE 4 r.evt ++ natLE 4 time

/-- Writes a completion record: PHASE, CPL_TAIL, and CPL_VECTOR for a command's own record with IRQ (R483). -/
def State.putRecord (s : State) (n : Nat) (r : HeldRec) : State :=
  let x := s.ctx n
  let phase := 1 - x.cplTail / 2 ^ s.cplLog n % 2
  let s1 := s.hostWrite (s.cplBase n + 32 * (x.cplTail % 2 ^ s.cplLog n)) (r.toBytes phase s.time32)
  let t := (x.cplTail + 1) % 2 ^ 32
  ((s1.setCtx n { x with cplTail := t }).hostWrite (s.doorbell n + 0x804) (natLE 4 t)).msixIf (r.irq && r.kind == 0)
    (s.fld (ctxCtrl n) 8 11)

/-- The completion record of a settled command. -/
def Cmd.record (c : Cmd) : HeldRec :=
  { tag := c.tag, status := c.status, cause := c.cause, adv := c.adv
    position := if c.status = 1 then c.position else 0, result := c.result, evt := c.evt, irq := c.irq }

/-! ## The fatal sequence -/

/-- Sources with RECORDS = 1 (R524). -/
def fatalRecords (source : Nat) : Bool := [1, 2, 3, 4, 0xB].contains source
/-- Sources with DUMP_OK = 1 (R524). -/
def fatalDump (source : Nat) : Bool := [1, 2, 6, 0xB].contains source

/-- A core with its clocks gated: nothing of its work goes on; its wait record stays for the dump (R525, R532). -/
def Core.gateOff (k : Core) : Core :=
  { k with run := .idle, halted := false, stop := false, stopping := false, killed := false, queue := [], streams := [],
           fills := [], remote := [], lines := [], works := [], replay := [], tagItem := none }

/-- Puts a record into a list in tag order, counted from `base`. -/
def insertRec (base : Nat) (r : HeldRec) : List HeldRec → List HeldRec
  | [] => [r]
  | q :: l => if wrapSub r.tag base < wrapSub q.tag base then r :: q :: l else q :: insertRec base r l

/-- The record of R526 for a command not yet complete: the one it was completing with once all its writes were made, else
DEVICE_FAILED. -/
def State.fatalRec (s : State) (n : Nat) (c : Cmd) : HeldRec :=
  if c.phase = .settled ∧ c.slots ≤ c.wrote then
    { c.record with adv := match c.job with | .compute j => s.advisory n j.totals != 0 | _ => c.adv }
  else { tag := c.tag, status := 8, evt := c.evt, irq := c.irq }

/-- The records of R526 for a context, in tag order. -/
def State.fatalRecs (s : State) (n : Nat) : List HeldRec :=
  let x := s.ctx n
  let own := x.held.filter (fun r => r.kind == 0)
  (own ++ x.cmds.map (fun (c : Cmd) => s.fatalRec n c)).foldl (fun l r => insertRec (x.cmdHead + 2 ^ 31) r l) []

/-- Writes the records of a context while its ring has room; the rest are dropped (R526). -/
def State.putAll (s : State) (n : Nat) : List HeldRec → State
  | [] => s
  | r :: rs => if s.cplRoom n then (s.putRecord n r).putAll n rs else s

/-- The completion records of every enabled context (R526). -/
def State.fatalRecordsAll (s : State) : State :=
  (List.range 8).foldl (fun (t : State) n => if t.ctxEnabled n then t.putAll n (t.fatalRecs n) else t) s

/-- Step 2: cores, engines and Town Hall stop; pending aborts are dropped. -/
def State.stopAll (s : State) : State :=
  { s with
    cores := s.cores.map (fun (p : Nat × Core) => (p.1, p.2.gateOff)), dbg := .none, press := [], pressTurn := []
    roomWait := [], roomTurn := []
    ctxs := s.ctxs.map (fun (p : Nat × Ctx) => (p.1, { p.2 with cmds := [], relays := [], held := [], marked := [] })), mesh := {}
    fab := { s.fab with xfers := [], resends := [], contribs := [], orphans := [], inbox := [], early := [] } }

/-- Step 3: FAIL on every port that is up, then FENCED; frames held for forwarding are discarded (R433). -/
def State.sendFails (s : State) : State :=
  let t := s.upPorts.foldl (fun (t : State) p =>
    (t.setPort p { t.port p with queue := [] }).sendData p (t.failFrame p t.node)) s
  { t with fab := { t.fab with fenced := true } }

/-- The fatal sequence of R525 on a source, a unit of R533 and the detail of FATAL_INFO. Before READY nothing is armed; a
further source sets MULTIPLE (R528). -/
def State.fatal (s : State) (source cls unit info : Nat) : State :=
  if s.boot = 7 then s.setFlag 0x804 22 true
  else if s.boot ≠ 5 then s
  else
    let recs := fatalRecords source
    let s1 := ((s.setReg 0x800 (source + cls * 2 ^ 8)).setReg 0x804 (unit + b2n recs * 2 ^ 16 + b2n (fatalDump source) * 2 ^ 18))
    let s2 := (((s1.setReg64 0x808 s.now).setReg64 0x810 info).setFld 0x84 0 4 7).setFld 0x84 16 1 0
    let s3 := { s2 with plat := { s2.plat with pins := { s2.plat.pins with fail := true } } }
    let done := s3.stopAll
    let s4 := done.sendFails.setFlag 0x804 21 true
    let s5 := ({ s4 with err := { s4.err with aer := s4.err.aer ++ [2] } }).msix 1
    if recs then
      let s6 := s5.errRecord 0x94 cls unit 1 info 0xFF source
      let s7 := { s6 with ctxs := s6.ctxs.map (fun (p : Nat × Ctx) =>
        (p.1, { p.2 with cmds := (s.ctx p.1).cmds, held := (s.ctx p.1).held })) }
      let s8 := s7.fatalRecordsAll
      ({ s8 with ctxs := s8.ctxs.map (fun (p : Nat × Ctx) => (p.1, { p.2 with cmds := [], held := [] })) }).setFlag 0x804 17 true
    else s5

end Sys2Proof.Machine
end

