-- ==== Sys2Proof/Machine/BootOps.lean ====
section
/-! DEFINITION. The device reset and the steps of the boot sequence (R506 to R520, R550, R591 to R593). -/

namespace Sys2Proof.Machine

open Sys2Proof

/-! ## Parts of the platform -/

/-- Replaces the platform. -/
def State.setPlat (s : State) (p : Plat) : State := { s with plat := p }
/-- Replaces the boot state. -/
def State.setBoot (s : State) (b : Boot) : State := { s with plat := { s.plat with boot := b } }
/-- Replaces the pins. -/
def State.setPins (s : State) (p : Pins) : State := { s with plat := { s.plat with pins := p } }
/-- Replaces the TAP. -/
def State.setTap (s : State) (t : Tap) : State := { s with plat := { s.plat with tap := t } }
/-- Replaces the fuses. -/
def State.setFuses (s : State) (f : Fuses) : State := { s with plat := { s.plat with fuses := f } }
/-- Replaces the management endpoint. -/
def State.setMgmt (s : State) (m : Mgmt) : State := { s with plat := { s.plat with mgmt := m } }
/-- Replaces the power and thermal controllers. -/
def State.setPower (s : State) (p : Power) : State := { s with plat := { s.plat with power := p } }
/-- Replaces the counters. -/
def State.setPmu (s : State) (p : Pmu) : State := { s with plat := { s.plat with pmu := p } }

/-- BOOT_STATUS.STATE becomes `v`. -/
def State.setBootState (s : State) (v : Nat) : State := s.setFld 0x84 0 4 v
/-- BOOT_PROGRESS.CODE and SUB (R510). -/
def State.setCode (s : State) (code sub : Nat) : State := (s.setFld 0x88 0 8 code).setFld 0x88 8 8 (min sub 255)

/-! ## Measurements (R550) -/

/-- KEY_REVOKED as bits. -/
def Fuses.revokedBits (f : Fuses) : Nat :=
  ((List.range 4).map (fun i => b2n (Store.get false f.keyRevoked i) * 2 ^ i)).sum

/-- The attestation engine copies the hardware configuration, measurement index 3. -/
def State.measureHardware (s : State) : State :=
  let f := s.plat.fuses
  let m := s.plat.mgmt
  s.setMgmt { m with measured := { m.measured with
    stepping := s.fld 0x8 0 8, cores := s.fld 0x4 0 10, minVersion := f.minVersion, revoked := f.revokedBits } }

/-- The attestation engine copies the seal in force, measurement index 4. -/
def State.measureSeal (s : State) : State :=
  let m := s.plat.mgmt
  s.setMgmt { m with measured := { m.measured with
    cfgSeal := (List.range 8).map (fun i => BitVec.ofNat 32 (s.reg (0xC0 + 4 * i))) } }

/-! ## The device reset -/

/-- A fused register: GRADE and BLOCK_MAP (R474, R513). -/
def fusedReg (off : Nat) : Bool := off == 4 || decide (0x10 ≤ off ∧ off < 0x58)

/-- Every unit, register and table at its reset value (R507). Fuses, pins, the TAP, host memory, what was already sent and the
commands that wait stay. -/
def State.toReset (s : State) : State :=
  let r := State.reset
  let regs := (Store.keep fusedReg s.regs).foldl (fun (m : Store W32) p => Store.set 0 m p.1 p.2) (Store.keep (fun o => !fusedReg o) r.regs)
  let t := { r with
    regs, pending := s.pending, host := s.host, hostEp := s.hostEp, hostBad := s.hostBad, free := s.free, msixSent := s.msixSent
    plat := { fuses := s.plat.fuses, tap := s.plat.tap, answers := s.plat.answers
              pins := { s.plat.pins with fail := s.plat.pins.fail && s.plat.pins.thermtrip, lpResetN := false }
              mgmt := { out := s.plat.mgmt.out } } }
  t.setFld 0x84 24 8 s.plat.fuses.minVersion

/-- Whether step 1 may start: power, PWROK and PERST_N high, rails in range, no boundary-scan hold (R508, R592, R598). -/
def State.mayStart (s : State) : Bool :=
  let p := s.plat.pins
  p.powered && p.pwrok && p.perstN && p.railsOk && s.plat.tap.holds == 0

/-- Step 1 of R508: the system island leaves reset and the fuses are sensed; Q is computed (R538) and the engine copies
measurement indices 1 and 3. -/
def State.startBoot (s : State) : State :=
  if s.mayStart && !s.plat.boot.running && s.boot == 1 then
    let s1 := (s.setBoot { s.plat.boot with running := true }).setCode 1 0
    (s1.setMgmt { s1.plat.mgmt with pubKey := sm2Public s1.plat.fuses.groupKey }).measureHardware
  else s

/-- The device reset starts (R506, R507); step 1 follows where the pins allow it. -/
def State.deviceReset (s : State) : State := s.toReset.startBoot

/-- Boot fails: FAIL and STATE FAILED, a held GO is dropped, MSI-X vector 0 (R512, R520). -/
def State.bootFail (s : State) (code : Nat) : State :=
  (((s.setBootState 6).setFld 0x84 8 8 code).setBoot { s.plat.boot with goHeld := false }).msix 0

/-- AWAIT_IMAGE once the SRAMs are zero and the link is up (steps 5 and 6 of R508); LP_RESET_N rises as training begins
(R594). -/
def State.tryAwait (s : State) : State :=
  let b := s.plat.boot
  if s.boot = 1 ∧ b.running ∧ b.sram ∧ b.link then
    ((s.setBootState 2).setCode 5 0).setPins { s.plat.pins with lpResetN := true }
  else s

/-- TRAINED of BOOT_PROGRESS. -/
def State.trained (s : State) : Nat := s.fld 0x88 16 10

/-- Step 8 starts for a GO that has been taken, once step 7 has ended (R508, R512). -/
def State.tryVerify (s : State) : State :=
  if s.plat.boot.goHeld ∧ s.trained = 0x3FF then
    ((s.setBootState 3).setFld 0x84 8 8 0).setBoot { s.plat.boot with goHeld := false }
  else s

/-! ## Verification (R516) -/

/-- First address of the firmware area (R518). -/
def fwBase : Nat := 0x5FC0000000

/-- Address of the image window in West Square staging. -/
def State.window (s : State) : Nat := 0x18000000000 + s.plat.boot.goOffset * 65536

/-- R515 for the window and length that GO took. -/
def Boot.windowOk (b : Boot) : Bool :=
  decide (768 ≤ b.goLength ∧ b.goLength ≤ 268435456 ∧ b.goOffset * 65536 + b.goLength ≤ 0x20000000)

/-- What the checks of R516 find in an image: the code of the first that fails, the CODE and SUB reached, or none. -/
def Fuses.imageFault (f : Fuses) (stepping : Nat) (img : List Byte) : Option (Nat × Nat × Nat) :=
  let at4 := fun (o : Nat) => leNat ((img.drop o).take 4)
  let mib := img.length / 2 ^ 20
  let key := at4 8 / 2 ^ 8 % 4
  let pub := (img.drop 0x40).take 64
  let digest := Store.get 0 f.keyDigest key
  let payload := (img.drop 512).take (at4 0x10)
  if at4 0 ≠ 0x57465253 ∨ at4 4 % 65536 ≠ 1 then some (0x06, 6, mib)
  else if at4 0x10 + 512 ≠ img.length then some (0x07, 6, mib)
  else if at4 0x18 % 256 ≠ stepping then some (0x08, 6, mib)
  else if digest = 0 ∨ sm3 pub ≠ digest then some (0x09, 6, mib)
  else if Store.get false f.keyRevoked key then some (0x0A, 6, mib)
  else if at4 8 % 256 < f.minVersion then some (0x0B, 6, mib)
  else if !sm2Verify (beNat (pub.take 32)) (beNat (pub.drop 32)) (img.take 0x100) (beNat ((img.drop 0x100).take 32))
      (beNat ((img.drop 0x120).take 32)) then some (0x0C, 8, 0)
  else if sm3 payload ≠ beNat ((img.drop 0x20).take 32) then some (0x0D, 7, 100)
  else none

/-- The image as the ROM copies it. -/
def State.image (s : State) : List Byte := Memory.bytes s.dev s.window s.plat.boot.goLength

/-- The ROM copies the image to the firmware area, poison with it (R66, R516). -/
def State.copyImage (s : State) : State :=
  let v := s.view [] [] [(0, s.window, s.plat.boot.goLength)]
  s.physWrite fwBase v

/-- Whether a poisoned word lies in the window (R516). -/
def State.windowPoisoned (s : State) : Bool := (poisonIn s.poison s.window s.plat.boot.goLength).isSome

/-! ## READY -/

/-- BLOCK_AVAIL of Block `b` (R7, R474). -/
def State.blockAvail (s : State) (b : Nat) : Nat :=
  let cores := List.range 16
  let ok := fun (i : Nat) => !s.coreDisabled (16 * b + i)
  (cores.map (fun i => b2n (ok i) * 2 ^ i)).sum +
    ((List.range 7).map (fun code => b2n (cores.any (fun i => !s.stitchBad code (16 * b + i))) * 2 ^ (16 + code))).sum +
    b2n (cores.all ok) * 2 ^ 23

/-- Firmware writes BLOCK_AVAIL from BLOCK_MAP (R474). -/
def State.writeAvail (s : State) : State := (List.range 36).foldl (fun (t : State) b => t.setReg (0x300 + 4 * b) (t.blockAvail b)) s

end Sys2Proof.Machine
end

