-- ==== Sys2Proof/Machine/Boot.lean ====
section
/-! DEFINITION. The commands of reset, boot and the pins (R506 to R520, R590 to R593). -/

namespace Sys2Proof.Machine

open Sys2Proof

/-- DEVICE_RESET (R507): the device reset; one that BOOT_CTRL.RESET asked for starts 1 ms after the write (R512). -/
def execDeviceReset (s : State) : Host.Outcome State Fault Refusal :=
  if s.now + 1 < s.plat.boot.resetAt then .next s else .next s.deviceReset

/-- POWER_ON (R506, R589): power is applied with every rail in range; the reset pins are still low. -/
def execPowerOn (s : State) : Host.Outcome State Fault Refusal :=
  .next (s.setPins { s.plat.pins with powered := true, railsOk := true, pwrok := false, perstN := false }).deviceReset

/-- PERST_N_ASSERT (R592): PERST_N falls and stays low for `ns`. Below 100 ns it is ignored; from 100 ns to 1 µs either
outcome is possible; from 1 µs a device reset starts. -/
def execPerstNAssert (ns : Nat) (s : State) : Host.Outcome State Fault Refusal :=
  let low := s.setPins { s.plat.pins with perstN := false }
  if ns < 100 then .next s
  else if 1000 ≤ ns then .next low.deviceReset
  else
    let (v, s1) := s.fresh
    if v % 2 = 0 then .next s1 else .next (s1.setPins { s1.plat.pins with perstN := false }).deviceReset

/-- PERST_N_DEASSERT (R508, R591, R598): PERST_N rises and step 1 starts; a fuse sense error ends the boot (R520). -/
def execPerstNDeassert (fuseError : Bool) (s : State) : Host.Outcome State Fault Refusal :=
  let s1 := (s.setPins { s.plat.pins with perstN := true }).startBoot
  .next (if fuseError && s1.plat.boot.running && s1.boot == 1 then s1.bootFail 1 else s1)

/-- PWROK_RISE (R592, R593): the straps are sampled and the hold on the device ends. TEST_EN high is unpredictable (R585). -/
def execPwrokRise (mgmtAddr : Nat) (testEn : Bool) (s : State) : Host.Outcome State Fault Refusal :=
  if testEn then .fault .boardError
  else .next (s.setPins { s.plat.pins with pwrok := true, mgmtAddr := mgmtAddr % 4, testEn }).startBoot

/-- PWROK_FALL (R592, R596): a device reset with no FAIL frame; THERMTRIP_N is released and the TAP reset. -/
def execPwrokFall (s : State) : Host.Outcome State Fault Refusal :=
  .next ((s.setPins { s.plat.pins with pwrok := false, thermtrip := false }).setTap {}).deviceReset

/-- PCIE_HOT_RESET (R506). -/
def execPcieHotReset (s : State) : Host.Outcome State Fault Refusal := .next s.deviceReset

/-- PCIE_LINK_DOWN (R506). -/
def execPcieLinkDown (s : State) : Host.Outcome State Fault Refusal := .next s.deviceReset

/-- RAIL_OUT_OF_RANGE (R592): while PWROK is high; before READY the device holds at step 1, after it fatal source POWER. -/
def execRailOutOfRange (s : State) : Host.Outcome State Fault Refusal :=
  if !s.plat.pins.pwrok then .next s
  else
    let s1 := s.setPins { s.plat.pins with railsOk := false }
    if s.boot = 5 ∨ s.boot = 7 then .next (s1.fatal 8 0x0A 0 0)
    else .next (s1.toReset.setCode 1 0)

/-- RAIL_IN_RANGE (R592): every rail is back in range; before READY step 1 restarts. -/
def execRailInRange (s : State) : Host.Outcome State Fault Refusal :=
  .next (s.setPins { s.plat.pins with railsOk := true }).startBoot

/-- PLL_LOSS_OF_LOCK (R524, R590): fatal source CLOCK. -/
def execPllLossOfLock (s : State) : Host.Outcome State Fault Refusal := .next (s.fatal 7 0x0A 0 0)

/-- SRAM_INIT_COMPLETE (R508, R520): step 4 ends with Square, core stores, Press buffers and sync table at zero, or fails. -/
def execSramInitComplete (ok : Bool) (s : State) : Host.Outcome State Fault Refusal :=
  let b := s.plat.boot
  if s.boot ≠ 1 ∨ !b.running ∨ s.plat.pins.thermtrip then .next s
  else if !ok then .next (s.bootFail 2)
  else
    let s1 := { s with
      dev := Store.keep (fun a => isHbm a || isTier2 a) s.dev
      poison := Store.keep (fun w => isHbm (8 * w) || isTier2 (8 * w)) s.poison, sync := {} }
    .next ((s1.setBoot { b with sram := true }).setCode 3 0).tryAwait

/-- PCIE_LINK_UP (R508): link training completes. -/
def execPcieLinkUp (s : State) : Host.Outcome State Fault Refusal :=
  let b := s.plat.boot
  if s.boot ≠ 1 ∨ !b.running ∨ s.plat.pins.thermtrip then .next s
  else
    let s1 := s.setBoot { b with link := true }
    .next (if b.sram then s1 else s1.setCode 2 0).tryAwait

/-- MEMORY_TRAINING_COMPLETE (R508, R510, R520): interfaces of `trained` have trained and those of `failed` have not. -/
def execMemoryTrainingComplete (trained failed : Nat) (s : State) : Host.Outcome State Fault Refusal :=
  if s.boot ≠ 2 then .next s
  else
    let s1 := s.setFld 0x88 16 10 (s.trained ||| trained % 1024)
    if failed % 256 ≠ 0 then .next (s1.bootFail 3)
    else if failed % 1024 ≠ 0 then .next (s1.bootFail 4)
    else .next s1.tryVerify

/-- GO (R511, R512): takes the window and length; verification starts, or is held until step 7 ends. -/
def execGo (s : State) : Host.Outcome State Fault Refusal :=
  let fail := s.fld 0x84 8 8
  if s.boot = 2 ∨ (s.boot = 6 ∧ 0x05 ≤ fail ∧ fail ≤ 0x0E) then
    .next (s.setBoot { s.plat.boot with goHeld := true, goOffset := s.fld 0x90 16 13, goLength := s.fld 0x98 0 29 }).tryVerify
  else .next s

/-- VERIFY (R516): the ROM copies and checks the image and starts Town Hall, or fails. -/
def execVerify (s : State) : Host.Outcome State Fault Refusal :=
  if s.boot ≠ 3 then .next s
  else
    let b := s.plat.boot
    if !b.windowOk then .next ((s.setCode 6 0).bootFail 5)
    else
      let img := s.image
      let s1 := s.copyImage
      if s.windowPoisoned then .next ((s1.setCode 6 (b.goLength / 2 ^ 20)).bootFail 0x0E)
      else match s.plat.fuses.imageFault (s.fld 0x8 0 8) img with
        | some (code, step, sub) => .next ((s1.setCode step sub).bootFail code)
        | none =>
          let digest := sm3 (img.take 0x100)
          let svn := (img.getD 8 0).toNat
          let s2 := (s1.setBootState 4).setCode 0x80 0
          let m := s2.plat.mgmt
          .next ((s2.setBoot { b with measurement := digest, svn, entry := leNat ((img.drop 0x14).take 4) }).setMgmt
            { m with measured := { m.measured with firmware := digest, svn } })

/-- FW_INIT_COMPLETE (R508, R520): firmware is up and the device READY, or it reports the step at which it failed. -/
def execFwInitComplete (ok : Bool) (sub : Nat) (s : State) : Host.Outcome State Fault Refusal :=
  if s.boot ≠ 4 then .next s
  else if ok then .next (((s.setBootState 5).setCode 0xFF 0).writeAvail.msix 0)
  else .next ((s.setCode 0x80 sub).bootFail 0x0F)

/-- FW_TIMEOUT (R520): step 9 exceeds its bound. -/
def execFwTimeout (s : State) : Host.Outcome State Fault Refusal :=
  if s.boot = 4 then .next (s.bootFail 0x10) else .next s

/-- BOOT_RESET (R512): RESET with a KEY; a device reset starts 1 ms later. -/
def execBootReset (key : Nat) (s : State) : Host.Outcome State Fault Refusal :=
  if key = 0xD1 ∧ s.plat.boot.resetAt = 0 then .next (s.setBoot { s.plat.boot with resetAt := s.now + 1000001 }) else .next s

/-- An advance ends (R519, R550). -/
def State.advanceDone (s : State) : State := ((s.setFlag 0x84 16 false).setFlag 0x84 17 true).measureHardware

/-- ADVANCE (R512, R519). -/
def execAdvance (s : State) : Host.Outcome State Fault Refusal :=
  if s.boot ≠ 5 ∨ s.flag 0x84 16 then .next s
  else if s.plat.boot.svn ≤ s.plat.fuses.minVersion then .next s.advanceDone
  else .next ((s.setFlag 0x84 16 true).setBoot { s.plat.boot with advTarget := s.plat.boot.svn })

/-- ADVANCE_FUSE_BLOWN (R519): one fuse is blown. -/
def execAdvanceFuseBlown (s : State) : Host.Outcome State Fault Refusal :=
  if !s.flag 0x84 16 then .next s
  else
    let f := s.plat.fuses
    let v := f.minVersion + 1
    let s1 := (s.setFuses { f with minVersion := v }).setFld 0x84 24 8 v
    .next (if s.plat.boot.advTarget ≤ v then s1.advanceDone else s1)

end Sys2Proof.Machine
end

