-- ==== Sys2Proof/Machine/GateOps.lean ====
section
/-! DEFINITION. The step gate: contributions, resolution and its fabric exchange (R266 to R279, R424, R604). -/

namespace Sys2Proof.Machine

open Sys2Proof

/-! ## Operands (R270, R486) -/

/-- TIMEOUT_MS; 0 runs with 65,535 ms (R277). -/
def Cmd.gateMs (c : Cmd) : Nat := bitsOf (c.body 1) 16 16
/-- CLIP_NORM. -/
def Cmd.clipNorm (c : Cmd) : Nat := bitsOf (c.body 1) 32 32

/-- Whether a command carries a contribution to its gate step (R266). -/
def Cmd.contributes (c : Cmd) : Bool :=
  (c.op == 1 && (c.gateNf || c.gateSq)) || (c.op == 0x0C && c.gateSq && bitsOf (c.body 2) 0 2 == 1)

/-- The gate job of a command. -/
def Cmd.gateJob? (c : Cmd) : Option GateJob := match c.job with | .gate j => some j | _ => none

/-! ## Step numbers (R269) -/

/-- Whether the gate of step `m` has not resolved, as far as the context has seen gate steps (R269). -/
def Ctx.unresolved (x : Ctx) (m : Nat) : Bool :=
  match x.gateNext with
  | none => false
  | some g => decide ((m + 2 ^ 32 - g) % 2 ^ 32 < 2 ^ 31)

/-- Whether Town Hall holds a contributing command until the gate two steps back resolves (R269). -/
def State.gateHolds (s : State) (n : Nat) (c : Cmd) : Bool :=
  c.contributes && (s.ctx n).unresolved ((c.gateStep + 2 ^ 32 - 2) % 2 ^ 32)

/-- A command of a gate step was read: the step numbers of the context, none where they break the order of R269. -/
def Ctx.noteStep (x : Ctx) (c : Cmd) : Option Ctx :=
  let m := c.gateStep
  if c.op = 6 then
    match x.gateRead with
    | some g => if m = (g + 1) % 2 ^ 32 then some { x with gateRead := some m } else none
    | none => some { x with gateRead := some m, gateNext := some m }
  else if c.contributes then
    match x.gateRead, x.gateNext with
    | some g, _ => if (m + 2 ^ 32 - (g + 1)) % 2 ^ 32 < 2 ^ 31 then some x else none
    | none, some g => some { x with gateNext := some (if (g + 2 ^ 32 - m) % 2 ^ 32 < 2 ^ 31 then m else g) }
    | none, none => some { x with gateNext := some m }
  else some x

/-! ## Contributions (R266, R268) -/

/-- The partial bank of a step. -/
def Ctx.bank (x : Ctx) (step : Nat) : GateBank := if step % 2 = 0 then x.bankEven else x.bankOdd
/-- Replaces the partial bank of a step. -/
def Ctx.setBank (x : Ctx) (step : Nat) (b : GateBank) : Ctx := if step % 2 = 0 then { x with bankEven := b } else { x with bankOdd := b }

/-- Adds to the bank of a step whose gate has not resolved; dropped otherwise (R268). -/
def State.addBank (s : State) (n step : Nat) (f : GateBank → GateBank) : State :=
  let x := s.ctx n
  if x.unresolved step then s.setCtx n (x.setBank step (f (x.bank step))) else s

/-- Adds a non-finite count, saturating (R266). -/
def GateBank.addNf (b : GateBank) (k : Nat) : GateBank := { b with nf := satAdd 0xFFFFFFFF b.nf k }

/-- Adds an FP64 sum of squares, or 1 to the non-finite count when it is not finite (R266). -/
def GateBank.addSq (b : GateBank) (sq : Nat) : GateBank :=
  if (Fmt.f64.dec sq).isFin then { b with sumsq := f64add b.sumsq sq } else b.addNf 1

/-- Adds an element of an owned shard: its FP32 square, or 1 where the value or its square is not finite (R266). -/
def GateBank.addElem (b : GateBank) (v : W32) : GateBank :=
  let q := f32mul v v
  if (f32v v).isFin && (f32v q).isFin then { b with sumsq := f64add b.sumsq (f64of32 q) } else b.addNf 1

/-! ## Totals (R271 to R273) -/

/-- The last word of the slot (R275). -/
def GateSlot.bits (g : GateSlot) : Nat :=
  g.outcome % 256 + b2n (g.nfGroup != 0) * 2 ^ 8 + b2n g.abort * 2 ^ 9 + b2n g.fault * 2 ^ 10 + b2n g.mismatch * 2 ^ 11 +
    (match g.failed with | some f => 2 ^ 12 + f % 2 ^ 14 * 2 ^ 16 | none => 0)

/-- The 32 bytes of the slot (R275). -/
def GateSlot.toBytes (g : GateSlot) : List Byte :=
  natLE 8 g.sumsq ++ natLE 4 g.norm ++ natLE 4 g.clip ++ natLE 4 g.nfLocal ++ natLE 4 g.nfGroup ++ natLE 4 g.step ++ natLE 4 g.bits

/-- The payload of GATE_RESULT: the same fields, big-endian, with no failed node (R424). -/
def GateSlot.toPayload (g : GateSlot) : List Byte :=
  let h := { g with failed := none }
  natBE 8 h.sumsq ++ natBE 4 h.norm ++ natBE 4 h.clip ++ natBE 4 h.nfLocal ++ natBE 4 h.nfGroup ++ natBE 4 h.step ++ natBE 4 h.bits

/-- Reads a GATE_RESULT payload (R424). -/
def GateSlot.ofPayload (bs : List Byte) : GateSlot :=
  let f := fun (off n : Nat) => beNat ((bs.drop off).take n)
  let w := f 0x1C 4
  { sumsq := f 0 8, norm := f 8 4, clip := f 0xC 4, nfLocal := f 0x10 4, nfGroup := f 0x14 4, step := f 0x18 4
    outcome := w % 256, abort := bitOf w 9, fault := bitOf w 10, mismatch := bitOf w 11 }

/-- CLIP: 1.0 when clipping is disabled or the norm does not exceed CLIP_NORM, else their quotient (R270, R272). -/
def gateClip (n64 clipNorm : Nat) : Nat :=
  let c := Fmt.f32.dec clipNorm
  let one := f32one.toNat
  if !c.isFin || !Fv.lt (.fin false 0 0) c then one
  else
    let c64 := f64of32 (BitVec.ofNat 32 clipNorm)
    if f64le n64 c64 then one else (f32of64 (Fmt.f64.div c64 n64)).toNat

/-- The outcome of R273. -/
def gateOutcome (mismatch abort fault : Bool) (nf : Nat) : Nat :=
  if mismatch then 7 else if abort then 1 else if fault then 4 else if nf ≠ 0 then 5 else 0

/-- The result of a gate from its contributions, in arrival order, as a root with a given seal and CLIP_NORM computes it (R271
to R273). -/
def gateTotal (cseal clipNorm step nfLocal : Nat) (cs : List GateContrib) : GateSlot :=
  let sumsq := match cs with | [] => 0 | c :: rest => rest.foldl (fun acc x => f64add acc x.sumsq) c.sumsq
  let nf := cs.foldl (fun acc x => satAdd 0xFFFFFFFF acc x.nf) 0
  let n64 := Fmt.f64.sqrt sumsq
  let abort := cs.any (·.abort)
  let fault := cs.any (·.fault)
  let mismatch := cs.any (fun x => x.cfgSeal != cseal)
  { sumsq, norm := (f32of64 n64).toNat, clip := gateClip n64 clipNorm, nfLocal, nfGroup := nf, step
    outcome := gateOutcome mismatch abort fault nf, abort, fault, mismatch }

/-! ## Resolution (R271 step 4, R275, R277, R604) -/

/-- SIGNAL of a settled command is signalled, once; a signal that faults ends a command that would complete OK (R271, R492). -/
def State.signalOnce (s : State) (n tag : Nat) : State :=
  match s.cmd? n tag with
  | none => s
  | some c =>
    if c.signalled then s
    else
      let r := s.signalCmd n c
      r.2.updCmd n tag (fun d => { d with status := r.1.1, cause := r.1.2, signalled := true })

/-- The outcome of a gate command that resolved with a slot; `cause` is that of a slot write that faulted, 0 for none (R275, R277,
R604). -/
def Cmd.gateEnds (c : Cmd) (g : GateSlot) (cause : Nat) (lost : Bool) : Cmd :=
  if g.outcome = 1 ∧ c.abortRec then c.settle 1 0 0
  else if c.gateMs = 0 ∧ g.outcome ≠ 1 then c.settle 4 1 0
  else if cause ≠ 0 then c.settle 4 cause 0
  else if lost then c.settle (if g.outcome = 0 then 6 else g.outcome) 0 0
  else c.settle g.outcome 0 0

/-- The slot of a gate has been written, or its write failed: the bank is cleared, SIGNAL signalled, the Press commands of the step
released, and the command completes (R271 step 4). -/
def State.gateReleases (s : State) (n : Nat) (c : Cmd) (g : GateSlot) (cause : Nat) (lost : Bool) : State :=
  let step := c.gateStep
  let x := s.ctx n
  let s1 := s.setCtx n { x.setBank step {} with
    gateNext := some ((step + 1) % 2 ^ 32), gateDone := ⟨step, g.outcome, BitVec.ofNat 32 g.clip⟩ :: x.gateDone }
  let s2 := { s1 with fab := { s1.fab with contribs := s1.fab.contribs.filter (fun k => !(k.group == c.group && k.seq == c.seq && c.group != 0)) } }
  ((s2.updCmd n c.tag (fun d => d.gateEnds g cause lost)).signalOnce n c.tag).releasePress n step g.outcome (BitVec.ofNat 32 g.clip)

/-- The gate of command `c` resolves on this device with a slot: the slot is written, and the rest of step 4 of R271 follows at once, or
when the write of a slot in remote space is acknowledged. -/
def State.resolveGate (s : State) (n : Nat) (c : Cmd) (g : GateSlot) : State :=
  match s.thWrite n c.tag (hallKey 0) (c.body 0) { bytes := g.toBytes } with
  | .wait t => t.updCmd n c.tag (fun d => match d.job with | .gate j => { d with job := .gate { j with out := some g } } | _ => d)
  | .ok cause t => t.gateReleases n c g cause false
  | .lost t => t.gateReleases n c g 0 true

/-- A gate that ends without having run: it resolves FAULT on this device, so that its Press commands end (R273). -/
def State.skipGate (s : State) (n : Nat) (c : Cmd) : State :=
  let x := s.ctx n
  let s1 := s.setCtx n { x.setBank c.gateStep {} with
    gateNext := some ((c.gateStep + 1) % 2 ^ 32), gateDone := ⟨c.gateStep, 4, 0⟩ :: x.gateDone }
  (s1.signalOnce n c.tag).releasePress n c.gateStep 4 0

/-- The slot of a gate that resolves TIMEOUT without a group result: the values no rule states are free (R275, R277). -/
def State.timeoutSlot (s : State) (c : Cmd) (j : GateJob) (failed : Option Nat) : GateSlot × State :=
  let a := s.fresh
  let b := a.2.fresh
  let d := b.2.fresh
  let e := d.2.fresh
  let f := e.2.fresh
  ({ sumsq := a.1 % 2 ^ 64, norm := b.1 % 2 ^ 32, clip := d.1 % 2 ^ 32, nfLocal := j.nfLocal, nfGroup := e.1 % 2 ^ 32
     step := c.gateStep, outcome := if c.gateAbort then 1 else 6, abort := c.gateAbort || bitOf f.1 0, fault := bitOf f.1 1
     mismatch := bitOf f.1 2, failed }, f.2)

/-- The gate resolves TIMEOUT on this device (R277); an abort that came first makes it ABORTED. -/
def State.gateTimesOut (s : State) (n : Nat) (c : Cmd) (failed : Option Nat) : State :=
  match c.gateJob? with
  | none => s
  | some j =>
    if j.out.isSome then s else
    let j1 := if j.sent then j else { j with nfLocal := ((s.ctx n).bank c.gateStep).nf }
    let r := s.timeoutSlot c j1 failed
    r.2.resolveGate n c r.1

/-! ## The exchange (R271, R424) -/

/-- This device's contribution to the gate of a command (R271 step 2). -/
def State.localContrib (s : State) (n : Nat) (c : Cmd) (abort : Bool) : GateContrib :=
  let b := (s.ctx n).bank c.gateStep
  { group := c.group, seq := c.seq, node := s.node, sumsq := b.sumsq, nf := b.nf, step := c.gateStep
    fault := b.fault || c.gateMs == 0, abort, cfgSeal := s.seal64 }

/-- The payload of GATE_CONTRIB (R424). -/
def GateContrib.payload (k : GateContrib) : List Byte :=
  natBE 8 k.sumsq ++ natBE 4 k.nf ++ natBE 4 k.step ++ [BitVec.ofNat 8 (b2n k.fault + 2 * b2n k.abort)] ++ List.replicate 7 0

/-- Sends this device's contribution to the root, or, at the root, takes it into the group's (R271 step 3). -/
def State.giveContrib (s : State) (e : GroupEntry) (k : GateContrib) : State :=
  if e.root = s.node then { s with fab := { s.fab with contribs := s.fab.contribs ++ [k] } }
  else
    let f := s.request 0 e.root 0x13 0 0 0 k.payload 0
    s.sendLoose { f with ext := some (s.ext k.group k.seq 4 e.rank) }

/-- The contributions the root holds for a gate, in arrival order. -/
def State.contribsOf (s : State) (g seq : Nat) : List GateContrib := s.fab.contribs.filter (fun k => k.group == g && k.seq == seq)

/-- Whether the root holds a contribution of every member. -/
def State.allContribs (s : State) (e : GroupEntry) (g seq : Nat) : Bool :=
  e.members.all (fun m => (s.contribsOf g seq).any (fun k => k.node == m))

/-- The root sends GATE_RESULT to each other member (R424). -/
def State.sendResults (s : State) (e : GroupEntry) (g seq : Nat) (slot : GateSlot) : State :=
  (e.members.filter (· != s.node)).foldl (fun (t : State) m =>
    let f := t.request 0 m 0x14 0 0 0 slot.toPayload 0
    t.sendLoose { f with ext := some (t.ext g seq 4 e.rank) }) s

/-- The results owed for gates whose root command a reset discarded are sent once every contribution is there (R502). -/
def State.serveOrphans (s : State) : State :=
  s.fab.orphans.foldl (fun (t : State) o =>
    match t.group? o.group with
    | none => t
    | some e =>
      if t.allContribs e o.group o.seq then
        let slot := gateTotal t.seal64 o.clipNorm o.step 0 (t.contribsOf o.group o.seq)
        let t1 := t.sendResults e o.group o.seq slot
        { t1 with fab := { t1.fab with
            orphans := t1.fab.orphans.erase o
            contribs := t1.fab.contribs.filter (fun k => !(k.group == o.group && k.seq == o.seq)) } }
      else t) s

/-- A reset ends a gate command that has not sent its contribution: it sends it with ABORT set (R502). -/
def State.resetGate (s : State) (n : Nat) (c : Cmd) : State :=
  let sent := match c.gateJob? with | some j => j.sent | none => false
  let resolved := match c.gateJob? with | some j => j.out.isSome | none => false
  if c.op ≠ 6 ∨ c.group = 0 ∨ c.phase = .settled ∨ resolved = true then s
  else match s.group? c.group with
    | none => s
    | some e =>
      let s1 := if sent then s else s.giveContrib e (s.localContrib n c true)
      if e.root = s.node then
        ({ s1 with fab := { s1.fab with orphans := s1.fab.orphans ++ [(⟨c.group, c.seq, c.gateStep, c.clipNorm⟩ : OrphanGate)] } }).serveOrphans
      else s1

/-- The failed member of a gate's group with the lowest position in LIST, if any (R277, R435). -/
def State.failedMember (s : State) (e : GroupEntry) : Option Nat := e.members.find? s.nodeFailed

/-- Every started gate whose group holds a failed node resolves TIMEOUT (R277, R435). -/
def State.failGates (s : State) : State :=
  let all := s.ctxs.flatMap (fun (x : Nat × Ctx) => (x.2.cmds.filter (fun (c : Cmd) => c.op == 6 && c.phase == .running)).map (fun (c : Cmd) => (x.1, c.tag)))
  all.foldl (fun (t : State) (q : Nat × Nat) =>
    match t.cmd? q.1 q.2 with
    | none => t
    | some c => match c.gateJob?, t.group? c.group with
      | some j, some e => match t.failedMember e with
        | some f => if j.start ≠ 0 then t.gateTimesOut q.1 c (some f) else t
        | none => t
      | _, _ => t) s

end Sys2Proof.Machine
end

