-- ==== Sys2Proof/Machine/Gate.lean ====
section
/-! DEFINITION. The gate command and the frames of the step gate (R269 to R278, R424). -/

namespace Sys2Proof.Machine

open Sys2Proof

/-- GATE (R270, R276, R277): a dispatched gate command waits for the previous gate of its context. -/
def execGate (n tag : Nat) (s : State) : Host.Outcome State Fault Refusal :=
  match s.cmd? n tag with
  | none => .next s
  | some c =>
    if c.op ≠ 6 ∨ c.phase ≠ .dispatched then .next s
    else if c.body 0 % 32 ≠ 0 ∨ (c.group ≠ 0 ∧ (s.group? c.group).isNone) then .fault .hostError
    else .next (s.setCmd n { c with phase := .running, job := .gate {} })

/-- GATE_START (R277): the gate of the previous step has resolved, and the time limit starts. -/
def execGateStart (n tag : Nat) (s : State) : Host.Outcome State Fault Refusal :=
  match s.cmd? n tag with
  | none => .next s
  | some c => match c.phase, c.job with
    | .running, .gate j =>
      if j.start = 0 ∧ (s.ctx n).gateNext = some c.gateStep then
        .next (s.setCmd n { c with job := .gate { j with start := s.now + 1 } })
      else .next s
    | _, _ => .next s

/-- Whether every contributing command of the step ahead of the gate in the ring has completed (R271 step 1). -/
def State.contribsDone (s : State) (n : Nat) (c : Cmd) : Bool :=
  !((s.ctx n).cmds.any (fun (d : Cmd) => d.contributes && d.gateStep == c.gateStep && wrapSub c.tag d.tag < 2 ^ 31))

/-- GATE_RESOLVE (R271 to R276): the local contribution is taken and, with a group, sent to the root; the gate resolves once the
group total is known. -/
def execGateResolve (n tag : Nat) (s : State) : Host.Outcome State Fault Refusal :=
  match s.cmd? n tag with
  | none => .next s
  | some c => match c.phase, c.job with
    | .running, .gate j =>
      if j.start = 0 then .next s
      else if let some g := j.out then .next (s.resolveGate n c g)
      else if c.group = 0 then
        if c.gateAbort ∨ s.contribsDone n c then
          let k := s.localContrib n c c.gateAbort
          .next (s.resolveGate n c (gateTotal s.seal64 c.clipNorm c.gateStep k.nf [k]))
        else .next s
      else match s.group? c.group with
        | none => .fault .hostError
        | some e => match s.failedMember e with
          | some f => .next (s.gateTimesOut n c (some f))
          | none =>
            let give := !j.sent && (c.gateAbort || s.contribsDone n c)
            let k := s.localContrib n c c.gateAbort
            let s1 := if give then
              (s.giveContrib e k).setCmd n { c with job := .gate { j with sent := true, nfLocal := k.nf } } else s
            let nf := if give then k.nf else j.nfLocal
            if e.root = s.node ∧ (j.sent ∨ give) ∧ s1.allContribs e c.group c.seq then
              let slot := gateTotal s1.seal64 c.clipNorm c.gateStep nf (s1.contribsOf c.group c.seq)
              .next ((s1.sendResults e c.group c.seq slot).resolveGate n c slot)
            else .next s1
    | _, _ => .next s

/-- GATE_TIMEOUT (R277): the gate has not resolved within its time limit. -/
def execGateTimeout (n tag : Nat) (s : State) : Host.Outcome State Fault Refusal :=
  match s.cmd? n tag with
  | none => .next s
  | some c => match c.phase, c.job with
    | .running, .gate j =>
      let ms := if c.gateMs = 0 then 65535 else c.gateMs
      if j.start ≠ 0 ∧ j.start - 1 + ms * 1000000 ≤ s.now then .next (s.gateTimesOut n c none) else .next s
    | _, _ => .next s

/-- A CONFIG_MISMATCH record for a frame's seal (R421, R436). -/
def State.mismatchRecord (s : State) (node cseal : Nat) : State :=
  s.fabricEventAll (fabricRecord 0x82 0xFF node cseal 0 0 s.time32)

/-- Sends COLL_ABORT of a group command to next and to prev (R422). -/
def State.sendCollAbort (s : State) (e : GroupEntry) (g seq kind reason : Nat) : State :=
  [e.next, e.prev].foldl (fun (t : State) m =>
    let f := t.request 0 m 0x12 0 0 reason [] 0
    t.sendLoose { f with ext := some (t.ext g seq kind e.rank) }) s

/-- GATE_CONTRIB (R271, R414, R421, R424): the root receives a member's contribution. -/
def execGateContrib (s : State) : Host.Outcome State Fault Refusal :=
  match s.takeOpc 0x13 with
  | none => .next s
  | some (f, s0) =>
      match f.ext with
      | none => .next s0.countDiscard
      | some x => match s0.group? x.group with
        | none => .next s0.countDiscard
        | some e =>
          if !e.members.contains f.src then .next s0.countDiscard
          else if 32768 ≤ (x.seq + 65536 - s0.seqBase x.group) % 65536 ∧
              !(s0.fab.orphans.any (fun o => o.group == x.group && o.seq == x.seq)) then .next s0.countFabStale
          else
            let b := f.payload
            let fl := (b.getD 16 0).toNat
            let k : GateContrib := {
              group := x.group, seq := x.seq, node := f.src, sumsq := beNat (b.take 8), nf := beNat ((b.drop 8).take 4)
              step := beNat ((b.drop 12).take 4), fault := bitOf fl 0, abort := bitOf fl 1, cfgSeal := x.cfgSeal }
            let s1 := { s0 with fab := { s0.fab with contribs := s0.fab.contribs ++ [k] } }
            let s2 := if x.cfgSeal = s.seal64 then s1
              else (s1.sendCollAbort e x.group x.seq 4 2).mismatchRecord f.src x.cfgSeal
            .next s2.serveOrphans

/-- GATE_RESULT (R271, R273, R275, R424): a member receives the group result, and its gate resolves. -/
def execGateResult (s : State) : Host.Outcome State Fault Refusal :=
  match s.takeOpc 0x14 with
  | none => .next s
  | some (f, s0) =>
      match f.ext with
      | none => .next s0.countDiscard
      | some x =>
        let hit := s0.ctxs.findSome? (fun (q : Nat × Ctx) =>
          (q.2.cmds.find? (fun (c : Cmd) => c.op == 6 && c.group == x.group && c.seq == x.seq && c.phase == .running)).map (fun c => (q.1, c)))
        match hit with
        | none => .next s0.countFabStale
        | some (n, c) => match c.job with
          | .gate j =>
            if j.sent && j.out.isNone then .next (s0.resolveGate n c { GateSlot.ofPayload f.payload with nfLocal := j.nfLocal })
            else .next s0.countFabStale
          | _ => .next s0

end Sys2Proof.Machine
end

