-- ==== Sys2Proof/Machine/XferOps.lean ====
section
/-! DEFINITION. One step of an engine that reads some virtual ranges and writes one, for the commands of the mesh, the fabric
and the Cutting Room (R66, R73, R78, R408, R410, R503). -/

namespace Sys2Proof.Machine

open Sys2Proof

/-- How a step of an engine ends. -/
inductive XferRes where
  /-- replies of remote space are outstanding -/
  | wait (s : State)
  | fault (f : AccFault) (write : Bool) (s : State)
  /-- no reply from remote space (R410) -/
  | lost (s : State)
  /-- done; the views read, in order -/
  | done (vs : List View) (s : State)

/-- Where a step ends once what it reads is there: it writes `f` of the views at `dst`, if it writes. -/
def State.xferGo (s : State) (n tag key : Nat) (buf : Memory) (bad : Store Bool) (rs : List (List (Nat × Nat × Nat)))
    (pd : List (Nat × Nat × Nat)) (f : List View → View) : XferRes :=
  let vs := rs.map (s.view buf bad)
  let s1 := s.noteReads n (s.engDemand n tag) rs.flatten
  if pd.isEmpty then .done vs s1
  else match s1.engPut n tag key buf bad [(pd, f vs)] with
    | .lost t => .lost t
    | .ok true t => .wait t
    | .ok false t => .done vs t

/-- Reads the ranges and writes `f` of them at `dst`: an address and a length, a length of 0 writing nothing. Every range is
translated and host reads are checked before anything changes. -/
def State.engStep (s : State) (n tag key : Nat) (reads : List (Nat × Nat)) (dst : Nat × Nat) (f : List View → View) : XferRes :=
  match s.xlateAll n reads with
  | .error e => .fault e false s
  | .ok rs =>
    let w := if dst.2 = 0 then .ok [] else s.engXlate n dst.1 dst.2 true
    match w with
    | .error e => .fault e true s
    | .ok pd => match s.engHostCheck n rs.flatten with
      | some (e, bus) => .fault e false (s.hostReadError n bus)
      | none =>
        match s.engNow n tag key (s.remoteRanges rs.flatten ++ s.remoteEdges pd) with
        | .wait t => .wait t
        | .refused w pa t => let e := refusedAt rs.flatten pd w pa; .fault e.1 e.2 t
        | .lost t => .lost t
        | .done t => .done [] t
        | .go buf bad t => t.xferGo n tag key buf bad rs pd f

/-- Translates ranges to write in order; the first fault wins. -/
def State.xlateWrites (s : State) (n : Nat) : List (Nat × View) → Except AccFault (List (List (Nat × Nat × Nat) × View))
  | [] => .ok []
  | (va, v) :: rest =>
    match s.engXlate n va v.bytes.length true with
    | .error f => .error f
    | .ok ps => match s.xlateWrites n rest with
      | .error f => .error f
      | .ok l => .ok ((ps, v) :: l)

/-- Writes several views as one step of an engine. -/
def State.engWriteAll (s : State) (n tag key : Nat) (ws : List (Nat × View)) : XferRes :=
  match s.xlateWrites n ws with
  | .error e => .fault e true s
  | .ok l =>
    let pd := l.flatMap (fun w => w.1)
    match s.engNow n tag key (s.remoteEdges pd) with
    | .wait t => .wait t
    | .refused w pa t => .fault (refusedAt [] pd w pa).1 true t
    | .lost t => .lost t
    | .done t => .done [] t
    | .go buf bad t => match t.engPut n tag key buf bad l with
      | .lost u => .lost u
      | .ok true u => .wait u
      | .ok false u => .done [] u

end Sys2Proof.Machine
end

