-- ==== Sys2Proof/Machine/MeshOps.lean ====
section
/-! DEFINITION. Routing and arbitration of the mesh, and the steps of the gather engines (R352 to R378). -/

namespace Sys2Proof.Machine

open Sys2Proof

/-! ## The grid (R352 to R354, R360) -/

/-- Grid row of a Crossing, named by its Block number. -/
def gridRow (b : Nat) : Nat := b % 18 / 6
/-- Grid column of a Crossing (R354). -/
def gridCol (b : Nat) : Nat := b / 18 * 6 + b % 6
/-- The Crossing at a grid row and column. -/
def gridAt (r c : Nat) : Nat := c / 6 * 18 + r * 6 + c % 6

/-- The output port of the route from Crossing `x` to Crossing `d`: along the row first, over the Seam by its edge port, then
along the column; 4 at the destination (R353, R360). -/
def meshOut (x d : Nat) : Nat :=
  let c := gridCol x
  let e := gridCol d
  if c < e then (if c = 5 then 5 else 1)
  else if e < c then (if c = 6 then 5 else 3)
  else if gridRow x < gridRow d then 2 else if gridRow d < gridRow x then 0 else 4

/-- The Crossing and input port that an output port leads to. -/
def meshNext (x out : Nat) : Nat × Nat :=
  match out with
  | 0 => (gridAt (gridRow x - 1) (gridCol x), 2)
  | 1 => (gridAt (gridRow x) (gridCol x + 1), 3)
  | 2 => (gridAt (gridRow x + 1) (gridCol x), 0)
  | 3 => (gridAt (gridRow x) (gridCol x - 1), 1)
  | _ => (gridAt (gridRow x) (if gridCol x = 5 then 6 else 5), 5)

/-- Key of a port. -/
def portKey (x port : Nat) : Nat := 8 * x + port

/-- `n` clocks of the mesh of a half in nanoseconds, rounded up (R23, R24). -/
def State.meshNs (s : State) (half n : Nat) : Nat := ceilDiv (n * 80) (17 * max 1 (s.fld 0x200C (24 + 4 * half) 4))

/-- Replaces the meshes. -/
def State.setMesh (s : State) (m : Mesh) : State := { s with mesh := m }
/-- The flits on the way to an input port. -/
def State.meshLink (s : State) (x port : Nat) : List Flit := Store.get [] s.mesh.links (portKey x port)
/-- Replaces the flits on the way to an input port. -/
def State.setLink (s : State) (x port : Nat) (l : List Flit) : State :=
  s.setMesh { s.mesh with links := Store.set [] s.mesh.links (portKey x port) l }
/-- Sends a flit toward an input port. -/
def State.pushLink (s : State) (x port : Nat) (f : Flit) : State := s.setLink x port (s.meshLink x port ++ [f])
/-- The flits in the buffers of an input port. -/
def State.meshBuf (s : State) (x port : Nat) : List Flit := Store.get [] s.mesh.bufs (portKey x port)
/-- Replaces the flits in the buffers of an input port. -/
def State.setBuf (s : State) (x port : Nat) (l : List Flit) : State :=
  s.setMesh { s.mesh with bufs := Store.set [] s.mesh.bufs (portKey x port) l }
/-- Puts a flit into the buffers of an input port. -/
def State.pushBuf (s : State) (x port : Nat) (f : Flit) : State := s.setBuf x port (s.meshBuf x port ++ [f])

/-- Whether a flit belongs to a command. -/
def Flit.of (n tag : Nat) (f : Flit) : Bool :=
  match f.kind with
  | .reduce c t _ _ _ _ _ => c == n && t == tag
  | .mcast c t _ _ _ _ _ => c == n && t == tag
  | .refusal c t _ _ => c == n && t == tag
  | .other _ => false

/-- Removes the flits of a command from a store of flits. -/
def dropFlits (n tag : Nat) (m : Store (List Flit)) : Store (List Flit) :=
  m.foldl (fun (acc : Store (List Flit)) p => Store.set [] acc p.1 (p.2.filter (fun f => !f.of n tag))) []

/-- Ends everything the meshes hold for a command: incomplete chunks and packets in flight are discarded (R369, R371). -/
def State.purgeMesh (s : State) (n tag : Nat) : State :=
  let m := s.mesh
  (s.setMesh { m with
    links := dropFlits n tag m.links, bufs := dropFlits n tag m.bufs
    held := m.held.filter (fun h => !h.flit.of n tag)
    recv := m.recv.filter (fun b => !(b.ctx == n && b.tag == tag))
    resends := m.resends.filter (fun r => !(r.ctx == n && r.tag == tag)) }).dropXfers n tag

/-- Settles a command of the mesh. -/
def State.settleMesh (s : State) (n tag status cause position : Nat) : State :=
  ((s.purgeMesh n tag).progressFor n tag).settleCmd n tag status cause position

/-- A command of the mesh or fabric engines ends FAULT, with the record of R86 (R369, R377). -/
def State.meshFault (s : State) (n tag : Nat) (f : AccFault) (write : Bool) : State :=
  (s.cmdFaultRec n tag 1 0 f write).settleMesh n tag 4 f.cause 0

/-! ## Splitting and arbitration (R357, R370) -/

/-- The output a flit takes at Crossing `x`: that of its destination, or of its first target. -/
def Flit.out (f : Flit) (x : Nat) : Nat :=
  match f.kind with
  | .mcast _ _ _ _ ts _ _ => meshOut x ((ts.headD (0, x)).2)
  | .other p => if x = f.dst then p.port else meshOut x f.dst
  | _ => meshOut x f.dst

/-- The copies of a flit that leave Crossing `x`: a multicast packet is copied where the routes of its targets divide. -/
def Flit.split (f : Flit) (x : Nat) : List Flit :=
  match f.kind with
  | .mcast c t p src ts bytes bad =>
    ([0, 1, 2, 3, 4, 5].map (fun o => ts.filter (fun (q : Nat × Nat) => meshOut x q.2 == o))).filter (fun l => !l.isEmpty)
      |>.map (fun l => { f with kind := .mcast c t p src l bytes bad })
  | _ => [f]

/-- The first flit of a virtual channel in a buffer that leaves by an output. -/
def bufHead (l : List Flit) (x vc out : Nat) : Option Flit := l.find? (fun f => f.vc == vc && f.out x == out)

/-- The input ports that have a flit of a virtual channel for an output. -/
def State.readyIn (s : State) (x vc out : Nat) : List Nat :=
  (List.range 7).filter (fun p => (bufHead (s.meshBuf x p) x vc out).isSome)

/-- The first of a list of numbers after `last` in turn, counting modulo `m`. -/
def inTurn (m last : Nat) (l : List Nat) : Option Nat :=
  ((List.range m).map (fun i => (last + 1 + i) % m)).find? l.contains

/-- The virtual channel an output serves in a clock (R357): VC0 while it sent fewer than 4 flits in the 15 preceding clocks,
else VC1 to VC3 in turn, else VC0. -/
def chooseVc (o : MeshOut) (ready : Nat → Bool) : Option Nat :=
  if ready 0 && decide ((o.vc0.take 15).countP (fun b => b) < 4) then some 0
  else match inTurn 3 ((o.turn + 2) % 3) ((List.range 3).filter (fun i => ready (i + 1))) with
    | some i => some (i + 1)
    | none => if ready 0 then some 0 else none

/-- Removes the first flit equal to `f`. -/
def dropFlit (f : Flit) (l : List Flit) : List Flit := l.erase f

/-! ## Deliveries -/

/-- The targets of one copy of a multicast packet meet the receive buffers of engine `x`: each takes one of 8, or the packet is
refused to its source on VC1 (R370, R371). -/
def State.takeMcast (s : State) (x n tag packet src : Nat) (bytes : List Byte) (bad : List (Nat × Nat)) : List (Nat × Nat) → State
  | [] => s
  | (t, e) :: rest =>
    let used := s.mesh.recv.countP (fun b => b.engine == x)
    let s1 := if used < 8 then
        s.setMesh { s.mesh with recv := s.mesh.recv ++ [⟨e, n, tag, t, packet, bytes, bad⟩] }
      else s.pushLink x 4 { vc := 1, dst := src, kind := .refusal n tag packet t }
    s1.takeMcast x n tag packet src bytes bad rest

/-- A flit leaves Crossing `x` by its local or edge port. -/
def State.deliverFlit (s : State) (x : Nat) (f : Flit) : State :=
  match f.kind with
  | .reduce .. => s.pushLink x 6 f
  | .mcast n tag packet src ts bytes bad => s.takeMcast x n tag packet src bytes bad ts
  | .refusal n tag packet t => s.setMesh { s.mesh with resends := s.mesh.resends ++ [⟨n, tag, t, packet, s.now⟩] }
  | .other p => s.setMesh { s.mesh with out := s.mesh.out ++ [(x, p)] }

/-- One clock of output `out` of Crossing `x` (R357). -/
def State.meshClock (s : State) (x out : Nat) : State :=
  let o := Store.get {} s.mesh.outs (portKey x out)
  let vc := chooseVc o (fun v => !(s.readyIn x v out).isEmpty)
  let note := fun (b : Bool) => (b :: o.vc0).take 15
  match vc with
  | none => s.setMesh { s.mesh with outs := Store.set {} s.mesh.outs (portKey x out) { o with vc0 := note false } }
  | some v =>
    match inTurn 7 (o.lastIn.getD v 0) (s.readyIn x v out) with
    | none => s
    | some p => match bufHead (s.meshBuf x p) x v out with
      | none => s
      | some f =>
        let o1 : MeshOut := { vc0 := note (v == 0), turn := if v = 0 then o.turn else v, lastIn := o.lastIn.set v p }
        let s1 := (s.setMesh { s.mesh with outs := Store.set {} s.mesh.outs (portKey x out) o1 }).setBuf x p
          (dropFlit f (s.meshBuf x p))
        let away := match f.kind with | .other _ => x != f.dst | _ => out != 4
        if away then s1.pushLink (meshNext x out).1 (meshNext x out).2 f else s1.deliverFlit x f

/-! ## The Seam (R373, R374) -/

/-- The Seam Crossing of a row on the side a direction leaves: 0 West to East, 1 East to West. -/
def seamCrossing (d r : Nat) : Nat := gridAt r (5 + d)

/-- What the Square channel of a direction has ready: responses on VC1, requests on VC2 (R373). -/
def State.squareReady (s : State) (d v : Nat) : Bool :=
  (v == 1 && !(Store.get [] s.mem.seamDone d).isEmpty) || (v == 2 && !(Store.get [] s.mem.seamReqs d).isEmpty)

/-- The channels of a direction that have a flit to send, with the virtual channel each would serve: rows 0 to 2, 3 the Square channel. -/
def State.seamWants (s : State) (d : Nat) : List (Nat × Nat) :=
  (List.range 4).filterMap (fun ch =>
    let v := if ch < 3 then
        let x := seamCrossing d ch
        chooseVc (Store.get {} s.mesh.outs (portKey x 5)) (fun v => !(s.readyIn x v 5).isEmpty)
      else chooseVc (Store.get {} s.mesh.outs (portKey 36 d)) (s.squareReady d)
    v.map (fun v => (ch, v)))

/-- The Square channel of a direction moves its oldest response to the port it goes to, or its oldest request to the Seam port of the
other half (R373). -/
def State.squareClock (s : State) (d v : Nat) : State :=
  let o := Store.get {} s.mesh.outs (portKey 36 d)
  let s1 := s.setMesh { s.mesh with outs := Store.set {} s.mesh.outs (portKey 36 d) { o with turn := v } }
  let m := s1.mem
  if v = 1 then
    match Store.get [] m.seamDone d with
    | [] => s1
    | r :: rest => { s1 with mem := { m with seamDone := Store.set [] m.seamDone d rest, done := m.done ++ [r] } }
  else
    match Store.get [] m.seamReqs d with
    | [] => s1
    | r :: rest =>
      let q : SqReq := { r with port := seamPort (1 - d), origin := some r.port }
      { s1 with mem := { m with
          seamReqs := Store.set [] m.seamReqs d rest, seamIn := Store.set [] m.seamIn (1 - d) (Store.get [] m.seamIn (1 - d) ++ [q]) } }

/-- One place on the wires of a direction of the Seam: a channel with VC0 goes first, then the four channels take turns (R374). -/
def State.seamClock (s : State) (d : Nat) : State :=
  let wants := s.seamWants d
  let vc0 := wants.filter (fun w => w.2 == 0)
  let among := if vc0.isEmpty then wants else vc0
  match inTurn 4 (Store.get 0 s.mesh.seamTurn d + 3) (among.map (·.1)) with
  | none => s
  | some ch =>
    let s1 := s.setMesh { s.mesh with seamTurn := Store.set 0 s.mesh.seamTurn d (ch + 1) }
    if ch < 3 then s1.meshClock (seamCrossing d ch) 5
    else s1.squareClock d (((wants.find? (fun w => w.1 == 3)).map (·.2)).getD 0)

/-- One clock of output `out` of Crossing `x`: on the Seam the channels of the direction contend (R357, R374). -/
def State.outClock (s : State) (x out : Nat) : State :=
  if out = 5 ∧ gridCol x = 5 then s.seamClock 0 else if out = 5 ∧ gridCol x = 6 then s.seamClock 1 else s.meshClock x out

/-! ## Reduction packets at a Crossing (R367) -/

/-- A held packet of the same identifier and chunk. -/
def HeldPkt.meets (h : HeldPkt) (x : Nat) (f : Flit) : Bool :=
  match h.flit.kind, f.kind with
  | .reduce n t k _ _ _ _, .reduce n' t' k' _ _ _ _ => h.crossing == x && n == n' && t == t' && k == k'
  | _, _ => false

/-- Adds two vectors element by element: FP32, or modulo 2^32 (R368). -/
def addWords (int : Bool) (a b : List W32) : List W32 := List.zipWith (fun x y => if int then x + y else f32add x y) a b

/-- The union of two lists of poisoned payload words. -/
def joinBad (a b : List Nat) : List Nat := a ++ b.filter (fun i => !a.contains i)

/-- Adds a packet into another of the same identifier and chunk (R367, R368). -/
def Flit.merge (int : Bool) (f g : Flit) : Flit :=
  match f.kind, g.kind with
  | .reduce n t k c tot w b, .reduce _ _ _ c' _ w' b' => { f with kind := .reduce n t k (c + c') tot (addWords int w w') (joinBad b b') }
  | _, _ => f

/-- Whether a reduction packet carries every contribution of the command (R367). -/
def Flit.full (f : Flit) : Bool := match f.kind with | .reduce _ _ _ c tot _ _ => decide (tot ≤ c) | _ => false

/-- A reduction packet arrives at Crossing `x`: it is added into a held packet, which moves on once complete, or it is held;
with 64 packets held the oldest leaves (R367). -/
def State.holdPkt (s : State) (x : Nat) (int : Bool) (f : Flit) : State :=
  match s.mesh.held.find? (fun h => h.meets x f) with
  | some h =>
    let g := h.flit.merge int f
    if g.full then (s.setMesh { s.mesh with held := s.mesh.held.erase h }).pushBuf x 6 g
    else s.setMesh { s.mesh with held := s.mesh.held.map (fun q => if q.meets x f then { q with flit := g } else q) }
  | none =>
    let mine := s.mesh.held.filter (fun h => h.crossing == x)
    let s1 := if mine.length < 64 then s else match mine.head? with
      | none => s
      | some h => (s.setMesh { s.mesh with held := s.mesh.held.erase h }).pushBuf x 6 h.flit
    s1.setMesh { s1.mesh with held := s1.mesh.held ++ [⟨x, s1.now, f⟩] }

/-! ## Mesh reduce (R366 to R369) -/

/-- COUNT of a mesh reduce. -/
def Cmd.redCount (c : Cmd) : Nat := bitsOf (c.body 2) 0 9
/-- DST_ENGINE of a mesh reduce. -/
def Cmd.redEngine (c : Cmd) : Nat := bitsOf (c.body 2) 10 6
/-- FMT_IN of a mesh reduce: 0 FP32, 1 BF16, 8 INT32. -/
def Cmd.redIn (c : Cmd) : Nat := bitsOf (c.body 2) 16 4
/-- FMT_OUT of a mesh reduce. -/
def Cmd.redOut (c : Cmd) : Nat := bitsOf (c.body 2) 20 4
/-- ACC of a mesh reduce. -/
def Cmd.redAcc (c : Cmd) : Bool := bitOf (c.body 2) 24
/-- LENGTH of a mesh reduce, in elements. -/
def Cmd.redLen (c : Cmd) : Nat := bitsOf (c.body 2) 32 32
/-- Bytes of an element of a sum format. -/
def sumBytes (f : Nat) : Nat := if f = 1 then 2 else 4
/-- Whether formats may be summed together: floating with floating, INT32 with INT32 (R366, R415). -/
def sumFmts (i o : Nat) : Bool := (i == 8 && o == 8) || ((i == 0 || i == 1) && (o == 0 || o == 1))

/-- The elements of a view in a sum format, BF16 widened to FP32 (R367). -/
def View.sumWords (v : View) (f : Nat) : List W32 :=
  (chunk (sumBytes f) (v.bytes.length / sumBytes f) v.bytes).map (fun bs => BitVec.ofNat 32 (if f = 1 then leNat bs * 65536 else leNat bs))

/-- The pairs of elements, by pair, that a poisoned word of a view touches. -/
def View.badPairs (v : View) (f : Nat) : List Nat :=
  (List.range (ceilDiv v.bytes.length (2 * sumBytes f))).filter (fun m => v.badIn (2 * sumBytes f * m) (2 * sumBytes f))

/-- Elements converted to a sum format under R236 and R237: bytes, saturations and non-finite values. -/
def sumOut (f : Nat) (nfm : Bool) (ws : List W32) : List Byte × Nat × Nat :=
  if f = 8 then (ws.flatMap (fun w => natLE 4 w.toNat), 0, 0)
  else
    let e := if f = 1 then ElemFmt.bf16 else ElemFmt.fp32
    let cs := ws.map (fun w => convert e .near nfm false (f32v w))
    (cs.flatMap (fun c => natLE (sumBytes f) c.code), cs.countP (fun c => c.sat), cs.countP (fun c => c.nf))

/-- The byte ranges of pairs of elements in a sum format. -/
def pairRanges (f : Nat) (bad : List Nat) : List (Nat × Nat) := bad.map (fun m => (2 * sumBytes f * m, 2 * sumBytes f * (m + 1)))

/-- Replaces the job of a mesh reduce. -/
def State.setReduce (s : State) (n tag : Nat) (f : ReduceJob → ReduceJob) : State :=
  s.updCmd n tag (fun c => match c.job with | .reduce j => { c with job := .reduce (f j) } | _ => c)

/-- The running mesh reduce with a tag. -/
def State.reduce? (s : State) (n tag : Nat) : Option (Cmd × ReduceJob) :=
  match s.cmd? n tag with
  | some c => match c.phase, c.job with | .running, .reduce j => some (c, j) | _, _ => none
  | none => none

/-- The destination engine writes chunk `k` once its counts are complete, and the last one completes the command (R368, R369). -/
def State.reduceWrite (s : State) (n tag k : Nat) : State :=
  match s.reduce? n tag with
  | none => s
  | some (c, j) =>
    let a := Store.get {} j.chunks k
    if a.count < c.redCount + b2n c.redAcc ∨ Store.get false j.written k then s
    else
      let o := sumOut c.redOut false a.words
      let len := 128 * sumBytes c.redOut
      match s.engStep n tag (1000 + k) [] (c.body 1 + len * k, len) (fun _ => { bytes := o.1, bad := pairRanges c.redOut a.bad }) with
      | .wait t => t
      | .fault f w t => t.meshFault n tag f w
      | .lost t => t.settleMesh n tag 6 0 0
      | .done _ t =>
        let t1 := t.setReduce n tag (fun j => { j with chunks := Store.set {} j.chunks k {}, written := Store.set false j.written k true })
        match t1.reduce? n tag with
        | some (_, j1) => if j1.written.length = j1.total then t1.settleMesh n tag 0 0 0 else t1.progressFor n tag
        | none => t1

/-- Adds a contribution to a chunk at the destination engine, and writes the chunk if that completes it (R368). -/
def State.reduceAdd (s : State) (n tag k count : Nat) (words : List W32) (bad : List Nat) (acc : Bool) : State :=
  match s.reduce? n tag with
  | none => s
  | some (c, j) =>
    let a := Store.get {} j.chunks k
    let a1 : ChunkAcc := { count := a.count + count, words := if a.count = 0 then words else addWords (c.redIn == 8) a.words words
                           bad := joinBad a.bad bad, acc := a.acc || acc }
    (s.setReduce n tag (fun j => { j with chunks := Store.set {} j.chunks k a1 })).reduceWrite n tag k

/-- Source engine `i` reads its next chunk and sends it as a reduction packet (R367). -/
def State.reduceSend (s : State) (n tag i : Nat) : State :=
  match s.reduce? n tag with
  | none => s
  | some (c, j) =>
    let k := j.sent.getD i j.total
    if j.total ≤ k then s
    else
      let src := j.srcs.getD i (0, 0)
      let len := 128 * sumBytes c.redIn
      match s.engStep n tag i [(src.1 + len * k, len)] (0, 0) (fun _ => {}) with
      | .wait t => t
      | .fault f w t => t.meshFault n tag f w
      | .lost t => t.settleMesh n tag 6 0 0
      | .done vs t =>
        let v := vs.headD {}
        let f : Flit := { vc := 3, dst := c.redEngine, kind := .reduce n tag k 1 c.redCount (v.sumWords c.redIn) (v.badPairs c.redIn) }
        (t.setReduce n tag (fun j => { j with sent := j.sent.set i (k + 1) })).pushLink src.2 4 f

/-- The destination engine's own turn on chunk `k`: under ACC it reads what is there as one more contribution; then a complete
chunk is written (R366, R368). -/
def State.reduceTurn (s : State) (n tag k : Nat) : State :=
  match s.reduce? n tag with
  | none => s
  | some (c, j) =>
    if j.total ≤ k ∨ Store.get false j.written k then s
    else if c.redAcc ∧ !(Store.get {} j.chunks k).acc then
      let len := 128 * sumBytes c.redOut
      match s.engStep n tag (1000 + k) [(c.body 1 + len * k, len)] (0, 0) (fun _ => {}) with
      | .wait t => t
      | .fault f w t => t.meshFault n tag f w
      | .lost t => t.settleMesh n tag 6 0 0
      | .done vs t =>
        let v := vs.headD {}
        t.reduceAdd n tag k 1 (v.sumWords c.redOut) (v.badPairs c.redOut) true
    else s.reduceWrite n tag k

/-- An abort of a mesh reduce before the write of its last chunk (R369). -/
def State.reduceAbort (s : State) (n : Nat) (c : Cmd) (j : ReduceJob) : State :=
  (s.setCmd n { c with abortRec := true }).settleMesh n c.tag 1 0 (lowest j.written j.total)

/-! ## Multicast (R370 to R372) -/

/-- LENGTH of a multicast, in bytes. -/
def Cmd.mcLen (c : Cmd) : Nat := bitsOf (c.body 2) 0 25
/-- SRC_ENGINE of a mesh multicast. -/
def Cmd.mcEngine (c : Cmd) : Nat := bitsOf (c.body 2) 25 6
/-- TCOUNT of a multicast. -/
def Cmd.mcTargets (c : Cmd) : Nat := bitsOf (c.body 2) 32 7

/-- The running multicast with a tag and an opcode. -/
def State.mcast? (s : State) (n tag op : Nat) : Option (Cmd × McastJob) :=
  match s.cmd? n tag with
  | some c => if c.op = op then (match c.phase, c.job with | .running, .mcast j => some (c, j) | _, _ => none) else none
  | none => none

/-- Replaces the job of a multicast. -/
def State.setMcast (s : State) (n tag : Nat) (f : McastJob → McastJob) : State :=
  s.updCmd n tag (fun c => match c.job with | .mcast j => { c with job := .mcast (f j) } | _ => c)

/-- Sends packet `p` of a mesh multicast to targets, by index (R370, R371). -/
def State.mcastSend (s : State) (n tag p : Nat) (ts : List Nat) (after : McastJob → McastJob) : State :=
  match s.mcast? n tag 9 with
  | none => s
  | some (c, j) =>
    let len := min 512 (c.mcLen - 512 * p)
    match s.engStep n tag p [(c.body 0 + 512 * p, len)] (0, 0) (fun _ => {}) with
    | .wait t => t
    | .fault f w t => t.meshFault n tag f w
    | .lost t => t.settleMesh n tag 6 0 0
    | .done vs t =>
      let v := vs.headD {}
      let dests := ts.map (fun i => (i, (j.targets.getD i (0, 0)).2))
      (t.setMcast n tag after).pushLink c.mcEngine 4 { vc := 3, dst := c.mcEngine, kind := .mcast n tag p c.mcEngine dests v.bytes v.bad }

/-- The engine of target `t` writes its oldest buffered packet (R370, R371); the last delivery completes the command. -/
def State.mcastWrite (s : State) (n tag t : Nat) : State :=
  match s.mcast? n tag 9, s.mesh.recv.find? (fun b => b.ctx == n && b.tag == tag && b.target == t) with
  | some (_, j), some b =>
    match s.engStep n tag (1000000 + t) [] ((j.targets.getD t (0, 0)).1 + 512 * b.packet, b.bytes.length)
        (fun _ => { bytes := b.bytes, bad := b.bad }) with
    | .wait u => u
    | .fault f w u => u.meshFault n tag f w
    | .lost u => u.settleMesh n tag 6 0 0
    | .done _ u =>
      let u1 := (u.setMesh { u.mesh with recv := u.mesh.recv.erase b }).setMcast n tag (fun j =>
        { j with counts := j.counts.set t (j.counts.getD t 0 + 1) })
      match u1.mcast? n tag 9 with
      | some (_, j1) =>
        if maskCount j1.delivered = j1.targets.length then u1.settleMesh n tag 0 0 j1.delivered else u1.progressFor n tag
      | none => u1
  | _, _ => s

/-- An abort of a multicast before the delivery of its last target (R372). -/
def State.mcastAbort (s : State) (n : Nat) (c : Cmd) (j : McastJob) : State :=
  (s.setCmd n { c with abortRec := true }).settleMesh n c.tag 1 0 j.delivered

/-! ## Gather and scatter (R376, R377) -/

/-- ROW_BYTES of a gather or scatter. -/
def Cmd.gaBytes (c : Cmd) : Nat := bitsOf (c.body 3) 0 17
/-- ENGINE of a gather or scatter. -/
def Cmd.gaEngine (c : Cmd) : Nat := bitsOf (c.body 3) 17 6
/-- ADD of a scatter. -/
def Cmd.gaAdd (c : Cmd) : Bool := bitOf (c.body 3) 23
/-- ADD_INT of a scatter. -/
def Cmd.gaInt (c : Cmd) : Bool := bitOf (c.body 3) 24
/-- COUNT of indices. -/
def Cmd.gaCount (c : Cmd) : Nat := bitsOf (c.body 3) 32 32

/-- The running gather or scatter with a tag and an opcode. -/
def State.gather? (s : State) (n tag op : Nat) : Option (Cmd × GatherJob) :=
  match s.cmd? n tag with
  | some c => if c.op = op then (match c.phase, c.job with | .running, .gather j => some (c, j) | _, _ => none) else none
  | none => none

/-- Replaces the job of a gather or scatter. -/
def State.setGather (s : State) (n tag : Nat) (f : GatherJob → GatherJob) : State :=
  s.updCmd n tag (fun c => match c.job with | .gather j => { c with job := .gather (f j) } | _ => c)

/-- A row added to another, as FP32 or INT32 elements (R368, R376); poisoned operands poison the sum. -/
def addRows (int : Bool) (a b : View) : View :=
  let w := addWords int (a.sumWords 0) (b.sumWords 0)
  { bytes := w.flatMap (fun x => natLE 4 x.toNat), bad := a.bad ++ b.bad }

/-- The fault of a row: where its table row faults, the VA is the address of its index (R377). -/
def rowFault (f : AccFault) (table len index : Nat) : AccFault :=
  if table ≤ f.va ∧ f.va < table + len then { f with va := index } else f

/-- Finishes row `i` whose index is known (R376, R377). -/
def State.gatherRow (s : State) (n : Nat) (c : Cmd) (i idx : Nat) : State :=
  let len := c.gaBytes
  let table := c.body 1 + idx * c.gateStep
  let data := c.body 2 + i * len
  let r := if c.op = 0x0A then s.engStep n c.tag (2 * i + 1) [(table, len)] (data, len) (fun vs => vs.headD {})
    else if c.gaAdd then s.engStep n c.tag (2 * i + 1) [(data, len), (table, len)] (table, len) (fun vs =>
      addRows c.gaInt (vs.getD 1 {}) (vs.getD 0 {}))
    else s.engStep n c.tag (2 * i + 1) [(data, len)] (table, len) (fun vs => vs.headD {})
  match r with
  | .wait t => t
  | .fault f w t => t.meshFault n c.tag (rowFault f table len (c.body 0 + 4 * i)) w
  | .lost t => t.settleMesh n c.tag 6 0 0
  | .done _ t =>
    let t1 := t.setGather n c.tag (fun j => { j with finished := Store.set false j.finished i true })
    match t1.gather? n c.tag c.op with
    | some (_, j1) => if j1.finished.length = j1.total then t1.settleMesh n c.tag 0 0 0 else t1.progressFor n c.tag
    | none => t1

/-- Row `i` of a gather or scatter: its index is read, then the row is moved (R376). -/
def State.gatherTurn (s : State) (n tag op i : Nat) : State :=
  match s.gather? n tag op with
  | none => s
  | some (c, j) =>
    if j.total ≤ i ∨ Store.get false j.finished i then s
    else match Store.get 0 j.index i with
      | k + 1 => s.gatherRow n c i k
      | 0 => match s.engStep n tag (2 * i) [(c.body 0 + 4 * i, 4)] (0, 0) (fun _ => {}) with
        | .wait t => t
        | .fault f w t => t.meshFault n tag f w
        | .lost t => t.settleMesh n tag 6 0 0
        | .done vs t =>
          let v := vs.headD {}
          if !v.bad.isEmpty then t.meshFault n tag { cause := 5, va := c.body 0 + 4 * i } false
          else (t.setGather n tag (fun j => { j with index := Store.set 0 j.index i (v.nat + 1) })).gatherRow n c i v.nat

/-- Whether a gather or scatter is within the ranges R376 and R486 state. -/
def Cmd.gaOk (c : Cmd) : Bool :=
  decide (4 ≤ c.gaBytes ∧ c.gaBytes ≤ 65536) && c.gaBytes % 4 == 0 && decide (c.gaEngine < 36) &&
    bitsOf (c.body 3) 25 7 == 0 && (c.op == 0x0B || bitsOf (c.body 3) 23 2 == 0)

/-- GATHER and SCATTER start, or finish row `i`. -/
def State.gatherCmd (s : State) (n tag op i : Nat) : Host.Outcome State Fault Refusal :=
  match s.cmd? n tag with
  | none => .next s
  | some c =>
    if c.op ≠ op then .next s
    else if c.phase = .dispatched then
      if !c.gaOk then .fault .hostError
      else
        let s1 := s.startJob n c (.gather { total := c.gaCount })
        .next (if c.gaCount = 0 then s1.settleCmd n tag 0 0 0 else s1)
    else .next (s.gatherTurn n tag op i)

/-- An abort of a gather or scatter before its last row (R377). -/
def State.gatherAbort (s : State) (n : Nat) (c : Cmd) (j : GatherJob) : State :=
  (s.setCmd n { c with abortRec := true }).settleMesh n c.tag 1 0 (lowest j.finished j.total)

end Sys2Proof.Machine
end

