-- ==== Sys2Proof/Machine/CollOps.lean ====
section
/-! DEFINITION. Collectives over the fabric: the ring, its chunks and its aborts (R413 to R423). -/

namespace Sys2Proof.Machine

open Sys2Proof

/-! ## The command -/

/-- FMT_IN of a collective. -/
def Cmd.collIn (c : Cmd) : Nat := bitsOf (c.body 2) 14 4
/-- FMT_OUT of a collective. -/
def Cmd.collOut (c : Cmd) : Nat := bitsOf (c.body 2) 18 4
/-- WIRE of a collective. -/
def Cmd.collWire (c : Cmd) : Nat := bitsOf (c.body 2) 22 4

/-- Elements of a shard. -/
def CollJob.shard (j : CollJob) (c : Cmd) : Nat := c.collLen / j.p
/-- Chunks of a shard. -/
def CollJob.chunksOf (j : CollJob) (c : Cmd) : Nat := j.shard c / 1024
/-- Node of the next member. -/
def CollJob.next (j : CollJob) : Nat := j.members.getD ((j.rank + 1) % j.p) 0
/-- Node of the previous member. -/
def CollJob.prev (j : CollJob) : Nat := j.members.getD ((j.rank + j.p - 1) % j.p) 0
/-- Frames the ring brings to a member: one chunk of every other shard in each phase. -/
def CollJob.expected (j : CollJob) (c : Cmd) : Nat := (j.p - 1) * j.chunksOf c * (if c.collKind = 3 then 2 else 1)
/-- The steps of the schedule from a shard's start to rank `rank` (R416). -/
def CollJob.dist (j : CollJob) (s : Nat) : Nat := (j.rank + 2 * j.p - s - 1) % j.p

/-- Whether a command is the collective of a group and sequence number. -/
def Cmd.isColl (c : Cmd) (g seq : Nat) : Bool := c.op == 0x0C && c.group == g && c.seq == seq

/-- The collective of a group and sequence number that runs (true) or still forwards (false), with its context. -/
def State.collAt (s : State) (g seq : Nat) : Option (Nat × Cmd × Bool) :=
  s.ctxs.findSome? (fun (q : Nat × Ctx) =>
    match q.2.cmds.find? (fun (c : Cmd) => c.isColl g seq && c.phase == .running) with
    | some c => some (q.1, c, true)
    | none => (q.2.relays.find? (fun (c : Cmd) => c.isColl g seq)).map (fun c => (q.1, c, false)))

/-- The collective with a tag that runs (true) or still forwards (false). -/
def State.collOf (s : State) (n tag : Nat) : Option (Cmd × Bool) :=
  match (s.ctx n).cmds.find? (fun (c : Cmd) => c.tag == tag && c.op == 0x0C && c.phase == .running) with
  | some c => some (c, true)
  | none => ((s.ctx n).relays.find? (fun (c : Cmd) => c.tag == tag)).map (fun c => (c, false))

/-- The job of a collective. -/
def Cmd.collJob (c : Cmd) : CollJob := match c.job with | .coll j => j | _ => {}

/-- Replaces the job of a collective, running or forwarding. -/
def State.setColl (s : State) (n tag : Nat) (f : CollJob → CollJob) : State :=
  let x := s.ctx n
  let g := fun (c : Cmd) => if c.tag == tag then (match c.job with | .coll j => { c with job := .coll (f j) } | _ => c) else c
  s.setCtx n { x with cmds := x.cmds.map g, relays := x.relays.map g }

/-- Removes a collective that still forwards. -/
def State.dropRelay (s : State) (n tag : Nat) : State :=
  let x := s.ctx n
  s.setCtx n { x with relays := x.relays.filter (fun (c : Cmd) => c.tag != tag) }

/-! ## Frames of the ring -/

/-- A VC0 frame of a collective to a neighbour (R393, R419, R422). -/
def State.ringFrame (s : State) (c : Cmd) (j : CollJob) (dst opc operand : Nat) : Frame :=
  { s.request 0 dst opc 0 0 operand [] 0 with ext := some (s.ext c.group c.seq c.collKind j.rank) }

/-- Sends COLL_ABORT to next and to prev (R422). -/
def State.abortRing (s : State) (c : Cmd) (j : CollJob) (reason : Nat) : State :=
  [j.next, j.prev].foldl (fun (t : State) m => t.sendLoose (t.ringFrame c j m 0x12 reason)) s

/-- Sends a chunk to next: VC3, its element format in WIRE (R396, R416). -/
def State.sendChunk (s : State) (n : Nat) (c : Cmd) (j : CollJob) (phase shard chunk fmt : Nat) (bytes : List Byte) (bad : List Nat) : State :=
  let f := s.request 3 j.next 0x10 0 0 0 bytes (poisonMap (pairRanges fmt bad))
  let e : ExtHdr := { s.ext c.group c.seq c.collKind j.rank with wire := fmt, phase, shard, chunk }
  (s.sendLoose { f with ext := some e }).setColl n c.tag (fun j => { j with sentNext := s.now })

/-! ## The end of a collective -/

/-- Discards the frames held ahead for a command of a group (R420). -/
def State.dropEarly (s : State) (g seq : Nat) : State :=
  { s with fab := { s.fab with early := s.fab.early.filter (fun f => match f.ext with | some x => !(x.group == g && x.seq == seq) | none => true) } }

/-- A collective ends by an abort it received or raised: the status of the reason, and NODE and PEER_SEAL of the result slot
(R422, R423). One past its commit point only stops forwarding (R418). -/
def State.collEnds (s : State) (n tag reason cause node cseal : Nat) : State :=
  match s.collOf n tag with
  | none => s
  | some (c, false) => ((s.dropRelay n tag).dropEarly c.group c.seq).dropXfers n tag
  | some (c, true) =>
    let j := c.collJob
    let status := match reason with | 1 => 1 | 2 => 7 | 3 => 6 | _ => 4
    let s1 := s.setColl n tag (fun j => { j with node := node + 1, peerSeal := cseal })
    (((s1.dropEarly c.group c.seq).dropXfers n tag).progressFor n tag).settleCmd n tag status cause (lowest j.written (c.collChunks j))

/-- A member raises an abort: COLL_ABORT goes to both neighbours and its own command ends (R422). -/
def State.collRaise (s : State) (n tag reason cause node cseal : Nat) : State :=
  match s.collOf n tag with
  | none => s
  | some (c, _) => (s.abortRing c c.collJob reason).collEnds n tag reason cause node cseal

/-- A fault on SRC or DST of a member (R422): the record of R86 and reason FAULT. -/
def State.collFault (s : State) (n tag : Nat) (f : AccFault) (write : Bool) : State :=
  (s.cmdFaultRec n tag 1 0 f write).collRaise n tag 4 f.cause s.node 0

/-- No reply on SRC or DST in remote space (R410): TIMEOUT. -/
def State.collLost (s : State) (n tag : Nat) : State := s.collRaise n tag 3 0 s.node 0

/-- A frame of the ring has been taken or a chunk sent: a member that wrote its last DST chunk completes OK and goes on
forwarding until the ring needs no more of it (R418). -/
def State.collDone (s : State) (n tag : Nat) : State :=
  match s.collOf n tag with
  | none => s
  | some (c, running) =>
    let j := c.collJob
    let above := j.own == j.chunksOf c && j.got == j.expected c
    if running then
      if j.done = c.collChunks j then
        let x := s.ctx n
        let s1 := if above then s else s.setCtx n { x with relays := x.relays ++ [c] }
        (s1.progressFor n tag).settleCmd n tag 0 0 0
      else s.progressFor n tag
    else if above then s.dropRelay n tag else s

/-! ## Chunks (R416, R417) -/

/-- Bytes of a chunk in a format. -/
def chunkBytes (f : Nat) : Nat := 1024 * sumBytes f

/-- Address of a chunk of SRC: of the whole vector, or of this member's shard for AG. -/
def CollJob.srcAt (j : CollJob) (c : Cmd) (shard chunk : Nat) : Nat :=
  c.body 0 + ((if c.collKind = 2 then 0 else shard * j.shard c) + 1024 * chunk) * sumBytes c.collIn
/-- Address of a chunk of DST: of this member's shard for RS. -/
def CollJob.dstAt (j : CollJob) (c : Cmd) (shard chunk : Nat) : Nat :=
  c.body 1 + ((if c.collKind = 1 then 0 else shard * j.shard c) + 1024 * chunk) * sumBytes c.collOut
/-- Number of a DST chunk. -/
def CollJob.dstKey (j : CollJob) (c : Cmd) (shard chunk : Nat) : Nat := (if c.collKind = 1 then 0 else shard * j.chunksOf c) + chunk

/-- Notes a DST chunk as written. -/
def State.noteChunk (s : State) (n : Nat) (c : Cmd) (shard chunk : Nat) (sat nf : Nat) : State :=
  s.setColl n c.tag (fun j => { j with
    written := Store.set false j.written (j.dstKey c shard chunk) true, done := j.done + 1
    sat := satAdd 0xFFFFFFFF j.sat sat, nf := satAdd 0xFFFFFFFF j.nf nf })

/-- Keeps the final values of a chunk of the owned shard for the partial bank of a reduce-scatter's step, to which they are added when
the command completes; INT32 values count as the FP32 values next to them (R266, R416). -/
def State.gateChunk (s : State) (n : Nat) (c : Cmd) (fmt : Nat) (bytes : List Byte) : State :=
  if c.contributes then
    let ws := ({ bytes } : View).sumWords fmt
    let xs := if fmt = 8 then ws.map (fun w => f32ofInt w.toInt) else ws
    s.setColl n c.tag (fun j => { j with gateElems := j.gateElems ++ xs })
  else s

/-- A member sends its next own chunk into the ring (R416): the shard before its own, rounded to WIRE, or for AG its own shard, which
it also writes. -/
def State.collOwn (s : State) (n tag : Nat) : State :=
  match s.collOf n tag with
  | none => s
  | some (c, _) =>
    let j := c.collJob
    if j.chunksOf c ≤ j.own then s
    else
      let k := j.own
      let fi := c.collIn
      if c.collKind = 2 then
        let out := fun (vs : List View) => sumOut c.collOut false ((vs.headD {}).sumWords fi)
        let bad := fun (vs : List View) => (vs.headD {}).badPairs fi
        match s.engStep n tag 0 [(j.srcAt c j.rank k, chunkBytes fi)] (0, 0) (fun _ => {}) with
        | .wait t => t
        | .fault f w t => t.collFault n tag f w
        | .lost t => t.collLost n tag
        | .done vs t =>
          match t.engStep n tag 1 [] (j.dstAt c j.rank k, chunkBytes c.collOut) (fun _ =>
              { bytes := (out vs).1, bad := pairRanges c.collOut (bad vs) }) with
          | .wait u => u
          | .fault f w u => u.collFault n tag f w
          | .lost u => u.collLost n tag
          | .done _ u =>
            let o := out vs
            let u1 := (u.setColl n tag (fun j => { j with own := k + 1 })).noteChunk n c j.rank k o.2.1 o.2.2
            (u1.sendChunk n c j 1 j.rank k c.collOut o.1 (bad vs)).collDone n tag
      else
        let sh := (j.rank + j.p - 1) % j.p
        match s.engStep n tag 0 [(j.srcAt c sh k, chunkBytes fi)] (0, 0) (fun _ => {}) with
        | .wait t => t
        | .fault f w t => t.collFault n tag f w
        | .lost t => t.collLost n tag
        | .done vs t =>
          let v := vs.headD {}
          let o := sumOut c.collWire true (v.sumWords fi)
          ((t.setColl n tag (fun j => { j with own := k + 1 })).sendChunk n c j 0 sh k c.collWire o.1 (v.badPairs fi)).collDone n tag

/-- How the taking of a chunk ends: the frame stays while replies are outstanding. -/
inductive ChunkRes where
  | wait (s : State)
  | done (s : State)

/-- Key of the transfers of a received chunk. -/
def CollJob.chunkKey (j : CollJob) (c : Cmd) (phase shard chunk : Nat) : Nat := 2 + 3 * (2 * (shard * j.chunksOf c + chunk) + phase)

/-- Writes a chunk to DST, then goes on. -/
def State.chunkWrite (s : State) (n : Nat) (c : Cmd) (key shard chunk : Nat) (bytes : List Byte) (bad : List Nat)
    (go : State → State) : ChunkRes :=
  let j := c.collJob
  match s.engStep n c.tag key [] (j.dstAt c shard chunk, chunkBytes c.collOut) (fun _ => { bytes, bad := pairRanges c.collOut bad }) with
  | .wait t => .wait t
  | .fault f w t => .done (t.collFault n c.tag f w)
  | .lost t => .done (t.collLost n c.tag)
  | .done _ t => .done (go t)

/-- Notes a frame of the ring as taken. -/
def State.noteGot (s : State) (n tag : Nat) : State := s.setColl n tag (fun j => { j with got := j.got + 1 })

/-- A member takes a chunk of the reduce phase (R416, R417). -/
def State.chunkReduce (s : State) (n : Nat) (c : Cmd) (x : ExtHdr) (v : View) : ChunkRes :=
  let j := c.collJob
  let d := j.dist x.shard
  let key := j.chunkKey c 0 x.shard x.chunk
  if d = 0 ∨ j.p ≤ x.shard ∨ j.chunksOf c ≤ x.chunk then .done s.countDiscard
  else match s.engStep n c.tag key [(j.srcAt c x.shard x.chunk, chunkBytes c.collIn)] (0, 0) (fun _ => {}) with
  | .wait t => .wait t
  | .fault f w t => .done (t.collFault n c.tag f w)
  | .lost t => .done (t.collLost n c.tag)
  | .done vs t =>
    let own := vs.headD {}
    let sum := addWords (c.collIn == 8) (v.sumWords x.wire) (own.sumWords c.collIn)
    let bad := joinBad (v.badPairs x.wire) (own.badPairs c.collIn)
    if d < j.p - 1 then
      let o := sumOut c.collWire true sum
      .done (((t.sendChunk n c j 0 x.shard x.chunk c.collWire o.1 bad).noteGot n c.tag).collDone n c.tag)
    else
      let o := sumOut c.collOut false sum
      t.chunkWrite n c (key + 1) x.shard x.chunk o.1 bad (fun u =>
        let u1 := ((u.noteChunk n c x.shard x.chunk o.2.1 o.2.2).gateChunk n c c.collOut o.1).noteGot n c.tag
        let u2 := if c.collKind = 3 then u1.sendChunk n c j 1 x.shard x.chunk c.collOut o.1 bad else u1
        u2.collDone n c.tag)

/-- A member takes a chunk of the gather phase (R416): it is written to its shard and passed on. -/
def State.chunkGather (s : State) (n : Nat) (c : Cmd) (x : ExtHdr) (v : View) : ChunkRes :=
  let j := c.collJob
  let key := j.chunkKey c 1 x.shard x.chunk
  if j.p ≤ x.shard ∨ j.chunksOf c ≤ x.chunk ∨ c.collKind = 1 then .done s.countDiscard
  else
    let o := sumOut c.collOut false (v.sumWords x.wire)
    let bad := v.badPairs x.wire
    s.chunkWrite n c key x.shard x.chunk o.1 bad (fun u =>
      let u1 := (u.noteChunk n c x.shard x.chunk 0 0).noteGot n c.tag
      let u2 := if (j.rank + 1) % j.p = x.shard then u1 else u1.sendChunk n c j 1 x.shard x.chunk c.collOut o.1 bad
      u2.collDone n c.tag)

/-- The view of a frame's payload with its poison map (R395). -/
def Frame.view (f : Frame) : View :=
  { bytes := f.payload, bad := ((List.range (ceilDiv f.payload.length 8)).filter (bitOf f.poison)).map (fun w => (8 * w, 8 * w + 8)) }

/-! ## COLL_SEQ and the early area (R414, R420) -/

/-- How far a sequence number lies ahead of a group's base, modulo 2^16 (R414). -/
def State.seqAhead (s : State) (g seq : Nat) : Nat := (seq + 65536 - s.seqBase g) % 65536

/-- Bytes of the frames held ahead. -/
def earlyBytes (l : List Frame) : Nat := (l.map (fun f => f.size)).sum

/-- The early area of a group is full: no further largest frame fits in 1 MiB (R413, R420). -/
def State.earlyFull (s : State) (g : Nat) : Bool :=
  decide (0x100000 < earlyBytes (s.fab.early.filter (fun f => match f.ext with | some x => x.group == g | none => false)) + 4224)

/-- Whether any group's early area is full. -/
def State.anyEarlyFull (s : State) : Bool := s.fab.early.any (fun f => match f.ext with | some x => s.earlyFull x.group | none => false)

/-- Holds a frame ahead of its command. -/
def State.holdEarly (s : State) (f : Frame) : State := { s with fab := { s.fab with early := s.fab.early ++ [f] } }

/-- Returns the VC3 credits withheld, once every early area has room (R420). -/
def State.returnCredits (s : State) : State :=
  if s.anyEarlyFull then s
  else
    let s1 := s.fab.withheld.foldl (fun (t : State) (q : Nat × Nat) =>
      let x := t.port q.1
      t.setPort q.1 { x with freed := addAt x.freed 3 q.2 }) s
    { s1 with fab := { s1.fab with withheld := [] } }

/-- The frames held for a command that starts go back to the inbox, ahead of the rest. -/
def State.releaseEarly (s : State) (g seq : Nat) : State :=
  let hit := fun (f : Frame) => match f.ext with | some x => x.group == g && x.seq == seq | none => false
  ({ s with fab := { s.fab with inbox := s.fab.early.filter hit ++ s.fab.inbox, early := s.fab.early.filter (fun f => !hit f) } }).returnCredits

/-- Notes a frame received from a neighbour (R419). -/
def State.noteHeard (s : State) (n tag src : Nat) : State :=
  s.setColl n tag (fun j => { j with
    heardNext := if j.next = src then s.now else j.heardNext
    heardPrev := if j.prev = src then s.now else j.heardPrev })

/-- Whether the operands of a collective agree with R415. -/
def Cmd.collOk (c : Cmd) (p : Nat) : Bool :=
  c.collLen % (1024 * p) == 0 && sumFmts c.collIn c.collOut && sumFmts c.collIn c.collWire

/-- Every collective whose LIST holds a failed node aborts with reason TIMEOUT, NODE naming it (R435). -/
def State.failColls (s : State) (node : Nat) : State :=
  let all := s.ctxs.flatMap (fun (q : Nat × Ctx) =>
    (((q.2.cmds.filter (fun (c : Cmd) => c.op == 0x0C && c.phase == .running)) ++ q.2.relays).filter (fun (c : Cmd) =>
      c.collJob.members.contains node)).map (fun (c : Cmd) => (q.1, c.tag)))
  all.foldl (fun (t : State) (q : Nat × Nat) => t.collRaise q.1 q.2 3 0 node 0) s

end Sys2Proof.Machine
end

