-- ==== Sys2Proof/Machine/PmuOps.lean ====
section
/-! DEFINITION. Counters, the sample ring and tagging (R563 to R576). -/

namespace Sys2Proof.Machine

open Sys2Proof

/-- Class of a counted unit (R563); 8 for none. -/
def unitClass (u : Nat) : Nat :=
  if u < 36 then 0 else if u < 38 then 1 else if u < 46 then 2 else if u < 48 then 3 else if u = 48 then 4
  else if u < 59 then 5 else if u < 61 then 6 else if u < 63 then 7 else 8

/-- Events a class lists, from event 0 (R568). -/
def classEvents : Nat → Nat
  | 0 => 0x17 | 1 => 0x0A | 2 => 8 | 3 => 8 | 4 => 0x0C | 5 => 7 | 6 => 0x10 | 7 => 0x0E | _ => 0

/-- Counter `c` of unit `u`. -/
def State.ctr (s : State) (u c : Nat) : PmuCtr := Store.get {} s.plat.pmu.ctrs (16 * u + c)
/-- Replaces a counter. -/
def State.setCtr (s : State) (u c : Nat) (x : PmuCtr) : State :=
  s.setPmu { s.plat.pmu with ctrs := Store.set {} s.plat.pmu.ctrs (16 * u + c) x }

/-- EVENT of an event select. -/
def PmuCtr.event (x : PmuCtr) : Nat := bitsOf x.sel.toNat 0 10
/-- ENABLE. -/
def PmuCtr.enable (x : PmuCtr) : Bool := bitOf x.sel.toNat 10
/-- SAMPLE. -/
def PmuCtr.sample (x : PmuCtr) : Bool := bitOf x.sel.toNat 11
/-- OVF. -/
def PmuCtr.ovf (x : PmuCtr) : Bool := bitOf x.sel.toNat 12
/-- QUAL. -/
def PmuCtr.qual (x : PmuCtr) : Nat := bitsOf x.sel.toNat 19 8
/-- Sets OVF. -/
def PmuCtr.setOvf (x : PmuCtr) (b : Bool) : PmuCtr := { x with sel := BitVec.ofNat 32 (putBits x.sel.toNat 12 1 (b2n b)) }

/-- Whether a qualifier names something that counts (R567): of a fabric engine, a port of its own half (R19, R562). -/
def State.qualOk (s : State) (u q : Nat) : Bool :=
  q == 0xFF || match unitClass u with
    | 0 => decide (q < 16) && !s.coreDisabled (16 * u + q)
    | 2 => decide (q < 32) | 6 => decide (q < 17) | 7 => decide (q < s.portCount) && s.portHalf q == u - 61 | _ => true

/-- A Block event that ignores QUAL and CTX_FILTER (R568). -/
def blockWide (e : Nat) : Bool := e == 7 || e == 8 || e == 9 || e == 0x16

/-- Whether an event counts for a counter (R565 to R568). -/
def PmuCtr.matches (x : PmuCtr) (u : Nat) (e : PmuEvent) : Bool :=
  let cls := unitClass u
  e.event == x.event &&
    (blockWide e.event || (cls != 0 && cls != 2 && cls != 6 && cls != 7) || x.qual == 0xFF || x.qual == e.part) &&
    (blockWide e.event || cls != 0 || !bitOf x.sel.toNat 30 || e.ctx == bitsOf x.sel.toNat 27 3 + 1)

/-- Writes a 64-byte record to the sample ring (R573); nothing while it is disabled, counted lost when it is full. -/
def State.sampleRecord (s : State) (rec : List Byte) : State :=
  if !s.flag 0x1440 0 then s
  else
    let size := 2 ^ s.fld 0x1448 0 4
    let tail := s.reg 0x1450
    if wrapSub tail (s.reg 0x144C) ≥ size then s.setReg 0x1454 (satAdd 0xFFFFFFFF (s.reg 0x1454) 1)
    else
      let s1 := s.hostWrite (bitsOf (s.reg64 0x1440) 12 42 * 4096 + 64 * (tail % size)) (rec ++ List.replicate (64 - rec.length) 0)
      (s1.setReg 0x1450 ((tail + 1) % 2 ^ 32)).msixIf (s.flag 0x1410 12) (s.fld 0x1410 0 11)

/-- A sample record (R576). -/
def sampleBytes (u c : Nat) (x : PmuCtr) (e : PmuEvent) (time : Nat) : List Byte :=
  natLE 4 (0xA1 + u * 2 ^ 8 + c * 2 ^ 16 + x.event * 2 ^ 20) ++
    natLE 4 ((if e.ctx = 0 then 0xFF else e.ctx - 1) + x.qual * 2 ^ 8) ++ natLE 8 time ++ natLE 8 e.info ++ natLE 4 e.tag

/-- One clock of counter `c`: `evs` are the events of the clock. -/
def State.tickCtr (s : State) (u : Nat) (evs : List PmuEvent) (c : Nat) : State :=
  let x := s.ctr u c
  let cls := unitClass u
  if !x.enable ∨ x.event / 64 ≠ cls ∨ classEvents cls ≤ x.event % 64 ∨ !s.qualOk u x.qual then s
  else
    let hits := if x.event % 64 = 0 then [{ event := x.event : PmuEvent }] else evs.filter (fun e => x.matches u e)
    let n := (hits.map (·.count)).sum
    let v := x.value + n
    let y := { x with value := v % 2 ^ 48 }
    let s1 := s.setCtr u c (if 2 ^ 48 ≤ v then y.setOvf true else y)
    let l := bitsOf x.sel.toNat 13 6
    if x.sample ∧ x.value / 2 ^ l < v / 2 ^ l then s1.sampleRecord (sampleBytes u c x (hits.getLastD { event := x.event }) s.now) else s1

/-- Whether any OVF is set, which OVF_ANY reads. -/
def State.ovfAny (s : State) : Bool := s.plat.pmu.ctrs.any (fun p => p.2.ovf)

/-! ## Tagging (R574, R575) -/

/-- State of a tagging generator: 0 stands for the seed of its index. -/
def tagState (gen : W32) (index : Nat) : W32 := if gen = 0 then BitVec.ofNat 32 ((index + 1) * 0x9E3779B9) else gen

/-- Whether a new generator state tags an item: `log` low bits all zero, tagging on. -/
def tagHit (gen : W32) (log : Nat) : Bool := log != 0 && gen.toNat % 2 ^ log == 0

/-- Whether TAG_CTRL tags work of a context. -/
def State.tagsCtx (s : State) (n : Nat) : Bool := !s.flag 0x1480 13 || s.fld 0x1480 10 3 == n

/-- Port `p` originates a DATA frame: its generator advances, and the frame may be tagged. -/
def State.tagFrame (s : State) (p : Nat) (f : Frame) : State :=
  let m := s.plat.pmu
  let g := xorshift (tagState (Store.get 0 m.portGen p) (576 + p))
  let owner := match s.txn? f.xid with
    | some t => match t.owner with
      | .core c => some ((s.core c).ctx, (s.core c).tag)
      | .eng n tag _ => some (n, tag) | .sync n tag => some (n, tag) | .mcast n tag _ => some (n, tag) | .rs n tag _ _ => some (n, tag)
    | none => none
  let inCtx := match owner with | some o => s.tagsCtx o.1 | none => !s.flag 0x1480 13
  let hit := tagHit g (s.fld 0x1480 5 5) && inCtx && (Store.get none m.portTag p).isNone
  s.setPmu { m with
    portGen := Store.set 0 m.portGen p g
    portTag := if hit then Store.set none m.portTag p (some { dst := f.dst, opc := f.opc, vc := f.vc, xid := f.xid, len := f.len, t0 := s.now
                                                              tag := (owner.map (·.2)).getD 0 })
      else m.portTag }

end Sys2Proof.Machine
end

