-- ==== Sys2Proof/Machine/LinkOps.lean ====
section
/-! DEFINITION. Ports of the fabric: bringing them up and down, what a lost transaction does, failed nodes, and the frames a port
accepts (R385 to R410, R433 to R437). -/

namespace Sys2Proof.Machine

open Sys2Proof

/-- Replaces what the fabric engines hold. -/
def State.setFab (s : State) (f : Fabric) : State := { s with fab := f }

/-! ## Fabric multicast (R426, R427) -/

/-- Settles a fabric multicast. -/
def State.settleFab (s : State) (n tag status position : Nat) : State :=
  (((s.setFab { s.fab with resends := s.fab.resends.filter (fun r => !(r.ctx == n && r.tag == tag)) }).dropXfers n tag).progressFor n tag).settleCmd
    n tag status 0 position

/-- A fabric multicast whose targets have all been delivered or abandoned completes (R427). -/
def State.fmcastCheck (s : State) (n tag : Nat) : State :=
  match s.mcast? n tag 0x0D with
  | none => s
  | some (_, j) =>
    let all := List.range j.targets.length
    if all.all (fun i => j.counts.getD i 0 == j.total || j.dead.contains i) then
      s.settleFab n tag (if maskCount j.delivered = j.targets.length then 0 else 3) j.delivered
    else s.progressFor n tag

/-- A target gets no more frames (R427). -/
def State.fmcastDead (s : State) (n tag t : Nat) : State :=
  ((s.setFab { s.fab with resends := s.fab.resends.filter (fun r => !(r.ctx == n && r.tag == tag && r.target == t)) }).setMcast n tag
    (fun j => { j with dead := if j.dead.contains t then j.dead else j.dead ++ [t] })).fmcastCheck n tag

/-! ## Samples of the read service (R432) -/

/-- Drops a running sample of an ingest command for a reason; later frames of its requests are stale (R343, R432). -/
def State.sampleFail (s : State) (n tag pos reason : Nat) : State :=
  match s.cmd? n tag with
  | none => s
  | some c => match c.job with
    | .ingest j =>
      match j.samples.find? (fun x => x.pos == pos) with
      | none => s
      | some x =>
        if x.how ≠ .running then s
        else
          let s1 := (x.reqs.filter (fun r => r.sent && !r.done)).foldl (fun (t : State) r =>
            if (t.txn? r.xid).isSome then t.closeTxn r.xid false else t) s
          s1.setCmd n { c with job := .ingest { j with samples := j.samples.map (fun y =>
            if y.pos == pos then { y with how := .dropped reason, slots := [], reqs := [] } else y) } }
    | _ => s

/-! ## Lost transactions (R385, R410, R435) -/

/-- Whether the request XID brings a line for run-ahead only, or for nobody any more. -/
def Core.aheadOnly (k : Core) (xid : Nat) : Bool :=
  k.remote.any (fun r => r.kind == .fill xid) && !k.fills.any (fun f => f.req == xid + 1 && f.owner == 8)

/-- Drops the line fetch of the request XID. -/
def Core.dropFill (k : Core) (xid : Nat) : Core :=
  { k with remote := k.remote.filter (fun r => r.kind != .fill xid), fills := k.fills.filter (fun f => f.req != xid + 1) }

/-- A remote access of a core is lost: a run-ahead fetch is dropped; anything else ends the work (R93, R410). -/
def State.coreLost (s : State) (c node xid : Nat) : State :=
  let k := s.core c
  if k.aheadOnly xid then s.setCore c (k.dropFill xid)
  else if k.remote.any (fun r => r.follows xid) then s.coreTimeout c node xid
  else s

/-- A transaction ends without its reply (R410): what waits for it acts. -/
def State.txnLost (s : State) (xid : Nat) (held : Bool) : State :=
  match s.txn? xid with
  | none => s
  | some t =>
    let s1 := s.closeTxn xid held
    match t.owner with
    | .core c => s1.coreLost c t.node xid
    | .eng n tag key =>
      match s1.xfer? n tag key with
      | none => s1
      | some x => (s1.putXfer { x with xids := x.xids.filter (· != xid), fail := 2 }).e2eRecord n tag t.node xid
    | .sync n tag => s1.e2eRecord n tag t.node xid
    | .mcast n tag target => (s1.e2eRecord n tag t.node xid).fmcastDead n tag target
    | .rs n tag pos _ => s1.sampleFail n tag pos 5

/-- The XIDs of the active transactions that satisfy `p`. -/
def State.activeXids (s : State) (p : Txn → Bool) : List Nat :=
  (s.fab.txns.filter (fun q => q.2.active && p q.2)).map (fun q => q.1 * 256 + q.2.gen)

/-- Ends every active transaction that satisfies `p`. -/
def State.loseAll (s : State) (p : Txn → Bool) : State := (s.activeXids p).foldl (fun (t : State) x => t.txnLost x false) s

/-! ## Ports -/

/-- Sends a frame that this device originated and that lost its port; with no port left its transaction ends (R402). -/
def State.rerouteFrame (s : State) (f : Frame) : State :=
  match s.sendFrame f with
  | some t => t
  | none => if f.src = s.node then s.countDiscard.txnLost f.xid false else s.countDiscard

/-- A port goes down (R400, R436): it trains again while it is enabled; frames not covered are lost, frames waiting take another
port. -/
def State.portDown (s : State) (p : Nat) : State :=
  let x := s.port p
  if x.phase = .down then s
  else
    let again := s.flag 0x600 15 && s.flag (portCtrl p) 0
    let s1 := s.setPort p { phase := if again then .training else .down, out := x.out }
    if x.phase ≠ .up then s1
    else
      let s2 := ((s1.setFlag (portCtrl p) 8 false).setFlag (portCtrl p) 10 true).fabricEventAll
        (fabricRecord 0x81 p (s.peerNode p) 0 0 0 s.time32)
      x.queue.foldl (fun (t : State) q => t.rerouteFrame q.2) s2

/-- A port starts to train (R385, R386); while a seal is computed, ports wait for it. -/
def State.portTrain (s : State) (p : Nat) : State :=
  if s.flag 0x600 15 ∧ !s.flag 0x600 17 ∧ s.flag (portCtrl p) 0 ∧ p < s.portCount ∧ (s.port p).phase = .down then
    s.setPort p { phase := .training, out := (s.port p).out }
  else s

/-- The blocks the S1 grants on VC0 to VC3 (R398). -/
def s1Grant : List Nat := [32, 512, 256, 2048]

/-- Sends a HELLO on a port (R397). -/
def State.sendHello (s : State) (p : Nat) : State :=
  s.putLink p (.hello s.node p (s.flag (portCtrl p) 3) (s.flag 0x600 14) (s.flag (portCtrl p) 1) (s.port p).heard s1Grant)

/-- A port comes up (R397, R399). -/
def State.portUpNow (s : State) (p : Nat) : State :=
  let x := s.port p
  ((s.setPort p { phase := .up, heard := true, peerPort := x.peerPort, peerMac := x.peerMac, grant := x.grant, out := x.out, sentAt := s.now, heardAt := s.now
                  progressAt := s.now }).setFlag (portCtrl p) 8 true).setFlag (portCtrl p) 9 false

/-- Resends from the oldest uncovered frame; the fifth time without LACK progress the port goes down (R399, R534). -/
def State.resend (s : State) (p : Nat) : State :=
  let x := s.port p
  if x.uncovered.isEmpty then s
  else if 4 ≤ x.resends then s.portDown p
  else
    let again := x.uncovered.map (fun (q : Nat × Frame) => s.onWire p (.data q.1 x.lastSeq (x.freed.map (· % 65536)) q.2))
    (s.setPort p { x with out := x.out ++ again, resends := x.resends + 1, progressAt := s.now, sentAt := s.now, lackDue := 0 }).countReplay 0x0B p

/-- LACK covers a frame (R399). -/
def covers (lack f : Nat) : Bool := decide ((lack + 65536 - f) % 65536 < 32768)

/-- A valid frame reports LACK and credits (R398, R399). -/
def State.noteLink (s : State) (p lack : Nat) (credit : List Nat) : State :=
  let x := s.port p
  let left := x.uncovered.filter (fun (q : Nat × Frame) => !covers lack q.1)
  let moved := left.length < x.uncovered.length
  s.setPort p { x with
    uncovered := left, peerCredit := credit, heardAt := s.now
    resends := if moved then 0 else x.resends, progressAt := if moved then s.now else x.progressAt }

/-- Sends a CONTROL frame, which reports LACK and credits (R399, R400). -/
def State.sendControl (s : State) (p : Nat) : State :=
  let x := s.port p
  (s.setPort p { x with lackDue := 0 }).putLink p (.control x.lastSeq (x.freed.map (· % 65536)))

/-- Sends a REPLAY_REQ that names the last good frame (R399). -/
def State.sendReplayReq (s : State) (p : Nat) : State :=
  let x := s.port p
  (s.setPort p { x with lackDue := 0 }).putLink p (.replayReq x.lastSeq (x.freed.map (· % 65536)))

/-- Whether a port may send a frame now: credit, the 17 blocks of class 0, and the replay window (R398, R399, R403). -/
def State.mayTransmit (s : State) (p : Nat) (f : Frame) : Bool :=
  let x := s.port p
  let used := (x.sentBlocks.getD f.vc 0 + 65536 * 65536 - x.peerCredit.getD f.vc 0) % 65536 + f.blocks
  let grant := x.grant.getD f.vc 0
  decide (used + (if f.cls = 0 then 17 else 0) ≤ grant) && decide (x.uncovered.length < 32768)

/-! ## Failed nodes (R433 to R435) -/

/-- A node is marked failed on news from port `from_` (none where it came otherwise): the port's PEER_FAILED, a record, FAIL on every
other port, and what R435 lists. -/
def State.markFailed (s : State) (node : Nat) (from_ : Nat) : State :=
  let s0 := if s.peerNode from_ = node then s.setFlag (portCtrl from_) 9 true else s
  if s0.nodeFailed node ∨ node = s0.node then s0
  else
    let s1 := (s0.setFab { s0.fab with failed := Store.set false s0.fab.failed node true }).fabricEventAll
      (fabricRecord 0x80 from_ node 0 0 0 s0.time32)
    let s2 := (s1.upPorts.filter (· != from_)).foldl (fun (t : State) p =>
      let x := t.port p
      t.setPort p { x with queue := (t.now, t.failFrame p node) :: x.queue }) s1
    let s3 := (s2.loseAll (fun t => t.node == node)).failColls node
    let facing := (List.range 24).filter (fun p => s3.portUp p && s3.peerNode p == node)
    (facing.foldl (fun (t : State) p => t.portDown p) s3).failGates

/-- Targets of running fabric multicasts on a failed node are not delivered (R435). -/
def State.failMcasts (s : State) (node : Nat) : State :=
  let all := s.ctxs.flatMap (fun (q : Nat × Ctx) => (q.2.cmds.filter (fun (c : Cmd) => c.op == 0x0D && c.phase == .running)).flatMap (fun (c : Cmd) =>
    match c.job with
    | .mcast j => ((List.range j.targets.length).filter (fun i => (j.targets.getD i (0, 0)).2 == node)).map (fun i => (q.1, c.tag, i))
    | _ => []))
  all.foldl (fun (t : State) (q : Nat × Nat × Nat) => t.fmcastDead q.1 q.2.1 q.2.2) s

/-- A FAIL or FENCED names a failed node (R434). -/
def State.nodeFails (s : State) (node port : Nat) : State :=
  if s.nodeFailed node then s.markFailed node port else (s.markFailed node port).failMcasts node

/-! ## Accepting a DATA frame -/

/-- The reply to a request (R393): SRC and DST crosswise, the XID, ADDR and OPERAND copied where its row says so. -/
def State.replyTo (s : State) (f : Frame) (opc status : Nat) (payload : List Byte) (poison : Nat) : State :=
  s.sendLoose { vc := 1, src := s.node, dst := f.src, opc, xid := f.xid, status, addr := f.addr, payload, poison }

/-- Opcodes an S1 takes (R393). -/
def knownOpc (o : Nat) : Bool := [1, 2, 3, 4, 5, 6, 0x10, 0x11, 0x12, 0x13, 0x14, 0x21, 0x22, 0x30].contains o

/-- The multicast frames delivered and not yet written, one to a multicast buffer of 4 KiB (R426). -/
def State.mcastWaiting (s : State) : Nat := s.fab.inbox.countP (fun f => f.opc == 6)

/-- A DATA frame in sequence: a multicast frame that finds all 64 buffers taken is answered BUSY (R426); else discarded when it is too old or from a failed node, delivered to this node, or passed on (R393, R402,
R405, R434). -/
def State.takeFrame (s : State) (f : Frame) : State :=
  if s.nodeFailed f.src ∧ f.opc ≠ 0x30 then s.countDiscard
  else if 1000 ≤ f.age then s.countDiscard
  else if f.opc = 0x30 then s.setFab { s.fab with inbox := s.fab.inbox ++ [f] }
  else if f.dst ≠ s.node then s.sendLoose f
  else if f.opc = 6 ∧ 64 ≤ s.mcastWaiting then s.replyTo f 4 5 [] 0
  else if knownOpc f.opc then s.setFab { s.fab with inbox := s.fab.inbox ++ [f] }
  else if f.vc = 1 then s.countDiscard
  else s.replyTo f 4 6 [] 0

/-- The blocks of a frame are free again; those of VC3 are withheld while an early area is full (R398, R420). -/
def State.freeBlocks (s : State) (p : Nat) (f : Frame) : State :=
  if f.vc = 3 ∧ s.anyEarlyFull then
    s.setFab { s.fab with withheld := Store.set 0 s.fab.withheld p (Store.get 0 s.fab.withheld p + f.blocks) }
  else
    let x := s.port p
    s.setPort p { x with freed := addAt x.freed f.vc f.blocks }

/-! ## The configuration seal (R428, R429) -/

/-- The 160 bytes the seal digests. -/
def State.sealBytes (s : State) : List Byte :=
  natBE 32 s.plat.boot.measurement ++ natLE 4 (s.reg 0x600 &&& 0x4000) ++ List.replicate 28 0 ++
    (List.range 8).flatMap (fun i => natLE 4 (s.reg (0x540 + 4 * i))) ++ (List.range 16).flatMap (fun i => natLE 4 (s.reg (0x6C0 + 4 * i)))

/-- The seal comes into force: word i of CONFIG_SEAL holds bits [32i + 31:32i] of the digest as a big-endian integer. Ports that
waited for it are brought up (R385). -/
def State.applySeal (s : State) : State :=
  let d := sm3 s.sealBytes
  let s1 := (List.range 8).foldl (fun (t : State) i => t.setReg (0xC0 + 4 * i) (d / 2 ^ (32 * i))) s
  let s2 := ((s1.setFlag 0x600 17 false).setFlag 0x600 18 true).measureSeal
  (List.range 24).foldl (fun (t : State) p => t.portTrain p) s2

/-- ENABLE changes from 0 to 1 (R385): the seal is computed and every COLL_SEQ cleared; the ports come up when the seal is in force. -/
def State.fabricOn (s : State) : State :=
  let s1 := (s.setFlag 0x600 15 true).setFlag 0x600 17 true
  s1.setFab { s1.fab with collSeq := [] }

/-- ENABLE changes from 1 to 0 (R385): every port goes down and every outstanding transaction ends. -/
def State.fabricOff (s : State) : State :=
  let s1 := s.setFlag 0x600 15 false
  ((List.range 24).foldl (fun (t : State) p => t.portDown p) s1).loseAll (fun _ => true)

end Sys2Proof.Machine
end

