-- ==== Sys2Proof/Machine/Colls.lean ====
section
/-! DEFINITION. The commands of collectives (R413 to R423). -/

namespace Sys2Proof.Machine

open Sys2Proof

/-- COLL (R415, R416, R420): a dispatched collective is checked and starts; a running or forwarding one sends its next own chunk. -/
def execColl (n tag : Nat) (s : State) : Host.Outcome State Fault Refusal :=
  match s.cmd? n tag with
  | some c =>
    if c.op = 0x0C ∧ c.phase = .dispatched then
      match s.group? c.group with
      | none => .fault .hostError
      | some e =>
        if c.collKind = 0 ∨ bitsOf (c.body 2) 26 6 ≠ 0 then .fault .hostError
        else
          let j : CollJob := { p := e.p, rank := e.rank, members := e.members, sentNext := s.now, sentPrev := s.now
                               heardNext := s.now, heardPrev := s.now }
          let bad := e.members.find? s.nodeFailed
          let s1 := s.startJob n c (.coll j)
          if !c.collOk e.p then .next (s1.collRaise n tag 4 1 s.node 0)
          else match bad with
            | some f => .next (s1.collRaise n tag 3 0 f 0)
            | none => .next ((s1.releaseEarly c.group c.seq).collDone n tag)
    else .next (s.collOwn n tag)
  | none => .next (s.collOwn n tag)

/-- The handling of a frame of a collective by its COLL_SEQ (R414, R420): used by `use`, held ahead, or stale. -/
def State.bySeq (s t : State) (f : Frame) (use : Nat → Cmd → ExtHdr → State) : State :=
  match f.ext with
  | none => t.countDiscard
  | some x => match t.collAt x.group x.seq with
    | some (n, c, _) => use n c x
    | none => if t.seqAhead x.group x.seq < 32768 ∧ (s.group? x.group).isSome then t.holdEarly f else t.countFabStale

/-- A frame whose SEAL differs ends the collective with reason MISMATCH (R421). -/
def State.sealDiffers (s : State) (n : Nat) (c : Cmd) (f : Frame) (x : ExtHdr) : State :=
  (s.mismatchRecord f.src x.cfgSeal).collRaise n c.tag 2 0 s.node x.cfgSeal

/-- COLL_FRAME (R414 to R421): a chunk of the ring is added to or stored, and passed on. -/
def execCollFrame (s : State) : Host.Outcome State Fault Refusal :=
  match s.takeOpc 0x10 with
  | none => .next s
  | some (f, t) => .next (s.bySeq t f (fun n c x =>
    if x.cfgSeal ≠ t.seal64 then t.sealDiffers n c f x
    else
      let t1 := t.noteHeard n c.tag f.src
      let c1 := (t1.collOf n c.tag).elim c (·.1)
      let r := if x.phase = 0 ∧ c.collKind ≠ 2 then t1.chunkReduce n c1 x f.view else t1.chunkGather n c1 x f.view
      match r with
      | .done u => u
      | .wait u => { u with fab := { u.fab with inbox := f :: u.fab.inbox } }))

/-- HEARTBEAT (R419, R421): a neighbour of the ring is alive. -/
def execHeartbeat (s : State) : Host.Outcome State Fault Refusal :=
  match s.takeOpc 0x11 with
  | none => .next s
  | some (f, t) => .next (s.bySeq t f (fun n c x =>
    if x.cfgSeal ≠ t.seal64 then t.sealDiffers n c f x else t.noteHeard n c.tag f.src))

/-- COLL_ABORT (R421, R422): the command ends with the reason, and the abort goes on in its direction until the next member is the one
it came from first. One that arrives ahead of its command is held. -/
def execCollAbort (s : State) : Host.Outcome State Fault Refusal :=
  match s.takeOpc 0x12 with
  | none => .next s
  | some (f, t) => match f.ext with
    | none => .next t.countDiscard
    | some x => match t.group? x.group with
      | none => .next t.countDiscard
      | some e =>
        let hit := t.collAt x.group x.seq
        if hit.isNone ∧ t.seqAhead x.group x.seq < 32768 ∧ x.kind ≠ 4 then .next (t.holdEarly f)
        else
          let dst := if f.src = e.prev then e.next else e.prev
          let origin := e.members.getD x.rank 0
          let t1 := if dst = origin ∨ x.kind = 4 then t
            else t.sendLoose { t.request 0 dst 0x12 0 0 f.operand [] 0 with ext := some { x with cfgSeal := t.seal64 } }
          match hit with
          | some (n, c, _) =>
            let reason := bitsOf f.operand 0 8
            .next (t1.collEnds n c.tag reason 0 origin (if reason = 2 then x.cfgSeal else 0))
          | none => .next t1

/-- HEARTBEAT_TIMER (R419): a member that has sent a neighbour no frame of the running command for 25 µs sends it a HEARTBEAT. -/
def execHeartbeatTimer (n tag : Nat) (s : State) : Host.Outcome State Fault Refusal :=
  match s.collOf n tag with
  | some (c, true) =>
    let j := c.collJob
    let s1 := if j.sentNext + 25000 ≤ s.now then
      (s.sendLoose (s.ringFrame c j j.next 0x11 0)).setColl n tag (fun j => { j with sentNext := s.now }) else s
    let s2 := if j.sentPrev + 25000 ≤ s.now then
      (s1.sendLoose (s.ringFrame c j j.prev 0x11 0)).setColl n tag (fun j => { j with sentPrev := s.now }) else s1
    .next s2
  | _ => .next s

/-- COLL_SILENCE_TIMEOUT (R419): a neighbour has sent no frame of the running command for 100 µs. -/
def execCollSilenceTimeout (n tag : Nat) (s : State) : Host.Outcome State Fault Refusal :=
  match s.collOf n tag with
  | some (c, true) =>
    let j := c.collJob
    if j.heardNext + 100000 ≤ s.now ∨ j.heardPrev + 100000 ≤ s.now then .next (s.collRaise n tag 3 0 s.node 0) else .next s
  | _ => .next s

end Sys2Proof.Machine
end

