-- ==== Sys2Proof/Machine/Sync.lean ====
section
/-! DEFINITION. The sync instructions, the fences, the end of work, and the wake wires (R211 to R218, R451 to R454). -/

namespace Sys2Proof.Machine

open Sys2Proof

/-- SYNC_ABANDONED or BARRIER_OVERRUN of the instruction at the core's pc (R221). -/
def State.syncFault (s : State) (c cause h w : Nat) : State := s.faultHere c cause (hIndex h + hGen h * 2 ^ 16) w

/-- PERMISSION_FAULT or POISON_CONSUMED of a sync instruction (R221, R445). -/
def State.objAccFault (s : State) (c cause h : Nat) : State := s.accFault c (s.objFault cause h) false false

/-- Whether a queued tile access of memory has not completed (R213, R217). -/
def Core.hasMem (k : Core) : Bool := k.queue.any QEntry.isMem

/-- A reserved bit of a handle (R211). -/
def handleReserved (h : Nat) : Bool := decide (2 ^ 39 ≤ h)

/-- The requests of the core's remote accesses of memory that are on their way, run-ahead and other line fetches apart (R89, R90). -/
def Core.remoteXids (k : Core) : List Nat :=
  k.remote.flatMap (fun r => match r.kind with | .fill _ => [] | .signal _ _ _ _ => [] | _ => r.xids)

/-- SIG (R90, R213, R411, R447). It waits for queued tile accesses; on a remote handle it issues and is sent once the core's earlier
remote accesses have been performed, its destination being held meanwhile. -/
def execSig (c : Nat) (b : Body) (s : State) : Host.Outcome State Fault Refusal :=
  issueO c b 0x70 0x3FFFFFFFF s (fun w =>
    let k := s.core c
    let h := (k.sreg (fA w)).toNat
    let v := (k.sreg (fB w)).toNat % 2 ^ 48
    if syMode w = 3 then .next (s.illegal c w)
    else if handleReserved h then .fault .reservedBits
    else if k.hasMem then .next s
    else if s.hRemote h then
      .next (if k.remoteXids.isEmpty then (s.signalRemote k.ctx k.tag h v (syMode w)).writeS c (fD w) 0
        else (s.advance c).addRemote c { xids := k.remoteXids, kind := .signal (fD w) h v (syMode w), va := 0 })
    else
      let r := s.signalObj h v (syMode w)
      .next (match r.1 with
        | .wrongKind => r.2.objAccFault c 3 h
        | .poisoned => r.2.objAccFault c 5 h
        | .overrun => r.2.syncFault c 9 h w
        | x => r.2.writeS c (fD w) (BitVec.ofNat 64 x.word)))

/-- A WAIT of core `c` returns with a status and the word for sd; a satisfied one invalidates every demand line (R118, R214). -/
def State.waitReturn (s : State) (c sd status word : Nat) : State :=
  let k := s.core c
  let k1 := { k with run := .running, wait := {}, lastDone := s.now }
  let k2 := if status = 0 then k1.dropDemandLines else k1
  s.setCore c ((k2.setS sd (BitVec.ofNat 64 word)).advance s.now)

/-- A core that sleeps leaves the waiter summary of its object: the Block's bit is cleared when no other of its cores waits on it
(R215, R451). -/
def State.leaveWait (s : State) (c : Nat) : State :=
  let k := s.core c
  let blk := coreBlock c
  let others := (List.range 16).map (16 * blk + ·) |>.filter (· != c)
  let e := s.obj k.wait.index
  if k.run = .asleep ∧ k.wait.valid ∧ bitOf e.blocks blk ∧
      !others.any (fun m => let j := s.core m; j.run == .asleep && j.wait.valid && j.wait.index == k.wait.index)
  then s.setObj k.wait.index { e with blocks := e.blocks - 2 ^ blk } else s

/-- The core enters the waiter summary of an object and sleeps (R214, R451). -/
def State.sleepOn (s : State) (c : Nat) (r : WaitRec) : State :=
  let k := s.core c
  let e := s.obj r.index
  let blk := coreBlock c
  let blocks := if bitOf e.blocks blk then e.blocks else e.blocks + 2 ^ blk
  (s.setObj r.index { e with blocks }).setCore c { k with
    run := .asleep, wait := r, pausedAt := if k.run = .asleep then k.pausedAt else s.now }

/-- The atomic check of a WAIT, and what the core does on it (R214). The record `r` holds the wait. -/
def State.waitCheck (s : State) (c : Nat) (r : WaitRec) (w : Nat) : State :=
  let h := r.handle
  let q := s.waitObj h r.mode r.thr
  match q.1 with
  | .stale => q.2.waitReturn c r.sd 1 (1 * 2 ^ 62)
  | .abandoned => q.2.syncFault c 8 h w
  | .wrongKind => q.2.objAccFault c 3 h
  | .poisoned => q.2.objAccFault c 5 h
  | .met n => q.2.waitReturn c r.sd 0 (waitResult 0 r.mode n)
  | .no n =>
    if r.timed && decide (r.deadline ≤ s.now) then q.2.waitReturn c r.sd 2 (waitResult 2 r.mode n)
    else q.2.sleepOn c r

/-- WAIT (R214). -/
def execWait (c : Nat) (b : Body) (s : State) : Host.Outcome State Fault Refusal :=
  issueO c b 0x71 0x3FFFFFFFF s (fun w =>
    let k := s.core c
    let h := (k.sreg (fA w)).toNat
    let t := (k.sreg (fC w)).toNat
    if syMode w = 3 then .next (s.illegal c w)
    else if handleReserved h then .fault .reservedBits
    else if s.hRemote h then .next (s.objAccFault c 3 h)
    else .next (s.waitCheck c
      { valid := true, index := hIndex h, gen := hGen h, mode := syMode w, thr := (k.sreg (fB w)).toNat % 2 ^ 48,
        timed := t != 0, deadline := s.now + t, sd := fD w, handle := h, word := BitVec.ofNat 64 w } w))

/-- SPOLL (R216). -/
def execSpoll (c : Nat) (b : Body) (s : State) : Host.Outcome State Fault Refusal :=
  issueO c b 0x72 0x3FFFFFFFF s (fun w =>
    let h := ((s.core c).sreg (fA w)).toNat
    if syMode w ≠ 0 then .next (s.illegal c w)
    else if handleReserved h then .fault .reservedBits
    else if s.hRemote h then .next (s.objAccFault c 3 h)
    else if s.objPoisoned (hIndex h) then .next (s.objAccFault c 5 h)
    else .next (s.writeS c (fD w) (BitVec.ofNat 64 ((s.obj (hIndex h)).word0 % 2 ^ 60))))

/-- MFENCE (R89, R217): it waits for queued tile accesses, with N for remote accesses; local and host accesses are performed
when they issue. -/
def execMfence (c : Nat) (b : Body) (s : State) : Host.Outcome State Fault Refusal :=
  issue c b 0x78 0x9FFFFFFFFF0000 s (fun w =>
    let k := s.core c
    if k.hasMem || (ctN w && !k.remoteXids.isEmpty) then s
    else s.retire c Core.dropDemandLines)

/-- Whether every instruction of the core has completed: its tile queue is empty and no remote access or signal is outstanding; line
fetches of run-ahead are no instruction's (R218). -/
def Core.settled (k : Core) : Bool :=
  k.queue.isEmpty && k.remote.all (fun r => match r.kind with | .fill _ => true | _ => false)

/-- END (R169, R218): after every issued instruction has completed, the work ends, run-ahead with it; a member that waits for the core
at a rendezvous sees MEMBER_ENDED. -/
def execEndWork (c : Nat) (b : Body) (s : State) : Host.Outcome State Fault Refusal :=
  issue c b 0x02 0x9FFFFFFFFF0000 s (fun _ =>
    if !(s.core c).settled then s
    else State.runBreaks s ((s.setCore c (s.core c).dropDemandLines).endWork c .ended) (s.breaksOf c 3 0 (s.groupsOf c)) c)

/-- A woken core acts on the snapshot (R453). -/
def State.wakeCore (s : State) (c snap : Nat) : State :=
  let k := s.core c
  let r := k.wait
  let s1 := s.setCore c { k with lastDone := k.lastDone + (s.now - k.pausedAt), pausedAt := s.now }
  match readSnap snap r.gen r.mode r.thr with
  | .stale => s1.waitReturn c r.sd 1 (1 * 2 ^ 62)
  | .abandoned => s1.syncFault c 8 r.handle r.word.toNat
  | .met => s1.waitReturn c r.sd 0 (waitResult 0 r.mode (snap % 2 ^ 48))
  | _ => s1.waitCheck c r r.word.toNat

/-- WAKE_FLIT_ARRIVAL (R452 to R454): Block `b` accepts its oldest wake flit and every core that waits on its index wakes. -/
def execWakeFlitArrival (b : Nat) (s : State) : Host.Outcome State Fault Refusal :=
  match s.sync.flits.find? (fun f => f.block == b) with
  | none => .next s
  | some f =>
    let s1 := { s with sync := { s.sync with flits := s.sync.flits.erase f } }
    let who := ((List.range 16).map (16 * b + ·)).filter (fun c =>
      let k := s.core c
      k.run == .asleep && k.wait.valid && k.wait.index == f.index)
    .next (who.foldl (fun (t : State) c => if (t.core c).run == .asleep then t.wakeCore c f.snap else t) s1)

/-- WAIT_DEADLINE (R214, R454, R461): the deadline of core `c`'s WAIT has passed. On a frozen entry it times out at once; else
the check runs once more. -/
def execWaitDeadline (c : Nat) (s : State) : Host.Outcome State Fault Refusal :=
  let k := s.core c
  let r := k.wait
  if k.run ≠ .asleep ∨ !r.timed ∨ s.now < r.deadline then .next s
  else
    let s1 := s.setCore c { k with lastDone := k.lastDone + (s.now - k.pausedAt), pausedAt := s.now }
    let e := s.obj r.index
    if e.frozen ∧ e.gen = r.gen ∧ e.kind ≠ 3 then .next (s1.waitReturn c r.sd 2 (waitResult 2 r.mode e.counter))
    else .next (s1.waitCheck c r r.word.toNat)

end Sys2Proof.Machine
end

