-- ==== Sys2Proof/Machine/CoreCtl.lean ====
section
/-! DEFINITION. Stopping and resuming cores, the watchdog, debug halt and Block reset (R124 to R132, R501, R536). -/

namespace Sys2Proof.Machine

open Sys2Proof

/-- Whether a core has work. -/
def Core.busy (k : Core) : Bool := k.run != .idle

/-- The cores in one group with those listed, through any chain of groups; `fuel` bounds the chain (R130, R169). -/
def State.groupClosure (s : State) : Nat → List Nat → List Nat
  | 0, cs => cs
  | fuel + 1, cs =>
    let more := nub (cs ++ cs.flatMap (fun c => (s.groupsOf c).flatMap (fun code =>
      (stitchMembers code c).filter (fun m => (s.core m).busy))))
    if more.length = cs.length then cs else s.groupClosure fuel more

/-! ## The resume record (R127) -/

/-- The 32 bytes of a stream descriptor in force (R133). -/
def Stream.toBytes (x : Stream) : List Byte :=
  natLE 8 x.base.toNat ++ natLE 8 x.stride.toNat ++ natLE 4 x.runItems ++ natLE 4 x.runs ++
    natLE 4 (x.depth + x.stpDepth * 2 ^ 8 + b2n x.item256 * 2 ^ 16) ++ natLE 4 0

/-- The 32 bytes of a replay entry. -/
def Replay.toBytes (r : Replay) : List Byte :=
  natLE 8 r.word.toNat ++ (List.range 3).flatMap (fun i => natLE 8 (r.vals.getD i 0).toNat)

/-- The resume record of a stopped core, 0x300 bytes; unused parts are zero (assumption 15). -/
def Core.resumeRecord (k : Core) : List Byte :=
  let declared := (List.range 8).filter (fun n => (k.stream n).declared)
  natLE 4 (k.pc % 2 ^ 20) ++ natLE 4 (k.replay.length + k.ctx * 2 ^ 8) ++ natLE 4 k.savedLive.toNat ++
    natLE 4 (declared.map (2 ^ ·)).sum ++ (List.range 8).flatMap (fun n => natLE 8 (k.stream n).pos) ++
    List.replicate 0xB0 0 ++ (List.range 8).flatMap (fun i => (k.replay.getD i {}).toBytes) ++
    (List.range 8).flatMap (fun n => if (k.stream n).declared then (k.stream n).toBytes else List.replicate 32 0)

/-! ## Stopping (R124 to R128) -/

/-- The front of the tile queue that a stop lets complete: releases and drain configurations with nothing abandoned before them (R106,
R124). The core after them and the entries left. -/
def Core.finishFront (k : Core) : List QEntry → Core × List QEntry
  | [] => (k, [])
  | e :: es =>
    let m := BitVec.ofNat 16 (ctMask e.word.toNat)
    if e.op = 0x43 then { k with live := k.live &&& ~~~m, dirty := k.dirty ||| (k.live &&& m) }.finishFront es
    else if e.op = 0x59 then { k with dcfg := tcCfg e.word.toNat }.finishFront es
    else (k, e :: es)

/-- Steps 1 and 2 of R124, with every run-ahead line discarded (R128): issue stops, tile work becomes replay entries, but for what can
complete in front of it; a WAIT that has not returned is abandoned (R215). -/
def Core.beginStop (k : Core) (now : Nat) : Core :=
  let asleep := k.run == .asleep
  let front := (k.discardAhead (fun _ => true)).finishFront k.queue
  let replay := front.2.map (fun e => ({ word := e.word, pc := e.pc, vals := e.vals, holds := e.holds } : Replay))
  let streams := front.1.streams.map (fun p => (p.1, { p.2 with issued := p.2.pos, ahead := 0, paused := 0 }))
  { front.1 with
    stop := false, stopping := true, run := .running, wait := {}, queue := [], fills := [], aheadWait := [], rowRetries := 0
    bobbins := [], replay, streams
    remote := k.remote.filter (fun r => match r.kind with | .fill _ => false | _ => true)
    pausedAt := if asleep then k.pausedAt else now }

/-- Steps 3 and 4 of R124 once no access is outstanding: the resume record is written and Town Hall holds the registers, or
the work ends when the stop is an abort's (R113, R124, R127, R499). -/
def State.finishStop (s : State) (c : Nat) : State :=
  let k := s.core c
  if !k.stopping || !k.remote.isEmpty then s
  else if k.killed then s.endWork c .aborted
  else
    let k1 := { k with
      run := .stopped, stopping := false, savedT := k.t, savedLive := k.live, t := [], live := 0
      dirty := k.dirty ||| k.live }
    (s.setCore c k1).csWrite c 0xFF000 k1.resumeRecord

/-- A debug operation completes (R131, R132). -/
def State.dbgDone (s : State) : State := (({ s with dbg := .none }.setFlag 0x390 19 false).setFlag 0x390 21 true).showHalted

/-- The Block's logic at its reset state, its cores' registers being held (R132). -/
def Core.resetLogic (k : Core) : Core :=
  { k with lines := [], fills := [], power := [], dirty := 0, queue := [], bobbins := [], aheadWait := [], wait := {} }

/-- The cores of a Block (R11). -/
def blockCores (b : Nat) : List Nat := (List.range 16).map (16 * b + ·)

/-- Whether core `c` works and has not stopped. -/
def State.active (s : State) (c : Nat) : Bool := let k := s.core c; k.run == .running || k.run == .asleep

/-- The debug operation in progress goes on when its cores have stopped or resumed (R131, R132). -/
def State.dbgProgress (s : State) : State :=
  match s.dbg with
  | .none => s
  | .halt cs => if cs.any s.active then s else s.dbgDone
  | .resume cs => if cs.any (fun c => let k := s.core c; k.run == .stopped && !k.halted && !s.ctxPreempt k.ctx) then s else s.dbgDone
  | .resetResume cs => if cs.any (fun c => let k := s.core c; k.run == .stopped && !k.halted && !s.ctxPreempt k.ctx) then s else s.dbgDone
  | .resetStop b =>
    if (blockCores b).any s.active then s
    else
      let s1 := (blockCores b).foldl (fun (t : State) c => t.setCore c (t.core c).resetLogic) s
      let back := (blockCores b).filter (fun c => let k := s.core c; k.run == .stopped && !k.halted && !s.ctxPreempt k.ctx)
      if back.isEmpty then s1.dbgDone else { s1 with dbg := .resetResume back }

/-- The cores of context `n` that work. -/
def State.ctxCores (s : State) (n : Nat) : List Nat := (s.cores.filter (fun p => p.2.busy && p.2.ctx == n)).map (·.1)

/-- Whether context `n` owns a frozen entry. -/
def State.anyFrozen (s : State) (n : Nat) : Bool := (s.ownedObjs n).any (fun i => (s.obj i).frozen)

/-- The context without its settled commands: a reset writes no record for them (R502). -/
def State.dropSettled (s : State) (n : Nat) : State :=
  let x := s.ctx n
  s.setCtx n { x with cmds := x.cmds.filter (fun (c : Cmd) => c.phase != .settled) }

/-- STATE of context `n` follows its cores and commands: 0 once a disabled context has written its last record or a reset has ended,
2 once every core has stopped, 1 with FROZEN cleared once every core runs again (R461, R479, R501, R502). -/
def State.ctxProgress (s : State) (n : Nat) : State :=
  let st := s.ctxState n
  let x := s.ctx n
  if !s.ctxEnabled n ∧ (st = 1 ∨ st = 2) ∧ x.cmds.isEmpty ∧ x.held.isEmpty then s.setFld (ctxCtrl n) 4 2 0
  else if s.ctxPreempt n ∧ st = 1 ∧ !((s.ctxCores n).any s.active) then s.setFld (ctxCtrl n) 4 2 2
  else if !s.ctxPreempt n ∧ st ≠ 3 ∧ (st = 2 ∨ s.anyFrozen n) ∧
      !((s.ctxCores n).any (fun c => let k := s.core c; k.run == .stopped && !k.halted)) then
    let s1 := (if st = 2 then s.setFld (ctxCtrl n) 4 2 1 else s).thawCtx n
    s1.cores.foldl (fun (t : State) p => t.startNext p.1) s1
  else if st = 3 ∧ (s.ctxCores n).isEmpty then
    let s1 := s.dropSettled n
    if (s1.ctx n).cmds.isEmpty then (s1.setFlag (ctxCtrl n) 0 false).setFld (ctxCtrl n) 4 2 0 else s1
  else s

/-- What follows when cores have stopped, resumed or ended. -/
def State.progress (s : State) : State := ((List.range 8).foldl State.ctxProgress s).dbgProgress

/-- The stop of core `c` when it ends the work: a group that holds a core of another command breaks with MEMBER_ENDED (R169). -/
def State.killBreaks (s : State) (c : Nat) : State :=
  let k := s.core c
  let codes := (s.groupsOf c).filter (fun code => (stitchMembers code c).any (fun m =>
    let j := s.core m
    !(j.busy && j.ctx == k.ctx && j.tag == k.tag)))
  State.runBreaks s s (s.breaksOf c 3 0 codes) c

/-- Begins the stop of core `c`, halted when `by` names the core of a debug halt. -/
def State.stopCore (s : State) (c by_ : Nat) : State :=
  let s1 := s.leaveWait c
  let k := s1.core c
  (s1.setCore c { k.beginStop s.now with halted := k.halted || by_ != 0, haltedBy := if by_ = 0 then k.haltedBy else by_ }).finishStop c

/-- Takes the stop of core `c` and of every core in a group with it (R124, R130). A core drawn in by a debug halt is halted
too (R131). -/
def State.takeStop (s : State) (c : Nat) : State :=
  let k := s.core c
  if k.killed then (s.killBreaks c).stopCore c 0
  else
    let cs := (s.groupClosure 16 [c]).filter s.active
    cs.foldl (fun (t : State) m => if t.active m && !(t.core m).stopping then t.stopCore m (if k.halted then k.haltedBy else 0) else t) s

/-- CORE_STOP (R124 to R128, R215): core `c` takes a requested stop, or completes it once its outstanding accesses have. -/
def execCoreStop (c : Nat) (s : State) : Host.Outcome State Fault Refusal :=
  let k := s.core c
  if k.stopping then .next (s.finishStop c).progress
  else if k.stop && s.active c then .next (s.takeStop c).progress
  else .next s.progress

/-- Puts a stopped core back to work: registers restored, banks of live tile registers awake, replay entries in the queue
(R113, R126, R128). -/
def Core.resumed (k : Core) (now : Nat) : Core :=
  let power := (List.range 4).foldl (fun (p : Store BankPower) b =>
    if (k.savedLive.toNat / 2 ^ (4 * b)) % 16 ≠ 0 then Store.set .gated p b .awake else p) k.power
  let queue := (k.replay.foldl (fun (acc : List QEntry × Core) r =>
    let w := r.word.toNat
    let e : QEntry := { word := r.word, pc := r.pc, vals := r.vals, holds := r.holds }
    if bitsOf w 56 8 = 0x42 then
      let n := tmStream w
      let x := acc.2.stream n
      (acc.1 ++ [{ e with first := x.issued }], acc.2.setStream n { x with issued := x.issued + shRows w })
    else (acc.1 ++ [e], acc.2)) ([], k))
  { queue.2 with
    run := .running, t := k.savedT, live := k.savedLive, savedT := [], savedLive := 0, power, queue := queue.1, replay := []
    dirty := k.dirty &&& ~~~ k.savedLive, lastDone := k.lastDone + (now - k.pausedAt) }

/-- Whether a stopped core may resume: not halted, its context not pre-empted, its Block not being reset. -/
def State.mayResume (s : State) (c : Nat) : Bool :=
  let k := s.core c
  k.run == .stopped && !k.halted && !s.ctxPreempt k.ctx && s.dbg != .resetStop (coreBlock c)

/-- The stitch codes of the group instructions a stopped core replays. -/
def Core.replayCodes (k : Core) : List Nat :=
  nub (k.replay.filterMap (fun r =>
    if bitsOf r.word.toNat 56 8 = 0x50 ∧ bitsOf r.word.toNat 0 3 ≠ 0 then some (bitsOf r.word.toNat 0 3) else none))

/-- The stopped cores joined to those listed by the group instructions they replay, through any chain of placements; `fuel` bounds the
chain (R169). -/
def State.replayClosure (s : State) : Nat → List Nat → List Nat
  | 0, cs => cs
  | fuel + 1, cs =>
    let more := nub (cs ++ cs.flatMap (fun c => (s.core c).replayCodes.flatMap (fun code =>
      (stitchMembers code c).filter (fun m => let k := s.core m; k.run == .stopped && k.replayCodes.contains code))))
    if more.length = cs.length then cs else s.replayClosure fuel more

/-- CORE_RESUME (R126, R128, R130, R169): core `c`, if it may resume, goes on with its replay entries, together with every member of its
stopped groups; none goes on before all may. -/
def execCoreResume (c : Nat) (s : State) : Host.Outcome State Fault Refusal :=
  let cs := s.replayClosure 16 [c]
  if cs.all s.mayResume then
    .next (cs.foldl (fun (t : State) m => t.setCore m ((t.core m).resumed s.now)) s).progress
  else .next s

/-- LIMIT_MS of context `n` (WDOG_CTRL). -/
def State.watchdogMs (s : State) (n : Nat) : Nat := s.fld (0x880 + 4 * n) 0 16

/-- CORE_WATCHDOG (R221, R536): a core none of whose instructions has completed for LIMIT_MS ms ends its work. -/
def execCoreWatchdog (c : Nat) (s : State) : Host.Outcome State Fault Refusal :=
  let k := s.core c
  let lim := s.watchdogMs k.ctx
  if k.run = .running ∧ !k.stopping ∧ lim ≠ 0 ∧ k.lastDone + lim * 1000000 ≤ s.now then
    .next (s.instrFault c 0xB k.pc 0 0).progress
  else .next s

/-! ## DBG_CTRL (R131, R132) -/

/-- DBG_HALT (R131): a write of DBG_CTRL with HALT for core `c`. -/
def execDbgHalt (c : Nat) (s : State) : Host.Outcome State Fault Refusal :=
  if !s.ready then .next s
  else if 576 ≤ c then .fault .hostError
  else
    let s0 := s.setFld 0x390 0 10 c
    if s.flag 0x390 19 then .next s
    else if !s.coreGood c || !(s.core c).busy then .next s0.dbgDone
    else
      let cs := s0.groupClosure 16 [c]
      let s1 := cs.foldl (fun (t : State) m =>
        let k := t.core m
        t.setCore m { k with halted := true, haltedBy := c + 1, stop := k.stop || t.active m }) s0
      .next ({ s1 with dbg := .halt cs }.setFlag 0x390 19 true).progress

/-- Core `c` and every core halted with it, by the same halt (R131). -/
def State.haltedWith (s : State) (c : Nat) : List Nat :=
  let by_ := (s.core c).haltedBy
  nub (c :: (s.cores.filter (fun p => p.2.halted && by_ != 0 && p.2.haltedBy == by_)).map (·.1))

/-- DBG_RESUME (R131): a write of DBG_CTRL with RESUME for core `c`. -/
def execDbgResume (c : Nat) (s : State) : Host.Outcome State Fault Refusal :=
  if !s.ready then .next s
  else if 576 ≤ c then .fault .hostError
  else
    let s0 := s.setFld 0x390 0 10 c
    if s.flag 0x390 19 then .next s
    else if !(s.core c).halted then .next s0.dbgDone
    else
      let cs := s0.haltedWith c
      let s1 := cs.foldl (fun (t : State) m => t.setCore m { t.core m with halted := false, haltedBy := 0, stop := false }) s0
      .next ({ s1 with dbg := .resume cs }.setFlag 0x390 19 true).progress

/-- BLOCK_RESET (R132): a write of DBG_CTRL with BLOCK_RESET for Block `b`. -/
def execBlockReset (b : Nat) (s : State) : Host.Outcome State Fault Refusal :=
  if !s.ready then .next s
  else if 36 ≤ b then .fault .hostError
  else if s.flag 0x390 19 then .next s
  else
    let s0 := s.setFld 0x390 12 6 b
    let s1 := (blockCores b).foldl (fun (t : State) m =>
      let k := t.core m
      if t.active m then t.setCore m { k with stop := true } else t) s0
    .next ({ s1 with dbg := .resetStop b }.setFlag 0x390 19 true).progress

end Sys2Proof.Machine
end

