-- ==== Sys2Proof/Machine/Compute.lean ====
section
/-! DEFINITION. Compute commands, fill batches and DMA (R174 to R177, R489, R490, R497, R499). -/

namespace Sys2Proof.Machine

open Sys2Proof

/-! ## Launch records (R489) -/

/-- The core mask of a launch record. -/
def lrCores (r : Nat) : Nat := recField r 0x48 72
/-- The BATCH address of a launch record. -/
def lrBatch (r : Nat) : Nat := recField r 0x90 8
/-- S1 to S7 of a launch record. -/
def lrArgs (r : Nat) : List W64 := (List.range 7).map (fun i => BitVec.ofNat 64 (recField r (0x10 + 8 * i) 8))
/-- A reserved bit of a launch record that is set (R16, R504). -/
def lrReserved (r : Nat) : Bool := bitsOf r 20 12 != 0 || recField r 0x98 0x68 != 0

/-- Whether a core mask is empty or names a core that is absent or disabled (R489). -/
def State.maskBad (s : State) (m : Nat) : Bool := m == 0 || (List.range 576).any (fun c => bitOf m c && !s.coreGood c)

/-- Hands the work of a launch record to every core it names (R489). -/
def State.startCores (s : State) (n tag r : Nat) (args : List W64) : State :=
  let w : Work := { ctx := n, tag, pc := recField r 0 4 % 2 ^ 20, args, seed := BitVec.ofNat 32 (recField r 4 4) }
  ((List.range 576).filter (bitOf (lrCores r))).foldl (fun (t : State) c =>
    let k := t.core c
    (t.setCore c { k with works := k.works ++ [w] }).startNext c) s

/-- Starts the program of a launch record for a command, with the requests of its batch (R489, R490). -/
def State.launch (s : State) (n : Nat) (c : Cmd) (r : Nat) (args : List W64) (batch : List Nat) : State :=
  let job : ComputeJob := { named := lrCores r, slot := recField r 8 8, batch }
  if s.maskBad (lrCores r) then
    s.setCmd n { c.settle 4 1 0 with job := .compute { job with gone := lrCores r } }
  else (s.startJob n c (.compute job)).startCores n c.tag r args

/-! ## Fill batches (R174 to R177, R490) -/

/-- The fill job of a command. -/
def Cmd.fillJob? (c : Cmd) : Option FillJob := match c.job with | .fill j => some j | _ => none

/-- The fill requests of context `n` held under a key, in arrival order. -/
def State.heldFills (s : State) (n key : Nat) : List Cmd :=
  (s.ctx n).cmds.filter (fun (c : Cmd) => c.phase == .running && match c.job with | .fill j => j.leader == 0 && j.key == key | _ => false)

/-- HELD of FILL_CTRL counts the requests held (R177). -/
def State.countHeld (s : State) (n : Nat) : State :=
  let k := (s.ctx n).cmds.countP (fun (c : Cmd) => c.phase == .running && match c.job with | .fill j => j.leader == 0 | _ => false)
  s.setFld (0x500 + 4 * n) 16 16 (min k 0xFFFF)

/-- Rows held under a key. -/
def fillRows (cs : List Cmd) : Nat := (cs.map (fun (c : Cmd) => (c.fillJob?.map (·.rows)).getD 0)).sum

/-- The batch table: one entry a request, in arrival order (R490). -/
def batchTable (cs : List Cmd) : List Byte :=
  (cs.foldl (fun (acc : Nat × List Byte) (c : Cmd) =>
    match c.fillJob? with
    | none => acc
    | some j => (acc.1 + j.rows,
        acc.2 ++ natLE 8 (recField j.lrec 0x10 8) ++ natLE 8 (c.tag % 2 ^ 32 + acc.1 * 2 ^ 32 + j.rows * 2 ^ 40))) (0, [])).2

/-- The followers of a batch end with their leader: each is settled with its status, its cause and the totals of its cores, and names its
own statistics slot, unless the batch started no core (R175, R253, R603). -/
def State.settleBatch (s : State) (n : Nat) (lead : Cmd) (stats : Store ConvStats) (named : Nat) (slots : Bool) (tags : List Nat) : State :=
  tags.foldl (fun (t : State) tag => t.updCmd n tag (fun c =>
    let slot := match c.fillJob? with | some f => if slots then recField f.lrec 8 8 else 0 | none => 0
    { c.settle lead.status lead.cause 0 with job := .compute { named, gone := named, stats, slot, lead := lead.tag + 1 } })) s

/-- The batch under a leader starts: its table is written, and the launch record of the leader, its oldest request, runs once (R175,
R490). A table in remote space is waited for; one that cannot be written ends the batch before any core starts (R603). -/
def State.startBatch (s : State) (n tag : Nat) : State :=
  match s.cmd? n tag with
  | none => s
  | some lead => match lead.fillJob? with
    | none => s
    | some j =>
      let cs := lead :: j.batch.filterMap (s.cmd? n)
      let r := j.lrec
      let fail := fun (t : State) (status cause : Nat) =>
        let c1 := { lead.settle status cause 0 with job := .compute { named := lrCores r, gone := lrCores r } }
        (t.updCmd n tag (fun d => { c1 with evt := d.evt })).settleBatch n c1 [] (lrCores r) false j.batch
      match s.thWrite n tag (hallKey 0) (lrBatch r) { bytes := batchTable cs } with
      | .wait t => t
      | .lost t => fail t 6 0
      | .ok 0 t =>
        let args := (lrArgs r).take 5 ++ [BitVec.ofNat 64 (lrBatch r), BitVec.ofNat 64 cs.length]
        t.launch n ((t.cmd? n tag).getD lead) r args j.batch
      | .ok cause t => fail t 4 cause

/-- Dispatches a batch under its oldest request (R175). -/
def State.dispatchBatch (s : State) (n : Nat) (cs : List Cmd) : State :=
  match cs with
  | [] => s
  | lead :: rest => match lead.fillJob? with
    | none => s
    | some j =>
      let s1 := rest.foldl (fun (t : State) (c : Cmd) => match c.fillJob? with
        | some f => t.setCmd n { c with job := .fill { f with leader := lead.tag + 1 } }
        | none => t) s
      let tags := rest.map (fun (c : Cmd) => c.tag)
      ((s1.setCmd n { lead with job := .fill { j with leader := lead.tag + 1, batch := tags } }).countHeld n).startBatch n lead.tag

/-- TIMEOUT_US of FILL_CTRL (R177). -/
def State.fillUs (s : State) (n : Nat) : Nat := s.fld (0x500 + 4 * n) 0 14

/-- A fill request joins its batch, which is dispatched when it is full, when the request would overfill it, or at once (R174,
R177). -/
def State.joinFill (s : State) (n : Nat) (c : Cmd) (r key rows : Nat) : State :=
  let held := s.heldFills n key
  let above := 64 < fillRows held + rows
  let s1 := if above then s.dispatchBatch n held else s
  let c1 := { c with phase := .running, job := .fill { since := s.now, key, rows, lrec := r } }
  let s2 := (s1.setCmd n c1).countHeld n
  let now := s2.heldFills n key
  if 64 ≤ fillRows now ∨ s2.fillUs n = 0 then s2.dispatchBatch n now else s2

/-- The tag under which the batch of a dispatched fill request waits for its table (R490, R408). -/
def Cmd.batchLead? (c : Cmd) : Option Nat :=
  match c.phase, c.job with
  | .running, .fill j => if j.leader = c.tag + 1 then some c.tag else none
  | _, _ => none

/-- COMPUTE (R174, R489): starts the launch record's program on every named core, or holds a fill request; goes on with a batch whose
table is being written. -/
def execCompute (n tag : Nat) (s : State) : Host.Outcome State Fault Refusal :=
  match s.cmd? n tag with
  | none => .next s
  | some c =>
    if c.op ≠ 1 then .next s
    else if c.batchLead? = some tag then .next (s.startBatch n tag)
    else if c.phase ≠ .dispatched then .next s
    else
      let rows := bitsOf (c.body 1) 16 7
      if 64 < rows ∨ c.body 0 % 256 ≠ 0 ∨ c.body 1 / 2 ^ 23 ≠ 0 ∨ (rows ≠ 0 ∧ 10000 < s.fillUs n) then .fault .hostError
      else match s.thRead n tag (hallKey 0) [(c.body 0, 256)] true with
        | .again t => .next t
        | .wait t => .next t
        | .lost t => .next (t.settleCmd n tag 6 0 0)
        | .fault cause t => .next (t.settleCmd n tag 4 cause 0)
        | .ok xs t =>
          let r := xs.headD 0
          if lrReserved r ∨ (rows ≠ 0 ∧ lrBatch r % 256 ≠ 0) then .fault .hostError
          else if rows = 0 then .next (t.launch n c r (lrArgs r) [])
          else .next (t.joinFill n c r (bitsOf (c.body 1) 0 16) rows)

/-- FILL_TIMEOUT (R174, R501): the oldest held request of a key has been held for TIMEOUT_US, and its batch is dispatched. -/
def execFillTimeout (n key : Nat) (s : State) : Host.Outcome State Fault Refusal :=
  let held := s.heldFills n key
  match held.head?.bind Cmd.fillJob? with
  | none => .next s
  | some j =>
    if j.since + 1000 * s.fillUs n ≤ s.now ∧ !s.ctxPreempt n ∧ s.ctxState n ≠ 3 then .next (s.dispatchBatch n held) else .next s

/-- A running compute command is aborted before its last core ends (R499); fill requests only while held (R176). -/
def State.computeAbort (s : State) (n : Nat) (c : Cmd) (j : ComputeJob) : Option State :=
  if !j.batch.isEmpty ∨ bitsOf (c.body 1) 16 7 ≠ 0 ∨ c.aborted then none
  else
    let left := (List.range 576).filter (fun i => bitOf j.named i && !bitOf j.gone i)
    let s1 := s.setCmd n { c with aborted := true, abortRec := true }
    some (left.foldl (fun (t : State) i =>
      let k := t.core i
      if k.busy && k.ctx == n && k.tag == c.tag then
        (if k.run = .stopped then t.endWork i .aborted else t.setCore i { k with stop := true, killed := true })
      else
        (t.setCore i { k with works := k.works.filter (fun w => !(w.ctx == n && w.tag == c.tag)) }).updCmd n c.tag
          (fun d => d.coreEnded i {} .aborted)) s1)

/-! ## DMA (R66, R497) -/

/-- SRC, DST and LENGTH of a DMA. -/
def dmaLen (c : Cmd) : Nat := c.body 2 % 2 ^ 40
/-- Bytes of unit `u`. -/
def dmaUnit (c : Cmd) (u : Nat) : Nat := min 65536 (dmaLen c - 65536 * u)

/-- Issues units in ascending order while fewer than 16 are in flight (R497). -/
def DmaJob.issue : Nat → DmaJob → DmaJob
  | 0, j => j
  | fuel + 1, j =>
    if j.stopped || decide (j.total ≤ j.next) || decide (16 ≤ j.flying.length) then j
    else DmaJob.issue fuel { j with next := j.next + 1, flying := j.flying ++ [j.next] }

/-- Settles a DMA once no unit is in flight and none will be issued (R66, R497, R499). -/
def State.dmaSettle (s : State) (n : Nat) (c : Cmd) (j : DmaJob) : State :=
  let s1 := (s.setCmd n { c with job := .dma j }).progressFor n c.tag
  if !j.flying.isEmpty ∨ (!j.stopped ∧ j.next < j.total) then s1
  else if j.fcause ≠ 0 then s1.settleCmd n c.tag 4 j.fcause 0
  else if j.timeout then s1.settleCmd n c.tag 6 0 0
  else if j.stopped ∧ j.next < j.total then s1.settleCmd n c.tag 1 0 (65536 * j.next)
  else if j.poisoned ≠ 0 then s1.cmdFault n c.tag 1 0 { cause := 5, va := j.poisoned - 1 } false 0
  else s1.settleCmd n c.tag 0 0 0

/-- DMA (R497): issues the first units of a copy. -/
def execDma (n tag : Nat) (s : State) : Host.Outcome State Fault Refusal :=
  match s.cmd? n tag with
  | none => .next s
  | some c =>
    if c.op ≠ 2 ∨ c.phase ≠ .dispatched then .next s
    else
      let len := dmaLen c
      let src := c.body 0
      let dst := c.body 1
      if c.body 2 / 2 ^ 40 ≠ 0 ∨ (len ≠ 0 ∧ src < dst + len ∧ dst < src + len) then .fault .hostError
      else
        let j := DmaJob.issue 16 { total := ceilDiv len 65536 }
        let s1 := s.startJob n c (.dma j)
        if len = 0 then .next (s1.settleCmd n tag 0 0 0) else .next s1

/-- A unit in flight ends with a change of the job; the next unit is issued (R497). -/
def State.dmaUnitEnds (s : State) (n tag u : Nat) (f : DmaJob → DmaJob) : State :=
  match s.cmd? n tag with
  | none => s
  | some c => match c.job with
    | .dma j => s.dmaSettle n c (DmaJob.issue 1 (f { j with flying := j.flying.erase u }))
    | _ => s

/-- A unit that faulted: its record is written and no further unit is issued (R73). -/
def State.dmaFault (s : State) (n tag u : Nat) (f : AccFault) (write : Bool) : State :=
  (s.cmdFaultRec n tag 1 0 f write).dmaUnitEnds n tag u (fun j =>
    { j with stopped := true, fcause := if j.fcause = 0 && !j.timeout then f.cause else j.fcause })

/-- DMA_UNIT_COMPLETE (R66, R73, R408, R410, R497, R503): unit `u` in flight is copied. -/
def execDmaUnitComplete (n tag u : Nat) (s : State) : Host.Outcome State Fault Refusal :=
  match s.cmd? n tag with
  | none => .next s
  | some c => match c.phase, c.job with
    | .running, .dma j =>
      if !j.flying.contains u then .next s
      else
        let len := dmaUnit c u
        let src := c.body 0 + 65536 * u
        let dst := c.body 1 + 65536 * u
        match s.engXlate n src len false with
        | .error f => .next (s.dmaFault n tag u f false)
        | .ok ps => match s.engXlate n dst len true with
          | .error f => .next (s.dmaFault n tag u f true)
          | .ok pd => match s.engHostCheck n ps with
            | some (f, bus) => .next ((s.hostReadError n bus).dmaFault n tag u f false)
            | none =>
              match s.engNow n tag u (s.remoteRanges ps ++ s.remoteEdges pd) with
              | .wait t => .next t
              | .refused w pa t => .next (t.dmaFault n tag u (refusedAt ps pd w pa).1 (refusedAt ps pd w pa).2)
              | .lost t => .next (t.dmaUnitEnds n tag u (fun j =>
                  { j with stopped := true, timeout := j.timeout || j.fcause == 0 }))
              | .done t => .next (t.dmaUnitEnds n tag u (fun j => { j with done := j.done + 1 }))
              | .go buf bad t0 =>
                let v := t0.view buf bad ps
                let t := t0.noteReads n false ps
                let hostParts := (pd.foldl (fun (acc : Nat × List (Nat × Nat)) q =>
                  (acc.1 + q.2.2, match t.space q.2.1 with | .host _ => acc.2 ++ [(acc.1, acc.1 + q.2.2)] | _ => acc.2)) (0, [])).2
                let hit := v.bad.find? (fun b => hostParts.any (fun h => decide (b.1 < h.2 ∧ h.1 < b.2)))
                let note := fun (j : DmaJob) => match hit with
                  | some b => if j.poisoned = 0 then { j with poisoned := (src + b.1) - (src + b.1) % 8 + 1 } else j
                  | none => j
                match t.engPut n tag u buf bad [(pd, v)] with
                | .lost t1 => .next (t1.dmaUnitEnds n tag u (fun j =>
                    { j with stopped := true, timeout := j.timeout || j.fcause == 0 }))
                | .ok true t1 => .next (t1.updCmd n tag (fun c => match c.job with | .dma j => { c with job := .dma (note j) } | _ => c))
                | .ok false t1 => .next (t1.dmaUnitEnds n tag u (fun j => { note j with done := j.done + 1 }))
    | _, _ => .next s

/-- An abort of a DMA before the issue of its last unit (R499). -/
def State.dmaAbort (s : State) (n : Nat) (c : Cmd) (j : DmaJob) : Option State :=
  if j.stopped ∨ j.total ≤ j.next then none
  else some (s.dmaSettle n { c with abortRec := true } { j with stopped := true })

end Sys2Proof.Machine
end

