-- ==== Sys2Proof/Machine/Counters.lean ====
section
/-! DEFINITION. The commands of the counters, the Tape and the tags (R564 to R576). -/

namespace Sys2Proof.Machine

open Sys2Proof

/-- PMU_CLEAR (R565): a write of PMU_GLOBAL; CLEAR zeroes every counter and OVF. -/
def execPmuClear (v : W32) (s : State) : Host.Outcome State Fault Refusal :=
  if !s.ready then .next s
  else
    let s1 := s.setReg 0x1008 (bitsOf v.toNat 0 1)
    if bitOf v.toNat 1 then
      .next (s1.setPmu { s1.plat.pmu with ctrs := s1.plat.pmu.ctrs.foldl (fun (m : Store PmuCtr) p =>
        Store.set {} m p.1 (({ p.2 with value := 0 } : PmuCtr).setOvf false)) [] })
    else .next s1

/-- PMU_COUNT_WRITE (R565): VALUE of counter `c` of the unit PMU_UNIT selects. -/
def execPmuCountWrite (c : Nat) (v : W64) (s : State) : Host.Outcome State Fault Refusal :=
  let u := s.fld 0x1000 0 6
  if !s.ready ∨ 16 ≤ c ∨ u = 63 then .next s else .next (s.setCtr u c { s.ctr u c with value := v.toNat % 2 ^ 48 })

/-- COUNTER_TICK (R565 to R568, R572): one clock of unit `u` with the events it brought. Nothing counts while FREEZE is set or
after a fatal error. -/
def execCounterTick (u : Nat) (evs : List PmuEvent) (s : State) : Host.Outcome State Fault Refusal :=
  if 63 ≤ u ∨ !s.ready ∨ s.flag 0x1008 0 then .next s
  else .next ((List.range 16).foldl (fun (t : State) c => t.tickCtr u evs c) s)

/-- A stage time of a tag record: 0xFFFFFFFF for one not reached. -/
def stageTime (l : List Nat) (i : Nat) : List Byte := natLE 4 (l.getD i 0xFFFFFFFF)

/-- TAG_RECORD (R576): the tagged item of core `index`, or of port `index - 576`, ends: `a` is ABANDONED or RESENT, `b` FAULTED or
TIMEOUT, and `stages` the times from T0 of the stages it reached. -/
def execTagRecord (index : Nat) (a b : Bool) (stages : List Nat) (s : State) : Host.Outcome State Fault Refusal :=
  if s.boot = 7 then .next s
  else if index < 576 then
    match (s.core index).tagItem with
    | none => .next s
    | some i =>
      .next ((s.setCore index { s.core index with tagItem := none }).sampleRecord
        (natLE 4 (0xA2 + i.ctx * 2 ^ 8 + index * 2 ^ 16) ++ natLE 4 (i.pc % 2 ^ 20 + b2n a * 2 ^ 20 + b2n b * 2 ^ 21) ++ natLE 8 i.word ++
          natLE 8 i.t0 ++ stageTime stages 0 ++ stageTime stages 1 ++ stageTime stages 2 ++ stageTime stages 3 ++ natLE 4 i.tag))
  else
    let p := index - 576
    match Store.get none s.plat.pmu.portTag p with
    | none => .next s
    | some i =>
      .next ((s.setPmu { s.plat.pmu with portTag := Store.set none s.plat.pmu.portTag p none }).sampleRecord
        (natLE 4 (0xA3 + p * 2 ^ 8 + i.dst * 2 ^ 16) ++ natLE 4 (i.opc + i.vc * 2 ^ 8 + b2n a * 2 ^ 10 + b2n b * 2 ^ 11) ++ natLE 4 i.xid ++
          natLE 4 i.len ++ natLE 8 i.t0 ++ stageTime stages 0 ++ stageTime stages 1 ++ stageTime stages 2 ++ natLE 4 i.tag))

/-- The 128 bytes of a unit block (R571). -/
def State.unitBlock (s : State) (u : Nat) : List Byte :=
  (List.range 16).flatMap (fun c =>
    let x := s.ctr u c
    natLE 8 (x.value % 2 ^ 48 + x.event * 2 ^ 48 + b2n x.enable * 2 ^ 58 + b2n x.ovf * 2 ^ 59))

/-- TAPE_SNAPSHOT (R570, R571): at the due time the included units are latched into a ring slot, or the snapshot is counted
lost. -/
def execTapeSnapshot (s : State) : Host.Outcome State Fault Refusal :=
  let m := s.plat.pmu
  if !s.ready ∨ !s.flag 0x1400 0 ∨ m.snapDue = 0 ∨ s.now + 1 < m.snapDue then .next s
  else
    let interval := s.fld 0x1408 4 20
    let next := s.setPmu { m with snap := m.snap + 1, snapDue := m.snapDue + interval * 1000 }
    let size := 2 ^ s.fld 0x1408 0 4
    let tail := s.reg 0x1424
    if size ≤ wrapSub tail (s.reg 0x1420) then .next (next.setReg 0x1428 (satAdd 0xFFFFFFFF (s.reg 0x1428) 1))
    else
      let mask := s.reg64 0x1418 % 2 ^ 63
      let units := (List.range 63).filter (bitOf mask)
      let slot := natLE 4 (0xA0 + 2 ^ 8 + units.length * 2 ^ 16) ++ natLE 4 m.snap ++ natLE 8 s.now ++ natLE 8 s.now ++ natLE 8 mask ++
        natLE 4 interval ++ natLE 4 (s.reg 0x1428) ++ List.replicate 24 0 ++ units.flatMap s.unitBlock
      let s1 := next.hostWrite (bitsOf (s.reg64 0x1400) 13 41 * 8192 + 8192 * (tail % size)) slot
      .next ((s1.setReg 0x1424 ((tail + 1) % 2 ^ 32)).msixIf (s.flag 0x1410 11) (s.fld 0x1410 0 11))

/-- TIMESTAMP_READ (R464, R509): `part` 0 reads the low half and latches the high half, 1 reads the latched half, 2 reads all 64
bits. Before READY the register reads as its reset value. -/
def execTimestampRead (part : Nat) (s : State) : Host.Outcome State Fault Refusal :=
  let t := if s.boot = 5 ∨ s.boot = 7 then s.now else 0
  let p := s.plat
  .next (match part with
    | 0 => s.setPlat { p with tsHigh := t / 2 ^ 32, answers := p.answers ++ [.reg (t % 2 ^ 32)] }
    | 1 => s.setPlat { p with answers := p.answers ++ [.reg p.tsHigh] }
    | _ => s.setPlat { p with answers := p.answers ++ [.reg (t % 2 ^ 64)] })

end Sys2Proof.Machine
end

