-- ==== Sys2Proof/Machine/Mesh.lean ====
section
/-! DEFINITION. The commands of the meshes and the gather engines (R352 to R378). -/

namespace Sys2Proof.Machine

open Sys2Proof

/-- Reads the entries of 16 bytes of a list a mesh command names: 64-bit words 0 and 1 of each (R366, R486). -/
def listEntries (v : View) (count : Nat) : List (Nat × Nat) :=
  (List.range count).map (fun i => (leNat ((v.bytes.drop (16 * i)).take 8), leNat ((v.bytes.drop (16 * i + 8)).take 8)))

/-- MREDUCE (R366 to R369): a dispatched mesh reduce reads its source list; while it runs, source engine `k` sends its next chunk,
and the turns from COUNT on are those of the destination engine on chunk k − COUNT. -/
def execMreduce (n tag k : Nat) (s : State) : Host.Outcome State Fault Refusal :=
  match s.cmd? n tag with
  | none => .next s
  | some c =>
    if c.op ≠ 8 then .next s
    else if c.phase = .dispatched then
      let cnt := c.redCount
      if cnt < 2 ∨ 256 < cnt ∨ c.redLen = 0 ∨ c.redLen % 128 ≠ 0 ∨ !sumFmts c.redIn c.redOut ∨ 36 ≤ c.redEngine ∨ bitOf (c.body 2) 9 ∨
          bitsOf (c.body 2) 25 7 ≠ 0 then .fault .hostError
      else match s.engStep n tag 0 [(c.body 0, 16 * cnt)] (0, 0) (fun _ => {}) with
        | .wait t => .next t
        | .fault f w t => .next (t.meshFault n tag f w)
        | .lost t => .next (t.settleMesh n tag 6 0 0)
        | .done vs t =>
          let v := vs.headD {}
          if !v.bad.isEmpty then .next (t.meshFault n tag { cause := 5, va := c.body 0 } false)
          else
            let l := listEntries v cnt
            if l.any (fun e => decide (36 ≤ e.2)) then .fault .hostError
            else .next (t.startJob n c (.reduce { srcs := l, sent := List.replicate cnt 0, total := c.redLen / 128 }))
    else if k < c.redCount then .next (s.reduceSend n tag k)
    else .next (s.reduceTurn n tag (k - c.redCount))

/-- REDUCTION_PACKET_ARRIVAL (R367, R368): the reduction packet that comes first on the way to a port of Crossing `x` is added
into a held packet or held; at port 6 the gather engine takes it. -/
def execReductionPacketArrival (x port : Nat) (s : State) : Host.Outcome State Fault Refusal :=
  match s.meshLink x port with
  | [] => .next s
  | f :: rest => match f.kind with
    | .reduce n tag k count _ words bad =>
      let s1 := s.setLink x port rest
      if port = 6 then .next (s1.reduceAdd n tag k count words bad false)
      else
        let int := match s.reduce? n tag with | some (c, _) => c.redIn == 8 | none => false
        .next (s1.holdPkt x int f)
    | _ => .next s

/-- REDUCTION_HOLD_TIMEOUT (R367): the oldest packet held at Crossing `x` that has waited 32 mesh clocks moves on. -/
def execReductionHoldTimeout (x : Nat) (s : State) : Host.Outcome State Fault Refusal :=
  match s.mesh.held.find? (fun h => h.crossing == x) with
  | none => .next s
  | some h =>
    if h.since + s.meshNs (x / 18) 32 ≤ s.now then
      .next ((s.setMesh { s.mesh with held := s.mesh.held.erase h }).pushBuf x 6 h.flit)
    else .next s

/-- MESH_FLIT_ARRIVAL (R355 to R360, R370, R371, R373): the first flit on the way to a port of Crossing `x` enters its buffers, and
the output it leaves by has one clock, on the Seam with the Square channel contending (R374). `pkt` is a packet that an endpoint at that port sends now, of traffic other than the
mesh commands'. Where nothing arrives, output `port` has one clock. A reduction packet arrives by its own command. -/
def execMeshFlitArrival (x port : Nat) (pkt : Option MeshPkt) (s : State) : Host.Outcome State Fault Refusal :=
  let s0 := match pkt with
    | some p => if (port = 4 ∨ port = 5) ∧ p.vc < 4 ∧ p.dst < 36 ∧ (p.port = 4 ∨ p.port = 5) ∧ p.payload.length ≤ 512 then
        s.pushLink x port { vc := p.vc, dst := p.dst, kind := .other p } else s
    | none => s
  match s0.meshLink x port with
  | [] => .next (s0.outClock x port)
  | f :: rest => match f.kind with
    | .reduce .. => .next s0
    | _ =>
      let s1 := (f.split x).foldl (fun (t : State) g => t.pushBuf x port g) (s0.setLink x port rest)
      .next (s1.outClock x (f.out x))

/-- A flit has failed its CRC: `fails` of its replays failed too; the eighth is fatal, a replay that succeeds is counted (R361, R533,
R534). -/
def State.crcReplay (s : State) (source cls unit fails : Nat) : State :=
  if 8 ≤ fails then s.fatal source cls unit 0 else s.countReplay cls unit

/-- MESH_CRC_REPLAY (R361, R533, R534): the first flit on the way to a port of Crossing `x` failed its CRC and was replayed; Crossing
numbers 36 and 37 stand for the Square channel of the Seam, West to East and East to West. -/
def execMeshCrcReplay (x port fails : Nat) (s : State) : Host.Outcome State Fault Refusal :=
  if 36 ≤ x then
    (if x < 38 ∧ port = 5 ∧ (s.squareReady (x - 36) 1 || s.squareReady (x - 36) 2) then .next (s.crcReplay 4 8 (3 + 4 * (x - 36)) fails)
     else .next s)
  else if (s.meshLink x port).isEmpty ∨ 6 ≤ port ∨ port = 4 then .next s
  else
    let seam := port == 5
    let from_ := meshNext x port
    let cls := if seam then 8 else 7
    let unit := if seam then (if gridCol x = 6 then gridRow x else 4 + gridRow x) else from_.1 / 18 * 72 + from_.1 % 18 * 4 + from_.2
    .next (s.crcReplay (if seam then 4 else 3) cls unit fails)

/-- MMCAST (R370, R371): a dispatched mesh multicast reads its target list; while it runs, turn 0 sends the source's next packet
and turn 1 + t writes the oldest packet that the engine of target `t` has buffered. -/
def execMmcast (n tag k : Nat) (s : State) : Host.Outcome State Fault Refusal :=
  match s.cmd? n tag with
  | none => .next s
  | some c =>
    if c.op ≠ 9 then .next s
    else if c.phase = .dispatched then
      let cnt := c.mcTargets
      if cnt = 0 ∨ 64 < cnt ∨ c.mcLen = 0 ∨ 2 ^ 24 < c.mcLen ∨ 36 ≤ c.mcEngine ∨ bitOf (c.body 2) 31 ∨ c.body 2 / 2 ^ 39 ≠ 0 then .fault .hostError
      else match s.engStep n tag 0 [(c.body 1, 16 * cnt)] (0, 0) (fun _ => {}) with
        | .wait t => .next t
        | .fault f w t => .next (t.meshFault n tag f w)
        | .lost t => .next (t.settleMesh n tag 6 0 0)
        | .done vs t =>
          let v := vs.headD {}
          if !v.bad.isEmpty then .next (t.meshFault n tag { cause := 5, va := c.body 1 } false)
          else
            let l := listEntries v cnt
            if l.any (fun e => decide (36 ≤ e.2)) then .fault .hostError
            else .next (t.startJob n c (.mcast { targets := l, total := ceilDiv c.mcLen 512, counts := List.replicate cnt 0 }))
    else match s.mcast? n tag 9 with
      | none => .next s
      | some (_, j) =>
        if k = 0 then
          (if j.total ≤ j.next then .next s
           else .next (s.mcastSend n tag j.next (List.range j.targets.length) (fun j =>
             { j with next := j.next + 1, firstAt := if j.firstAt = 0 then s.now + 1 else j.firstAt })))
        else .next (s.mcastWrite n tag (k - 1))

/-- MESH_MCAST_RESEND (R371): the oldest refusal of a command that is 256 mesh clocks old is answered by sending that packet to
that target alone. -/
def execMeshMcastResend (n tag : Nat) (s : State) : Host.Outcome State Fault Refusal :=
  match s.mcast? n tag 9, s.mesh.resends.find? (fun r => r.ctx == n && r.tag == tag) with
  | some (c, _), some r =>
    if r.since + s.meshNs (c.mcEngine / 18) 256 ≤ s.now then
      let s1 := s.setMesh { s.mesh with resends := s.mesh.resends.erase r }
      let t := s1.mcastSend n tag r.packet [r.target] (fun j => j)
      if (t.xfer? n tag r.packet).isSome then .next { t with mesh := s.mesh } else .next t
    else .next s
  | _, _ => .next s

/-- MESH_MCAST_DEADLINE (R371): 20 µs after its first packet a mesh multicast stops and completes PARTIAL. -/
def execMeshMcastDeadline (n tag : Nat) (s : State) : Host.Outcome State Fault Refusal :=
  match s.mcast? n tag 9 with
  | some (_, j) => if j.firstAt ≠ 0 ∧ j.firstAt - 1 + 20000 ≤ s.now then .next (s.settleMesh n tag 3 0 j.delivered) else .next s
  | none => .next s

/-- GATHER (R376, R377): a dispatched gather starts; while it runs, row `i` is moved to the destination. -/
def execGather (n tag i : Nat) (s : State) : Host.Outcome State Fault Refusal := s.gatherCmd n tag 0x0A i

/-- SCATTER (R376, R377): a dispatched scatter starts; while it runs, row `i` of the source is moved or added to its table row. -/
def execScatter (n tag i : Nat) (s : State) : Host.Outcome State Fault Refusal := s.gatherCmd n tag 0x0B i

end Sys2Proof.Machine
end

