-- ==== Sys2Proof/Machine/HostSync.lean ====
section
/-! DEFINITION. The host's sync commands and the dump (R443 to R446, R458 to R460, R465 to R467). -/

namespace Sys2Proof.Machine

open Sys2Proof

/-- The command of context `n` with a tag, when it is of an opcode and dispatched. -/
def State.fresh? (s : State) (n tag op : Nat) : Option Cmd :=
  match s.cmd? n tag with
  | some c => if c.op = op ∧ c.phase = .dispatched then some c else none
  | none => none

/-- Settles a sync command with a result word. -/
def State.settleResult (s : State) (n tag status cause result : Nat) : State :=
  s.updCmd n tag (fun c => c.waitEnds status cause result)

/-- Applies SYNC_INIT (R443, R445). -/
def State.applyInit (s : State) (n : Nat) (c : Cmd) : State :=
  let i := bitsOf (c.body 0) 0 16
  let kind := bitsOf (c.body 0) 16 2
  let parts := bitsOf (c.body 0) 32 16
  let old := s.obj i
  if s.objPoisoned i then s.settleCmd n c.tag 4 5 0
  else if old.kind ≠ 3 then s.settleCmd n c.tag 4 3 0
  else if kind = 1 ∧ parts = 0 then s.settleCmd n c.tag 4 1 0
  else
    let e : SyncEntry := { old with
      counter := c.body 1 % 2 ^ 48, kind, owner := n, participants := if kind = 1 then parts else 0, even := 0, odd := 0, abandoned := false
      frozen := false, hsig := bitOf (c.body 2) 0, vector := bitsOf (c.body 2) 1 11, msix := bitOf (c.body 2) 12 }
    (s.changeObj i e e).settleResult n c.tag 0 0 e.word0

/-- Whether SYNC_INIT of entry `i` is held: less than 100 µs since it was retired (R444). -/
def State.initHeld (s : State) (i : Nat) : Bool :=
  let t := Store.get 0 s.sync.retired i
  t != 0 && decide (s.now < t - 1 + 100000)

/-- SYNC_INIT (R443, R444). -/
def execSyncInit (n tag : Nat) (s : State) : Host.Outcome State Fault Refusal :=
  match s.fresh? n tag 0x10 with
  | none => .next s
  | some c =>
    if bitsOf (c.body 0) 16 2 = 3 ∨ bitsOf (c.body 0) 18 14 ≠ 0 ∨ c.body 0 / 2 ^ 48 ≠ 0 ∨ c.body 1 / 2 ^ 48 ≠ 0 ∨ c.body 2 / 2 ^ 13 ≠ 0 then
      .fault .hostError
    else if s.initHeld (bitsOf (c.body 0) 0 16) then .next (s.setCmd n { c with phase := .running })
    else .next (s.applyInit n c)

/-- SYNC_INIT_HOLD_END (R444): 100 µs have passed since the entry was retired. -/
def execSyncInitHoldEnd (n tag : Nat) (s : State) : Host.Outcome State Fault Refusal :=
  match s.cmd? n tag with
  | none => .next s
  | some c =>
    if c.op = 0x10 ∧ c.phase = .running ∧ !s.initHeld (bitsOf (c.body 0) 0 16) then .next (s.applyInit n c) else .next s

/-- SYNC_RETIRE (R443, R445). -/
def execSyncRetire (n tag : Nat) (s : State) : Host.Outcome State Fault Refusal :=
  match s.fresh? n tag 0x11 with
  | none => .next s
  | some c =>
    let h := c.body 0
    let i := hIndex h
    let old := s.obj i
    if 2 ^ 39 ≤ h ∨ s.hRemote h then .fault .hostError
    else if !s.objPoisoned i && (old.kind == 3 || hGen h != old.gen) then
      .next (s.countStale.settleResult n tag 0 0 (1 * 2 ^ 62))
    else
      let e : SyncEntry := { gen := (hGen h + 1) % 256 }
      let s1 := s.changeObj i old e
      let s2 := { s1 with sync := { s1.sync with
        poison := Store.set false s1.sync.poison i false, retired := Store.set 0 s1.sync.retired i (s.now + 1) } }
      .next (s2.settleResult n tag 0 0 0)

/-- SYNC_SIGNAL (R213, R411, R445, R448, R458). -/
def execSyncSignal (n tag : Nat) (s : State) : Host.Outcome State Fault Refusal :=
  match s.fresh? n tag 0x12 with
  | none => .next s
  | some c =>
    let h := c.body 0
    if 2 ^ 39 ≤ h ∨ c.body 1 / 2 ^ 50 ≠ 0 then .fault .hostError
    else
      let r := s.signalFor n tag h (c.body 1 % 2 ^ 48) (bitsOf (c.body 1) 48 2)
      .next (match r.1 with
        | .wrongKind => r.2.settleCmd n tag 4 3 0
        | .poisoned => r.2.settleCmd n tag 4 5 0
        | .overrun => r.2.settleCmd n tag 4 9 0
        | x => r.2.settleResult n tag 0 0 x.word)

/-- The atomic check of a host wait, and what the command does on it (R214, R459). A wait that is not satisfied stays in the
waiter summary with `j`. -/
def State.hostWait (s : State) (n tag : Nat) (j : WaitJob) : State :=
  let q := s.waitObj (j.index + j.gen * 2 ^ 16) j.mode j.thr
  match q.1 with
  | .stale => q.2.settleResult n tag 0 0 (1 * 2 ^ 62)
  | .abandoned => q.2.settleCmd n tag 4 8 0
  | .wrongKind => q.2.settleCmd n tag 4 3 0
  | .poisoned => q.2.settleCmd n tag 4 5 0
  | .met k => q.2.settleResult n tag 0 0 (waitResult 0 j.mode k)
  | .no _ => q.2.updCmd n tag (fun c => { c with phase := .running, job := .wait { j with woken := false } })

/-- SYNC_WAIT (R459): starts a wait, or runs the atomic check again after a wake that a TAKE could meet (R453). -/
def execSyncWait (n tag : Nat) (s : State) : Host.Outcome State Fault Refusal :=
  match s.cmd? n tag with
  | none => .next s
  | some c =>
    if c.op ≠ 0x13 then .next s
    else match c.phase, c.job with
      | .dispatched, _ =>
        let h := c.body 0
        let i := hIndex h
        if 2 ^ 39 ≤ h ∨ c.body 1 / 2 ^ 50 ≠ 0 then .fault .hostError
        else if s.hRemote h then .next (s.settleCmd n tag 4 3 0)
        else
          .next ((s.hostWait n tag { index := i, gen := hGen h, mode := bitsOf (c.body 1) 48 2, thr := c.body 1 % 2 ^ 48
                                     deadline := if c.body 2 = 0 then 0 else s.now + c.body 2 + 1 }).setWaiters i)
      | .running, .wait j => if j.woken then .next ((s.hostWait n tag j).setWaiters j.index) else .next s
      | _, _ => .next s

/-- SYNC_WAIT_TIME_LIMIT (R459, R461): the time limit of a host wait has passed. -/
def execSyncWaitTimeLimit (n tag : Nat) (s : State) : Host.Outcome State Fault Refusal :=
  match s.cmd? n tag with
  | none => .next s
  | some c => match c.phase, c.job with
    | .running, .wait j =>
      if j.deadline = 0 ∨ s.now + 1 < j.deadline then .next s
      else
        let e := s.obj j.index
        let s1 := if e.frozen then s else s.hostWait n tag j
        match s1.cmd? n tag with
        | none => .next s1
        | some c1 =>
          .next ((if c1.phase = .running then s1.settleResult n tag 6 0 (waitResult 2 j.mode e.counter) else s1).setWaiters j.index)
    | _, _ => .next s

/-- An abort of a host wait before its condition is met (R459). -/
def State.waitAbort (s : State) (n : Nat) (c : Cmd) (j : WaitJob) : State :=
  (s.setCmd n { c.settle 1 0 0 with abortRec := true }).setWaiters j.index

/-! ## The dump (R465 to R467) -/

/-- The header of a dump (R466). -/
def State.dumpHeader (s : State) (j : DumpJob) : List Byte :=
  let pre := ((List.range 8).map (fun n => if s.ctxState n = 2 then 2 ^ n else 0)).sum
  natLE 4 (1 + b2n j.waiters * 2 ^ 8) ++ natLE 4 s.node ++ natLE 4 j.first ++ natLE 4 j.total ++ natLE 8 j.start ++
    natLE 8 s.now ++ natLE 8 s.sync.stale ++ natLE 8 s.sync.overrun ++ natLE 8 pre ++ natLE 8 0

/-- A core's wait record (R467). -/
def WaitRec.toBytes (r : WaitRec) : List Byte :=
  if r.valid then
    natLE 4 (r.index + r.gen * 2 ^ 16 + r.mode * 2 ^ 24 + 2 ^ 26 + b2n r.timed * 2 ^ 27) ++
      natLE 4 (if r.timed then r.deadline % 2 ^ 32 else 0) ++ natLE 8 r.thr
  else List.replicate 16 0

/-- The wait records of the 576 cores (R467). -/
def State.waitRecords (s : State) : List Byte := (List.range 576).flatMap (fun c => (s.core c).wait.toBytes)

/-- An entry as the dump copies it: a poisoned entry keeps its poison (R66). -/
def State.entryView (s : State) (i : Nat) : View :=
  { bytes := (s.obj i).toBytes, bad := if s.objPoisoned i then [(0, 32)] else [] }

/-- A write of a dump (R465): `go` follows once it is made; a fault or a loss ends the command. -/
def State.dumpWrite (s : State) (n tag va : Nat) (v : View) (go : State → State) : State :=
  match s.thWrite n tag (hallKey 0) va v with
  | .wait t => t
  | .lost t => t.settleCmd n tag 6 0 0
  | .ok 0 t => go t
  | .ok cause t => t.settleCmd n tag 4 cause 0

/-- The dump ends with its header (R465). -/
def State.dumpEnds (s : State) (n : Nat) (c : Cmd) (j : DumpJob) : State :=
  s.dumpWrite n c.tag (c.body 0) { bytes := s.dumpHeader j } (fun t => t.settleCmd n c.tag 0 0 0)

/-- The dump copies its next entry, or ends with the wait records and the header (R465). -/
def State.dumpStep (s : State) (n : Nat) (c : Cmd) (j : DumpJob) : State :=
  let dst := c.body 0
  let job := fun (k : DumpJob) (t : State) => t.updCmd n c.tag (fun d => { d with job := .dump k })
  if j.next < j.first + j.total then
    s.dumpWrite n c.tag (dst + 64 + 32 * (j.next - j.first)) (s.entryView j.next) (job { j with next := j.next + 1 })
  else if j.waiters ∧ !j.records then
    s.dumpWrite n c.tag (dst + 64 + 32 * j.total) { bytes := s.waitRecords } (fun t =>
      (job { j with records := true } t).dumpEnds n c { j with records := true })
  else s.dumpEnds n c j

/-- SYNC_DUMP (R465): checks a dispatched dump and starts it; each further turn copies one entry. -/
def execSyncDump (n tag : Nat) (s : State) : Host.Outcome State Fault Refusal :=
  match s.cmd? n tag with
  | none => .next s
  | some c =>
    if c.op ≠ 0x14 then .next s
    else match c.phase, c.job with
      | .dispatched, _ =>
        let first := bitsOf (c.body 1) 0 16
        let count := bitsOf (c.body 1) 16 17
        if c.body 0 % 256 ≠ 0 ∨ c.body 1 / 2 ^ 34 ≠ 0 then .fault .hostError
        else if count = 0 ∨ 65536 < count ∨ 65536 < first + count then .next (s.settleCmd n tag 4 1 0)
        else .next (s.startJob n c (.dump { total := count, first, next := first, waiters := bitOf (c.body 1) 33, start := s.now }))
      | .running, .dump j => .next (s.dumpStep n c j)
      | _, _ => .next s

/-- An abort of a dump stops copying at the next entry (R465). -/
def State.dumpAbort (s : State) (n : Nat) (c : Cmd) (j : DumpJob) : State :=
  (s.dropXfers n c.tag).setCmd n { c.settle 1 0 j.next with abortRec := true }

/-- XLATE_INV (R84, R98, R499): discards the context's cached translations and the run-ahead data of its cores. -/
def State.dropXlat (s : State) (n : Nat) : State :=
  let s1 := s.setCtx n { s.ctx n with tlb := [] }
  { s1 with cores := s1.cores.map (fun (p : Nat × Core) => if p.2.run != .idle && p.2.ctx == n then (p.1, p.2.discardAhead (fun _ => true)) else p) }

/-- Whether an outstanding transaction is an access of context `n` that used its translations: one of a core that runs its work, or of an
engine for its command. -/
def State.txnOf (s : State) (n : Nat) (x : Txn) : Bool :=
  x.active && match x.owner with
    | .core c => (s.core c).run != .idle && (s.core c).ctx == n
    | .eng m _ _ => m == n
    | _ => false

/-- The accesses of context `n` in flight: requests of remote space, and the parts of started tile loads that wait for a line (R84). -/
def State.inFlight (s : State) (n : Nat) : XlateJob :=
  { xids := (s.fab.txns.filter (fun p => s.txnOf n p.2)).map (fun p => 256 * p.1 + p.2.gen)
    parts := s.cores.flatMap (fun p => if p.2.run != .idle && p.2.ctx == n then
      (p.2.queue.filter (fun e => e.st == .started)).flatMap (fun e => e.parts.map (fun q => (p.1, q))) else []) }

/-- What of the accesses listed is still in flight. -/
def State.stillFlying (s : State) (j : XlateJob) : XlateJob :=
  { xids := j.xids.filter (fun x => (s.txn? x).isSome)
    parts := j.parts.filter (fun p => (s.core p.1).queue.any (fun e => e.st == .started && e.parts.contains p.2)) }

/-- XLATE_INV completes once every access that used a discarded translation has been performed (R84). -/
def State.xlateWaits (s : State) (n tag : Nat) (j : XlateJob) : State :=
  if j = {} then s.settleCmd n tag 0 0 0
  else s.updCmd n tag (fun d => { d with phase := .running, job := .xlate j })

/-- XLATE_INV (R84): dispatched, it discards the translations; then it waits for the accesses in flight. -/
def execXlateInv (n tag : Nat) (s : State) : Host.Outcome State Fault Refusal :=
  match s.cmd? n tag with
  | none => .next s
  | some c =>
    if c.op ≠ 4 then .next s
    else match c.phase, c.job with
      | .dispatched, _ => .next ((s.dropXlat n).xlateWaits n tag (s.inFlight n))
      | .running, .xlate j => .next (s.xlateWaits n tag (s.stillFlying j))
      | _, _ => .next s

end Sys2Proof.Machine
end

