-- ==== Sys2Proof/Machine/Reliability.lean ====
section
/-! DEFINITION. Fatal errors, the post-mortem dump, and the error count registers (R524 to R535). -/

namespace Sys2Proof.Machine

open Sys2Proof

/-- FATAL_INFO holds a detail for HBM_IF, FW_AREA and FW_REPORTED only. -/
def fatalInfo (source info : Nat) : Nat :=
  if source = 1 then info % 32 else if source = 5 ∨ source = 0x0B then info else 0

/-- FATAL_ERROR (R524, R525): a source is found, in a unit of R533, with its detail. Other source numbers name no source;
THERMAL is the thermal trip, which asserts THERMTRIP_N as well (R561). -/
def execFatalError (source cls unit info : Nat) (s : State) : Host.Outcome State Fault Refusal :=
  if source = 0 ∨ 0x0B < source then .next s
  else
    let s1 := if source = 9 then { s with plat := { s.plat with pins := { s.plat.pins with thermtrip := true } } } else s
    .next (s1.fatal source (cls % 256) (unit % 65536) (fatalInfo source info))

/-- The bytes and poison of the whole dump (R466, R467, R532). -/
def State.postMortem (s : State) : View :=
  let j : DumpJob := { total := 65536, first := 0, next := 65536, waiters := true, start := s.now }
  { bytes := s.dumpHeader j ++ (List.range 65536).flatMap (fun i => (s.obj i).toBytes) ++ s.waitRecords
    bad := ((List.range 65536).filter s.objPoisoned).map (fun i => (64 + 32 * i, 96 + 32 * i)) }

/-- PM_DUMP (R532): a write of the register; with START, DUMP_OK and a failed device the whole sync table goes to host memory
and DUMP_DONE is set. -/
def execPmDump (v : W64) (s : State) : Host.Outcome State Fault Refusal :=
  if s.boot ≠ 7 ∨ !s.flag 0x804 18 ∨ s.flag 0x804 19 then .next s
  else
    let addr := bitsOf v.toNat 8 46 * 2 ^ 8
    let s1 := s.setReg64 0x818 addr
    if bitOf v.toNat 0 then .next ((s1.physWrite (0x40000000000000 + addr) s1.postMortem).setFlag 0x804 20 true)
    else .next s1

/-- ERR_SEL_CLEAR (R533): a write of ERR_SEL; with CLEAR the four counts and addresses of the unit become zero. -/
def execErrSelClear (v : W32) (s : State) : Host.Outcome State Fault Refusal :=
  if !s.ready then .next s
  else
    let cls := bitsOf v.toNat 0 8
    let unit := bitsOf v.toNat 8 16
    let s1 := s.setReg 0x840 (bitsOf v.toNat 0 26)
    if bitOf v.toNat 31 && decide (cls ≤ 4) then
      let u := s1.unitErr cls unit
      .next (s1.setUnitErr cls unit { u with
        single := 0, double := 0, uncorrectable := 0, poisoned := 0
        addrSingle := 0, addrDouble := 0, addrUncorrectable := 0, addrPoisoned := 0 })
    else .next s1

/-- What ERR_SB, ERR_DB, ERR_UE, ERR_PR and ERR_ADDR read (R69, R533). -/
def State.errView (s : State) : Nat × Nat × Nat × Nat × Nat :=
  let cls := s.fld 0x840 0 8
  if 4 < cls then (0, 0, 0, 0, 0)
  else
    let u := s.unitErr cls (s.fld 0x840 8 16)
    (u.single, u.double, u.uncorrectable, u.poisoned,
      match s.fld 0x840 24 2 with | 0 => u.addrSingle | 1 => u.addrDouble | 2 => u.addrUncorrectable | _ => u.addrPoisoned)

/-- ERR_THRESHOLD_WINDOW (R534): at a multiple of WINDOW_S seconds every unit begins a new window. -/
def execErrThresholdWindow (s : State) : Host.Outcome State Fault Refusal :=
  let w := s.fld 0x834 0 16
  if w = 0 ∨ s.now % (w * 1000000000) ≠ 0 then .next s
  else .next { s with err := { s.err with
    units := s.err.units.foldl (fun (m : Store UnitErr) p => Store.set {} m p.1 { p.2 with window := 0, reported := false }) [] } }

end Sys2Proof.Machine
end

