-- ==== Sys2Proof/Machine/Demux.lean ====
section
/-! DEFINITION. The demultiplexer on MPEG-2 Transport Streams (R317, R319, R342). The field positions are those of ISO/IEC 13818-1, which
the spec names by their field names only (assumption 80). -/

namespace Sys2Proof.Machine

open Sys2Proof

/-- Byte `i` of a list, 0 beyond it. -/
def byteAt (l : List Byte) (i : Nat) : Nat := (l.getD i 0).toNat
/-- `n` bytes at `i`, the first the most significant. -/
def beAt (l : List Byte) (i n : Nat) : Nat := beNat ((l.drop i).take n)
/-- A list of bytes cut into pieces of `k`, an incomplete last piece left out; `fuel` bounds their number. -/
def pieces (k : Nat) : Nat → List Byte → List (List Byte)
  | 0, _ => []
  | fuel + 1, l => if l.length < k ∨ k = 0 then [] else l.take k :: pieces k fuel (l.drop k)

/-- The place of a drop reason in the table of R342. -/
def dropSyntax : Nat := 0
/-- CONTAINER. -/
def dropContainer : Nat := 1
/-- UNSUPPORTED. -/
def dropUnsupported : Nat := 2
/-- PROTECTED. -/
def dropProtected : Nat := 3
/-- SHORT. -/
def dropShort : Nat := 6
/-- GEOMETRY. -/
def dropGeometry : Nat := 7

/-- What the demultiplexer makes of a range: a reason it finds to drop the sample, or the selected streams; no audio stream where none was
found (R325). -/
inductive Demuxed where
  | drop (reason : Nat)
  | streams (video : EsStream) (audio : Option EsStream)
  deriving DecidableEq, Repr

/-- What an entry selects (R315). -/
structure Select where
  vcodec : Nat
  acodec : Nat
  vsel : Nat
  asel : Nat
  deriving DecidableEq, Repr

/-- What the demultiplexer holds of a selected PID: the last continuity counter and whether its packet has come twice, the PES packet in
progress, the last time, the codec and the units. -/
structure TsPid where
  cc : Option Nat := none
  twice : Bool := false
  pes : Option (List Byte) := none
  last : Option Int := none
  codec : Nat := 0
  units : List EsUnit := []
  deriving DecidableEq, Repr

/-- What it holds of a transport stream. -/
structure TsState where
  /-- sections in progress, by PID -/
  psi : List (Nat × List Byte) := []
  pmtPids : List Nat := []
  /-- elementary PIDs of the PMTs seen: video codec and audio codec of the stream_type, 0 for neither -/
  types : List (Nat × Nat × Nat) := []
  video : TsPid := {}
  audio : TsPid := {}
  /-- the first reason found -/
  reason : Option Nat := none
  deriving DecidableEq, Repr

/-- A reason to drop the sample is found; the first stands. -/
def TsState.drop (t : TsState) (reason : Nat) : TsState := { t with reason := some (t.reason.getD reason) }

/-- The packet size, told by the spacing of the sync bytes at the start of the range: 188, 192 with a 4-byte prefix, 0 for another. -/
def tsSize (l : List Byte) : Nat :=
  let fits := fun (p k : Nat) => decide (k ≤ l.length) && byteAt l p == 0x47 && (decide (l.length ≤ k + p) || byteAt l (k + p) == 0x47)
  if fits 0 188 then 188 else if fits 4 192 then 192 else 0

/-! ## Program tables -/

/-- The complete sections at the start of a buffer, and what is left of it. -/
def sectionsOf : Nat → List Byte → List (List Byte) × List Byte
  | 0, l => ([], l)
  | fuel + 1, l =>
    if l.length < 3 ∨ byteAt l 0 = 0xFF then ([], l)
    else
      let n := 3 + beAt l 1 2 % 4096
      if l.length < n then ([], l)
      else
        let r := sectionsOf fuel (l.drop n)
        (l.take n :: r.1, r.2)

/-- The video codec and the audio codec of a stream_type and its descriptors (R317). -/
def codecOfType (streamType : Nat) (av1 : Bool) : Nat × Nat :=
  match streamType with
  | 0x01 => (1, 0) | 0x02 => (1, 0) | 0x1B => (2, 0) | 0x24 => (3, 0) | 0x33 => (5, 0)
  | 0x06 => (if av1 then 4 else 0, 0)
  | 0x03 => (0, 1) | 0x04 => (0, 1) | 0x0F => (0, 2)
  | _ => (0, 0)

/-- Whether a descriptor loop holds a registration descriptor of AV1. -/
def av1Registered : Nat → List Byte → Bool
  | 0, _ => false
  | fuel + 1, l =>
    if l.length < 2 then false
    else (byteAt l 0 == 0x05 && beAt l 2 4 == 0x41563031 && decide (4 ≤ byteAt l 1)) || av1Registered fuel (l.drop (2 + byteAt l 1))

/-- The streams of a PMT's second loop. -/
def pmtStreams : Nat → List Byte → List (Nat × Nat × Nat)
  | 0, _ => []
  | fuel + 1, l =>
    if l.length < 5 then []
    else
      let n := beAt l 3 2 % 4096
      (beAt l 1 2 % 8192, codecOfType (byteAt l 0) (av1Registered n ((l.drop 5).take n))) :: pmtStreams fuel (l.drop (5 + n))

/-- A section of the PAT or of a PMT is taken, where it is current. -/
def TsState.psiSection (t : TsState) (pid : Nat) (s : List Byte) : TsState :=
  if byteAt s 5 % 2 = 0 ∨ s.length < 12 then t
  else if pid = 0 ∧ byteAt s 0 = 0 then
    { t with pmtPids := ((pieces 4 s.length ((s.drop 8).dropLast.dropLast.dropLast.dropLast)).filter (fun p => beAt p 0 2 != 0)).map (fun p =>
      beAt p 2 2 % 8192) }
  else if pid ≠ 0 ∧ byteAt s 0 = 2 then
    { t with types := pmtStreams s.length ((s.drop (12 + beAt s 10 2 % 4096)).dropLast.dropLast.dropLast.dropLast) ++ t.types }
  else t

/-- The payload of a packet of the PAT's or of a PMT's PID. -/
def TsState.psiPayload (t : TsState) (pid : Nat) (start : Bool) (l : List Byte) : TsState :=
  let held := Store.get [] t.psi pid
  let take := fun (u : TsState) (buf : List Byte) =>
    let r := sectionsOf buf.length buf
    r.1.foldl (fun (v : TsState) s => v.psiSection pid s) { u with psi := Store.set [] u.psi pid r.2 }
  if start then
    let n := byteAt l 0
    let t1 := if held.isEmpty then t else take t (held ++ (l.drop 1).take n)
    take t1 (l.drop (1 + n))
  else if held.isEmpty then t else take t (held ++ l)

/-! ## PES packets -/

/-- A time stamp of a PES header, none where its marker bits are wrong. -/
def pesStamp (l : List Byte) (i : Nat) : Option Nat :=
  if byteAt l i % 2 = 0 ∨ byteAt l (i + 2) % 2 = 0 ∨ byteAt l (i + 4) % 2 = 0 then none
  else some (byteAt l i / 2 % 8 * 2 ^ 30 + beAt l (i + 1) 2 / 2 * 2 ^ 15 + beAt l (i + 3) 2 / 2)

/-- The time nearest to the last one that a 33-bit stamp can stand for (R317: wrap at 2^33). -/
def unwrapStamp (last : Option Int) (x : Nat) : Int :=
  match last with
  | none => x
  | some p => x + (2 : Int) ^ 33 * ((p - x + 2 ^ 32) / 2 ^ 33)

/-- A complete PES packet as a unit: none where it is malformed. The last of the range may be cut short by its end. -/
def pesUnit (video cut : Bool) (last : Option Int) (l : List Byte) : Option EsUnit :=
  let n := beAt l 4 2
  let size := if n = 0 then l.length else 6 + n
  let start := 9 + byteAt l 8
  let flags := byteAt l 7 / 64
  if cut ∧ (l.length < 9 ∨ l.length < start) then some {}
  else if l.length < 9 ∨ beAt l 0 3 ≠ 1 ∨ byteAt l 6 / 64 ≠ 2 ∨ (n = 0 ∧ !video) ∨ flags = 1 ∨ (l.length < size ∧ !cut) ∨ size < start then none
  else
    let body := (l.take size).drop start
    if flags = 0 then some { data := body }
    else if byteAt l 8 < (if flags = 3 then 10 else 5) ∨ (flags = 3 ∧ pesStamp l 14 = none) then none
    else (pesStamp l 9).map (fun x => { data := body, pts := some (unwrapStamp last x) })

/-- The PES packet in progress of a PID ends. -/
def TsPid.endPes (p : TsPid) (video cut : Bool) : TsPid × Bool :=
  match p.pes with
  | none => (p, false)
  | some l => match pesUnit video cut p.last l with
    | none => ({ p with pes := none }, true)
    | some u => ({ p with pes := none, units := p.units ++ [u], last := match u.pts with | some x => some x | none => p.last }, false)

/-- The codec of a PID that starts its first PES packet (R319): none where it cannot be determined. -/
def TsState.pidCodec (t : TsState) (pid field : Nat) (video : Bool) : Option Nat :=
  if field ≠ 0 then some field
  else match t.types.find? (fun x => x.1 == pid) with
    | some x => let c := if video then x.2.1 else x.2.2; if c = 0 then none else some c
    | none => none

/-- The payload of a packet of a selected PID. -/
def TsState.pesPayload (t : TsState) (field pid : Nat) (video start : Bool) (l : List Byte) : TsState :=
  let p := if video then t.video else t.audio
  let put := fun (u : TsState) (q : TsPid) => if video then { u with video := q } else { u with audio := q }
  if start then
    let (q, bad) := p.endPes video false
    let t1 := if bad then t.drop dropContainer else t
    let t2 := put t1 { q with pes := some l }
    if p.codec ≠ 0 then t2
    else match t.pidCodec pid field video with
      | some c => put t1 { q with pes := some l, codec := c }
      | none => t2.drop dropContainer
  else match p.pes with
    | none => t
    | some b => put t { p with pes := some (b ++ l) }

/-! ## Packets -/

/-- A packet of a selected PID: continuity, one duplicate discarded, discontinuity_indicator (R317, R342). -/
def TsState.selected (t : TsState) (field pid : Nat) (video : Bool) (k : List Byte) : TsState :=
  let p := if video then t.video else t.audio
  let put := fun (q : TsPid) => if video then { t with video := q } else { t with audio := q }
  let afc := byteAt k 3 / 16 % 4
  let cc := byteAt k 3 % 16
  let carries := afc % 2 = 1
  let field4 := byteAt k 4
  let jump := 2 ≤ afc ∧ field4 ≠ 0 ∧ byteAt k 5 / 128 = 1
  let at_ := if 2 ≤ afc then 5 + field4 else 4
  if byteAt k 3 / 64 ≠ 0 then t.drop dropProtected
  else if 188 < at_ then t.drop dropContainer
  else if !carries then
    if jump then put { p with cc := some cc, twice := false, last := none } else t
  else
    let go := fun (q : TsPid) =>
      (if video then { t with video := { q with cc := some cc, twice := false } } else
        { t with audio := { q with cc := some cc, twice := false } }).pesPayload field pid video (byteAt k 1 / 64 % 2 = 1) (k.drop at_)
    match p.cc with
    | none => go p
    | some c =>
      if jump then go { p with last := none }
      else if cc = (c + 1) % 16 then go p
      else if cc = c ∧ !p.twice then put { p with twice := true }
      else (go p).drop dropContainer

/-- One packet of 188 bytes. -/
def TsState.packet (t : TsState) (e : Select) (k : List Byte) : TsState :=
  let pid := beAt k 1 2 % 8192
  if t.reason.isSome then t
  else if byteAt k 0 ≠ 0x47 then t.drop dropContainer
  else if byteAt k 1 / 128 = 1 then t.drop dropContainer
  else if pid = e.vsel then t.selected e.vcodec pid true k
  else if e.asel ≠ 0 ∧ pid = e.asel then t.selected e.acodec pid false k
  else if pid = 0 ∨ t.pmtPids.contains pid then
    let afc := byteAt k 3 / 16 % 4
    if afc % 2 = 0 ∨ byteAt k 3 / 64 ≠ 0 then t
    else t.psiPayload pid (byteAt k 1 / 64 % 2 = 1) (k.drop (if afc = 3 then 5 + byteAt k 4 else 4))
  else t

/-- A transport stream demultiplexed. -/
def demuxTs (e : Select) (l : List Byte) : Demuxed :=
  let k := tsSize l
  if k = 0 then .drop dropContainer
  else
    let t := (pieces k l.length l).foldl (fun (t : TsState) p => t.packet e (p.drop (k - 188))) {}
    let v := t.video.endPes true true
    let a := t.audio.endPes false true
    match t.reason with
    | some r => .drop r
    | none =>
      if v.2 || a.2 then .drop dropContainer
      else .streams { codec := v.1.codec, units := v.1.units }
        (if a.1.units.isEmpty then none else some { codec := a.1.codec, units := a.1.units })

end Sys2Proof.Machine
end

