-- ==== Sys2Proof/Machine/IsoMedia.lean ====
section
/-! DEFINITION. The demultiplexer on ISO base media files (R318, R319, R342). The layouts of the boxes are those of ISO/IEC 14496-12 and
14496-1, which the spec names by their box names only (assumption 80). -/

namespace Sys2Proof.Machine

open Sys2Proof

/-! ## Boxes -/

/-- A box: its type, and where it and its contents start and where it ends in the range. -/
structure Box where
  kind : Nat
  start : Nat
  body : Nat
  stop : Nat
  deriving DecidableEq, Repr

/-- A four-character code. -/
def fourcc (a b c d : Char) : Nat := ((a.toNat * 256 + b.toNat) * 256 + c.toNat) * 256 + d.toNat

/-- The boxes from `i` to `stop`: none where one is malformed. A size of 0 and a media data box that the range cuts short are taken on the
outermost level only. -/
def boxesIn (l : List Byte) (top : Bool) (stop : Nat) : Nat → Nat → Option (List Box)
  | 0, _ => some []
  | fuel + 1, i =>
    if i = stop then some []
    else if stop < i + 8 then none
    else
      let n := beAt l i 4
      let kind := beAt l (i + 4) 4
      if n = 1 ∧ stop < i + 16 then none
      else
        let body := if n = 1 then i + 16 else i + 8
        let fin := if n = 1 then i + beAt l (i + 8) 8 else if n = 0 ∧ top then stop else i + n
        if fin < body then none
        else if stop < fin then if top ∧ kind = fourcc 'm' 'd' 'a' 't' then some [{ kind, start := i, body, stop }] else none
        else (boxesIn l top stop fuel fin).map (fun r => { kind, start := i, body, stop := fin } :: r)

/-- The boxes inside a box, after `skip` bytes of its contents. -/
def Box.inside (l : List Byte) (skip : Nat) (b : Box) : Option (List Box) :=
  if b.stop < b.body + skip then none else boxesIn l false b.stop (b.stop / 8 + 1) (b.body + skip)

/-- The first box of a type. -/
def boxOf (kind : Nat) (bs : List Box) : Option Box := bs.find? (fun b => b.kind == kind)

/-- The first box of a type inside a box. -/
def Box.child (l : List Byte) (kind : Nat) (b : Box) : Option Box := (b.inside l 0).bind (boxOf kind)

/-- `n` bytes at an offset of a box's contents, 0 beyond its end. -/
def Box.num (l : List Byte) (b : Box) (i n : Nat) : Nat := if b.stop < b.body + i + n then 0 else beAt l (b.body + i) n

/-- The entries of a table in a box: `n` of `k` bytes from offset `i`, none where the box is too short. -/
def Box.table (l : List Byte) (b : Box) (i k n : Nat) : Option (List (List Byte)) :=
  if b.stop < b.body + i + k * n then none else some (pieces k n ((l.drop (b.body + i)).take (k * n)))

/-- A number as a signed one of `bits` bits. -/
def signedOf (bits x : Nat) : Int := if x < 2 ^ (bits - 1) then x else (x : Int) - 2 ^ bits

/-! ## Sample entries (R318, R319) -/

/-- Bits [i, i + n) of a list of bytes, the first bit the most significant. -/
def bitsBE (l : List Byte) (i n : Nat) : Nat := bitsOf (beNat l) (8 * l.length - (i + n)) n

/-- The end of the size field of a descriptor that starts at `i`, and the size. -/
def descSize (l : List Byte) : Nat → Nat → Nat → Nat × Nat
  | 0, i, acc => (i, acc)
  | fuel + 1, i, acc =>
    let b := byteAt l i
    let v := acc * 128 + b % 128
    if b < 128 then (i + 1, v) else descSize l fuel (i + 1) v

/-- The body of the first descriptor with a tag among those of a list of bytes. -/
def descOf (tag : Nat) : Nat → List Byte → Option (List Byte)
  | 0, _ => none
  | fuel + 1, l =>
    if l.length < 2 then none
    else
      let (i, n) := descSize l 4 1 0
      if byteAt l 0 = tag then some ((l.drop i).take n) else descOf tag fuel (l.drop (i + n))

/-- The object type indication and the decoder specific information of an esds box. -/
def esdsOf (l : List Byte) (b : Box) : Option (Nat × List Byte) :=
  let d := (l.take b.stop).drop (b.body + 4)
  (descOf 3 d.length d).bind (fun es =>
    let f := byteAt es 2
    let skip := 3 + (if f / 128 = 1 then 2 else 0) + (if f / 64 % 2 = 1 then 1 + byteAt es (3 + (if f / 128 = 1 then 2 else 0)) else 0) +
      (if f / 32 % 2 = 1 then 2 else 0)
    (descOf 4 es.length (es.drop skip)).map (fun dc => (byteAt dc 0, ((descOf 5 dc.length (dc.drop 13)).getD []))))

/-- Whether an audio specific configuration is AAC-LC, alone or as the core of HE-AAC (R322). -/
def aacCore (c : List Byte) : Bool :=
  let rate := fun (i : Nat) => if bitsBE c i 4 = 15 then i + 28 else i + 4
  let aot := bitsBE c 0 5
  aot == 2 || ((aot == 5 || aot == 29) && bitsBE c (rate (rate 5 + 4)) 5 == 2)

/-- The bytes before the boxes of a video sample entry. -/
def videoEntryHead : Nat := 78
/-- The bytes before the boxes of an audio sample entry. -/
def audioEntryHead : Nat := 28

/-- The codec a video sample entry names (R318). -/
def videoEntryCodec (l : List Byte) (b : Box) (kids : List Box) : Nat :=
  if b.kind = fourcc 'a' 'v' 'c' '1' ∨ b.kind = fourcc 'a' 'v' 'c' '3' then 2
  else if b.kind = fourcc 'h' 'v' 'c' '1' ∨ b.kind = fourcc 'h' 'e' 'v' '1' then 3
  else if b.kind = fourcc 'a' 'v' '0' '1' then 4
  else if b.kind = fourcc 'v' 'v' 'c' '1' ∨ b.kind = fourcc 'v' 'v' 'i' '1' then 5
  else if b.kind = fourcc 'm' 'p' '4' 'v' then
    match (boxOf (fourcc 'e' 's' 'd' 's') kids).bind (esdsOf l) with
    | some (oti, _) => if 0x60 ≤ oti ∧ oti ≤ 0x65 then 1 else 0
    | none => 0
  else 0

/-- The codec an audio sample entry names (R318, R322). -/
def audioEntryCodec (l : List Byte) (b : Box) (kids : List Box) : Nat :=
  if b.kind = fourcc 'm' 'p' '4' 'a' then
    match (boxOf (fourcc 'e' 's' 'd' 's') kids).bind (esdsOf l) with
    | some (_, cfg) => if aacCore cfg then 2 else 0
    | none => 0
  else 0

/-- Matrix coefficients and full-range flag of a colr box of type nclx. -/
def nclxOf (l : List Byte) (kids : List Box) : Option (Nat × Bool) :=
  (kids.find? (fun b => b.kind == fourcc 'c' 'o' 'l' 'r' && b.num l 0 4 == fourcc 'n' 'c' 'l' 'x')).map (fun b =>
    (b.num l 8 2, b.num l 10 1 / 128 == 1))

/-! ## Samples -/

/-- Values of a run-length table: pairs of a count and a value. -/
def runs (t : List (Nat × Int)) : List Int := t.flatMap (fun r => List.replicate r.1 r.2)

/-- Sums of the values before each place, from a start. -/
def sumsFrom (x : Int) : List Int → List Int
  | [] => []
  | d :: rest => x :: sumsFrom (x + d) rest

/-- Ticks of 90 kHz of a time on a timescale, rounded down (R318). -/
def toTicks (scale : Nat) (t : Int) : Int := t * 90000 / scale

/-- Places of the samples of chunks, from their offsets, the samples of each and the sizes. -/
def placeSamples : List (Nat × Nat) → List Nat → List (Nat × Nat)
  | [], _ => []
  | (off, n) :: rest, sizes =>
    (((sizes.take n).foldl (fun (p : Nat × List (Nat × Nat)) z => (p.1 + z, p.2 ++ [(p.1, z)])) (off, [])).2) ++
      placeSamples rest (sizes.drop n)

/-- The sizes in an stsz or stz2 box. -/
def sampleSizes (l : List Byte) (stbl : List Box) : Option (List Nat) :=
  match boxOf (fourcc 's' 't' 's' 'z') stbl with
  | some b =>
    let n := b.num l 8 4
    if b.num l 4 4 ≠ 0 then some (List.replicate n (b.num l 4 4)) else (b.table l 12 4 n).map (·.map beNat)
  | none => (boxOf (fourcc 's' 't' 'z' '2') stbl).bind (fun b =>
    let n := b.num l 8 4
    match b.num l 7 1 with
    | 4 => (b.table l 12 1 ((n + 1) / 2)).map (fun r => (r.flatMap (fun x => [beNat x / 16, beNat x % 16])).take n)
    | 8 => (b.table l 12 1 n).map (·.map beNat)
    | 16 => (b.table l 12 2 n).map (·.map beNat)
    | _ => none)

/-- The chunk offsets in an stco or co64 box. -/
def chunkOffsets (l : List Byte) (stbl : List Box) : Option (List Nat) :=
  match boxOf (fourcc 's' 't' 'c' 'o') stbl with
  | some b => (b.table l 8 4 (b.num l 4 4)).map (·.map beNat)
  | none => (boxOf (fourcc 'c' 'o' '6' '4') stbl).bind (fun b => (b.table l 8 8 (b.num l 4 4)).map (·.map beNat))

/-- Samples of chunk `c`, counted from 1, by the runs of an stsc box. -/
def chunkCount (t : List (Nat × Nat)) (c : Nat) : Nat := ((t.filter (fun r => decide (r.1 ≤ c))).getLast?.map (·.2)).getD 0

/-- A pair table of a full box: a count and a value. -/
def pairTable (l : List Byte) (b : Box) : Option (List (Nat × Nat)) :=
  (b.table l 8 8 (b.num l 4 4)).map (·.map (fun r => (beAt r 0 4, beAt r 4 4)))

/-- A unit of a sample that the range holds. -/
def unitAt (l : List Byte) (scale : Nat) (place : Nat × Nat) (cts : Int) (dur : Nat) : EsUnit :=
  { data := (l.drop place.1).take place.2, pts := some (toTicks scale cts), dur := some (dur * 90000 / scale) }

/-- The units of a list of samples: place, decoding time, composition offset and duration. The list ends at the first sample that the range
does not hold whole. -/
def unitsOf (l : List Byte) (scale : Nat) (xs : List ((Nat × Nat) × Int × Int × Nat)) : List EsUnit :=
  (xs.takeWhile (fun x => decide (x.1.1 + x.1.2 ≤ l.length))).map (fun x => unitAt l scale x.1 (x.2.1 + x.2.2.1) x.2.2.2)

/-- The samples of an stbl box, none where a table is malformed. -/
def stblSamples (l : List Byte) (stbl : List Box) : Option (List ((Nat × Nat) × Int × Int × Nat)) :=
  (sampleSizes l stbl).bind (fun sizes => (chunkOffsets l stbl).bind (fun offs =>
    ((boxOf (fourcc 's' 't' 's' 'c') stbl).bind (fun b => b.table l 8 12 (b.num l 4 4))).bind (fun sc =>
      ((boxOf (fourcc 's' 't' 't' 's') stbl).bind (pairTable l)).bind (fun tt =>
        let ct : Option (List Int) := match boxOf (fourcc 'c' 't' 't' 's') stbl with
          | some b => (pairTable l b).map (fun t => runs (t.map (fun r =>
            (r.1, if b.num l 0 1 = 0 then (r.2 : Int) else signedOf 32 r.2))))
          | none => some []
        ct.map (fun cts =>
          let rs := sc.map (fun r => (beAt r 0 4, beAt r 4 4))
          let places := placeSamples (offs.zipIdx.map (fun o => (o.1, chunkCount rs (o.2 + 1)))) sizes
          let durs := runs (tt.map (fun r => (r.1, (r.2 : Int))))
          let dts := sumsFrom 0 durs
          places.zipIdx.map (fun p => (p.1, dts.getD p.2 0, cts.getD p.2 0, (durs.getD p.2 0).toNat)))))))

/-! ## Fragments -/

/-- A track's defaults for its fragments: sample duration and size. -/
def trexOf (l : List Byte) (moov : List Box) (id : Nat) : Nat × Nat :=
  let bs := ((boxOf (fourcc 'm' 'v' 'e' 'x') moov).bind (Box.inside l 0)).getD []
  match bs.find? (fun b => b.kind == fourcc 't' 'r' 'e' 'x' && b.num l 4 4 == id) with
  | some b => (b.num l 12 4, b.num l 16 4)
  | none => (0, 0)

/-- The samples of one trun box from a place and a decoding time. -/
def trunSamples (l : List Byte) (b : Box) (base dur size : Nat) (at_ : Nat) (t : Int) :
    Option (List ((Nat × Nat) × Int × Int × Nat) × Nat × Int) :=
  let flags := b.num l 1 3
  let n := b.num l 4 4
  let head := 8 + (if flags % 2 = 1 then 4 else 0) + (if flags / 4 % 2 = 1 then 4 else 0)
  let has := fun (bit : Nat) => flags / bit % 2 = 1
  let k := (if has 0x100 then 4 else 0) + (if has 0x200 then 4 else 0) + (if has 0x400 then 4 else 0) + (if has 0x800 then 4 else 0)
  let start := if flags % 2 = 1 then ((base : Int) + signedOf 32 (b.num l 8 4)).toNat else at_
  (if k = 0 then some (List.replicate n []) else b.table l head k n).map (fun rows =>
    rows.foldl (fun (p : List ((Nat × Nat) × Int × Int × Nat) × Nat × Int) r =>
      let d := if has 0x100 then beAt r 0 4 else dur
      let i := if has 0x100 then 4 else 0
      let z := if has 0x200 then beAt r i 4 else size
      let j := i + (if has 0x200 then 4 else 0) + (if has 0x400 then 4 else 0)
      let c : Int := if has 0x800 then (if b.num l 0 1 = 0 then (beAt r j 4 : Int) else signedOf 32 (beAt r j 4)) else 0
      (p.1 ++ [((p.2.1, z), p.2.2, c, d)], p.2.1 + z, p.2.2 + d)) ([], start, t))

/-- One traf box of a moof: the track, its samples, where their data ends and the decoding time after them. `prev` is the end of the data
of the traf before it, where there is one. -/
def trafSamples (l : List Byte) (moov : List Box) (moof : Box) (prev : Option Nat) (next : Nat → Int) (tr : Box) :
    Option (Nat × List ((Nat × Nat) × Int × Int × Nat) × Nat × Int) :=
  (tr.inside l 0).bind (fun bs => (boxOf (fourcc 't' 'f' 'h' 'd') bs).bind (fun h =>
    let id := h.num l 4 4
    let defs := trexOf l moov id
    let flags := h.num l 1 3
    let has := fun (bit : Nat) => flags / bit % 2 = 1
    let i1 := if has 1 then 16 else 8
    let i2 := i1 + (if has 2 then 4 else 0)
    let i3 := i2 + (if has 8 then 4 else 0)
    let base := if has 1 then h.num l 8 8 else if has 0x20000 then moof.start else prev.getD moof.start
    let dur := if has 8 then h.num l i2 4 else defs.1
    let size := if has 0x10 then h.num l i3 4 else defs.2
    let t : Int := match boxOf (fourcc 't' 'f' 'd' 't') bs with
      | some b => if b.num l 0 1 = 1 then (b.num l 4 8 : Int) else (b.num l 4 4 : Int)
      | none => next id
    ((bs.filter (fun b => b.kind == fourcc 't' 'r' 'u' 'n')).foldl
      (fun (a : Option (List ((Nat × Nat) × Int × Int × Nat) × Nat × Int)) b => a.bind (fun x =>
        (trunSamples l b base dur size x.2.1 x.2.2).map (fun y => (x.1 ++ y.1, y.2)))) (some ([], base, t))).map (fun y => (id, y))))

/-- The samples of a track in the fragments of a range, in order, going on from a decoding time. -/
def fragSamples (l : List Byte) (moov : List Box) (id : Nat) : List Box → Int → Option (List ((Nat × Nat) × Int × Int × Nat))
  | [], _ => some []
  | moof :: rest, t0 =>
    let step := fun (p : Option (List ((Nat × Nat) × Int × Int × Nat) × Option Nat × Int)) (tr : Box) => p.bind (fun q =>
      (trafSamples l moov moof q.2.1 (fun k => if k = id then q.2.2 else 0) tr).map (fun y =>
        if y.1 = id then (q.1 ++ y.2.1, some y.2.2.1, y.2.2.2) else (q.1, some y.2.2.1, q.2.2)))
    ((moof.inside l 0).bind (fun kids => (kids.filter (fun b => b.kind == fourcc 't' 'r' 'a' 'f')).foldl step (some ([], none, t0)))).bind
      (fun r => (fragSamples l moov id rest r.2.2).map (fun u => r.1 ++ u))

/-! ## Tracks and files -/

/-- The track with a track_ID: the boxes of its trak, none where there is none. -/
def trackOf (l : List Byte) (moov : List Box) (id : Nat) : Option Box :=
  moov.find? (fun b => b.kind == fourcc 't' 'r' 'a' 'k' && match b.child l (fourcc 't' 'k' 'h' 'd') with
    | some h => (if h.num l 0 1 = 1 then h.num l 20 4 else h.num l 12 4) == id
    | none => false)

/-- How reading a track ends. -/
inductive TrackRes where
  | drop (reason : Nat)
  | stream (s : EsStream)

/-- A selected track read (R318, R319): `field` is the codec the entry names, 0 for the container's. -/
def readTrack (l : List Byte) (moov moofs : List Box) (trak : Box) (id field : Nat) (video : Bool) : TrackRes :=
  let found := (trak.child l (fourcc 'm' 'd' 'i' 'a')).bind (fun mdia => (mdia.child l (fourcc 'm' 'd' 'h' 'd')).bind (fun mdhd =>
    ((mdia.child l (fourcc 'm' 'i' 'n' 'f')).bind (Box.child l (fourcc 's' 't' 'b' 'l'))).bind (fun st => (st.inside l 0).bind (fun stbl =>
      (boxOf (fourcc 's' 't' 's' 'd') stbl).bind (fun stsd => (stsd.inside l 8).bind (fun es => es.head?.map (fun e => (mdhd, stbl, e))))))))
  match found with
  | none => .drop dropContainer
  | some (mdhd, stbl, e) =>
    let scale := if mdhd.num l 0 1 = 1 then mdhd.num l 20 4 else mdhd.num l 12 4
    if e.kind = fourcc 'e' 'n' 'c' 'v' ∨ e.kind = fourcc 'e' 'n' 'c' 'a' then .drop dropProtected
    else match e.inside l (if video then videoEntryHead else audioEntryHead) with
      | none => .drop dropContainer
      | some kids =>
        let named := if video then videoEntryCodec l e kids else audioEntryCodec l e kids
        let codec := if field = 0 then named else field
        if codec = 0 ∨ scale = 0 then .drop dropContainer
        else match stblSamples l stbl with
          | none => .drop dropContainer
          | some xs =>
            let t := match xs.getLast? with | some x => x.2.1 + x.2.2.2 | none => 0
            match fragSamples l moov id moofs t with
            | none => .drop dropContainer
            | some ys => .stream { codec, config := (l.take e.stop).drop e.body, nclx := if video then nclxOf l kids else none
                                   units := unitsOf l scale xs ++ unitsOf l scale ys }

/-- An ISO base media file demultiplexed. -/
def demuxIso (e : Select) (l : List Byte) : Demuxed :=
  match boxesIn l true l.length (l.length / 8 + 1) 0 with
  | none => .drop dropContainer
  | some bs =>
    let first := (bs.head?.map (·.kind)).getD 0
    if first ≠ fourcc 'f' 't' 'y' 'p' ∧ first ≠ fourcc 'm' 'o' 'o' 'v' then .drop dropContainer
    else match (boxOf (fourcc 'm' 'o' 'o' 'v') bs).bind (Box.inside l 0) with
      | none => .drop dropContainer
      | some moov =>
        let moofs := bs.filter (fun b => b.kind == fourcc 'm' 'o' 'o' 'f')
        match trackOf l moov e.vsel with
        | none => .drop dropContainer
        | some vt => match readTrack l moov moofs vt e.vsel e.vcodec true with
          | .drop r => .drop r
          | .stream v =>
            if e.asel = 0 then .streams v none
            else match trackOf l moov e.asel with
              | none => .streams v none
              | some at_ => match readTrack l moov moofs at_ e.asel e.acodec false with
                | .drop r => .drop r
                | .stream a => .streams v (if a.units.isEmpty then none else some a)

end Sys2Proof.Machine
end

