-- ==== Sys2Proof/Machine/Pictures.lean ====
section
/-! DEFINITION. The video decode engines: the profiles they decode, the random access point, leading pictures, fields and frames and their
times (R320, R321, R323, R325 to R328). -/

namespace Sys2Proof.Machine

open Sys2Proof

/-- A decoded frame as a video engine hands it to the cutting stage, field pictures woven (R326, R327). -/
structure VFrame where
  /-- luma samples a line and frame lines, after the stream's cropping window -/
  w : Nat
  h : Nat
  /-- chroma format: 0 4:0:0, 1 4:2:0, 2 4:2:2 -/
  chroma : Nat := 1
  /-- chroma sample location the stream states, 0 where it states none (R329) -/
  loc : Nat := 0
  y : List Nat
  cb : List Nat := []
  cr : List Nat := []
  interlaced : Bool := false
  /-- the stream states bottom field first -/
  bff : Bool := false
  /-- presentation time and duration in 90 kHz ticks -/
  pts : Int := 0
  dur : Nat := 0
  /-- bit depth, matrix coefficients and full-range flag -/
  depth : Nat := 8
  matrix : Nat := 2
  full : Bool := false
  /-- place in decoding order of the last of its pictures -/
  last : Nat := 0
  deriving DecidableEq, Repr

/-! ## What an engine decodes (R320, R321) -/

/-- Whether a picture's profile, level, tier, bit depth and chroma format are among those of R320 for a codec. -/
def profileOk (codec : Nat) (p : CodedPic) : Bool :=
  let deep := p.depth == 8 || p.depth == 10
  match codec with
  | 1 => decide (p.level ≤ 4) && p.depth == 8 && match p.profile with
    | .h262Simple | .h262Main => p.chroma == 1
    | .h262P422 => p.chroma == 1 || p.chroma == 2
    | _ => false
  | 2 => decide (p.level ≤ 52) && deep && decide (p.chroma ≤ 2) && match p.profile with
    | .h264ConstrainedBaseline | .h264Main | .h264High | .h264High10 | .h264High422 | .h264High10Intra | .h264High422Intra => true
    | _ => false
  | 3 => decide (p.level ≤ 51) && deep && decide (p.chroma ≤ 2) && match p.profile with
    | .h265Main | .h265Main10 | .h265MainStill | .h265Main422x10 => true
    | _ => false
  | 4 => decide (p.level ≤ 51) && deep && decide (p.chroma ≤ 1) && p.profile == .av1Main
  | 5 => decide (p.level ≤ 51) && deep && decide (p.chroma ≤ 1) && !p.highTier && (p.profile == .h266Main10 || p.profile == .h266Main10Still)
  | _ => false

/-- Whether a picture uses nothing that R321 leaves out, a change of size apart. -/
def picSupported (codec : Nat) (p : CodedPic) : Bool :=
  profileOk codec p && !(codec == 2 && p.sliceOrder) && !(codec == 4 && p.largeTile)

/-- Whether two pictures of a list differ in size (R321). -/
def sizeChanges (ps : List CodedPic) : Bool :=
  match ps with
  | [] => false
  | p :: rest => rest.any (fun q => q.w != p.w || q.h != p.h)

/-! ## The random access point (R323) -/

/-- Whether a picture is a random access point. -/
def isRap (codec : Nat) (p : CodedPic) : Bool :=
  match codec with
  | 1 => p.seqHeader && p.intra
  | 2 => p.idr || (p.intra && p.recovery == some 0)
  | 4 => p.shownKey && p.seqHeader
  | _ => p.irap

/-- The pictures an engine decodes, in decoding order: of the base layer (R321), from the first random access point on, without the
pictures that reference one before it. -/
def decodedPics (codec : Nat) (ps : List CodedPic) : List CodedPic :=
  let base := if codec == 3 || codec == 5 then ps.filter (fun p => p.layer == 0) else ps
  match base.dropWhile (fun p => !isRap codec p) with
  | [] => []
  | r :: rest =>
    r :: (rest.takeWhile (fun p => !isRap codec p)).filter (fun p => !p.leading) ++ rest.dropWhile (fun p => !isRap codec p)

/-! ## Frames (R325 to R327) -/

/-- Whether the stream states that a frame's bottom field comes first (R327); AV1 pictures are progressive. -/
def statesBottom (codec : Nat) (p : CodedPic) : Bool :=
  match codec with
  | 1 => p.topFirst == some false
  | 2 => match p.counts with | some c => decide (c.2 < c.1) | none => false
  | 4 => false
  | _ => p.picStruct == some 4 || p.picStruct == some 6

/-- The lines of two fields woven into a frame plane of `w` samples a line and `h` lines. -/
def weave (w h : Nat) (top bottom : List Nat) : List Nat :=
  (List.range h).flatMap (fun l => (List.range w).map (fun x => (if l % 2 = 0 then top else bottom).getD (l / 2 * w + x) 0))

/-- Samples a line and lines of a chroma plane. -/
def chromaSize (chroma w h : Nat) : Nat × Nat := ((w + 1) / 2, if chroma = 1 then (h + 1) / 2 else h)

/-- A frame of one coded frame. -/
def frameOf (codec : Nat) (p : CodedPic) (ix : Nat) (t : Int) (dur : Nat) : VFrame :=
  { w := p.w, h := p.h, chroma := p.chroma, loc := p.loc, y := p.y, cb := p.cb, cr := p.cr, interlaced := codec != 4 && !p.progressive
    bff := statesBottom codec p, pts := t, dur, depth := p.depth, matrix := p.matrix, full := p.full, last := ix }

/-- A frame of two fields, the first in output order given first; a missing second field holds free samples (assumption 77). -/
def frameOfFields (codec : Nat) (p : CodedPic) (q : Option CodedPic) (ix : Nat) (t : Int) (dur : Nat) : VFrame :=
  let other := fun (plane : Nat) (f : CodedPic → List Nat) => match q with | some z => f z | none => Config.missingField (3 * p.order + plane)
  let c := chromaSize p.chroma p.w p.h
  let pair := fun (w h plane : Nat) (f : CodedPic → List Nat) =>
    if p.shape = .top then weave w h (f p) (other plane f) else weave w h (other plane f) (f p)
  { w := p.w, h := p.h, chroma := p.chroma, loc := p.loc, y := pair p.w p.h 0 (·.y)
    cb := if p.chroma = 0 then [] else pair c.1 c.2 1 (·.cb), cr := if p.chroma = 0 then [] else pair c.1 c.2 2 (·.cr)
    interlaced := codec != 4, bff := codec != 4 && p.shape == .bottom, pts := t, dur, depth := p.depth, matrix := p.matrix, full := p.full
    last := ix }

/-- The times of pictures in presentation order: that of the unit a picture leads, where it states one, else the time of the picture before
plus its duration. -/
def timesFrom (units : List EsUnit) : Nat → Option Int → List CodedPic → List Int
  | _, _, [] => []
  | k, prev, p :: rest =>
    let u := units.getD p.unit {}
    let own := if p.leads then u.pts else none
    let t := match own with | some x => x | none => prev.getD (Config.unstatedTime k)
    t :: timesFrom units (k + 1) (some (t + (u.dur.getD p.dur : Nat))) rest

/-- Frames of pictures in presentation order, each with its place in decoding order and its time: consecutive field pictures are paired
(R327). -/
def framesOf (codec : Nat) (units : List EsUnit) : Nat → List (CodedPic × Nat × Int) → List VFrame
  | 0, _ => []
  | _, [] => []
  | fuel + 1, (p, i, t) :: rest =>
    let dur := (units.getD p.unit {}).dur.getD p.dur
    match p.shape with
    | .frame => frameOf codec p i t dur :: framesOf codec units fuel rest
    | _ => match rest with
      | [] => [frameOfFields codec p none i t dur]
      | (q, k, _) :: more =>
        if q.shape ≠ .frame ∧ q.shape ≠ p.shape then
          let both := if q.unit = p.unit then dur else match (units.getD q.unit {}).dur with | some d => dur + d | none => dur
          frameOfFields codec p (some q) (max i k) t both :: framesOf codec units fuel more
        else frameOfFields codec p none i t dur :: framesOf codec units fuel rest

/-- The frames of decoded pictures in presentation order. -/
def presentFrames (codec : Nat) (units : List EsUnit) (ps : List CodedPic) : List VFrame :=
  let shown := ps.zipIdx.insertionSort (fun a b => a.1.order ≤ b.1.order)
  let times := timesFrom units 0 none (shown.map (·.1))
  framesOf codec units (shown.length + 1) ((shown.zip times).map (fun x => (x.1.1, x.1.2, x.2)))

end Sys2Proof.Machine
end

