-- ==== Sys2Proof/Machine/Sound.lean ====
section
/-! DEFINITION. The audio engine: the streams it decodes, the window of a clip and its mel features (R322, R325, R333). Filters, window,
transform and logarithm are free functions where R333 names them and gives no values (assumption 79). -/

namespace Sys2Proof.Machine

open Sys2Proof

/-- The audio features of one clip: the values of step 6 of R333, frame by frame (R325), and what its decoder met. -/
structure ClipAudio where
  mel : List W32
  short : Bool := false
  violation : Bool := false
  deriving DecidableEq, Repr

/-- Whether the audio engine decodes a frame of a codec (R322). -/
def audioOk (codec : Nat) (f : AudioFrame) : Bool :=
  match codec with
  | 1 => if f.mpeg1 then [32000, 44100, 48000].contains f.rate else [16000, 22050, 24000].contains f.rate
  | 2 => f.aacLc && decide (1 ≤ f.chanConfig) && decide (f.chanConfig ≤ 7)
  | _ => false

/-- The times of coded frames in ticks times `rate`: that of the unit a frame leads, where it states one, else the end of the frame
before. -/
def audioTimes (units : List EsUnit) (rate : Nat) : Nat → Option Int → List AudioFrame → List Int
  | _, _, [] => []
  | k, prev, f :: rest =>
    let own := if f.leads then (units.getD f.unit {}).pts else none
    let t := match own with | some x => x * rate | none => prev.getD (Config.unstatedTime k * rate)
    t :: audioTimes units rate (k + 1) (some (t + (90000 * f.samples : Nat))) rest

/-- The frame and the sample in it that lie at a time, the first at or after it. -/
def sampleAt (fs : List (AudioFrame × Int)) (t : Int) : Option (Nat × Nat) :=
  let hit := fun (x : AudioFrame × Int) => decide (x.2 - 90000 < t ∧ t ≤ x.2 + 90000 * ((x.1.samples : Int) - 1))
  match fs.findIdx? hit with
  | none => none
  | some i => (fs[i]?).map (fun x => (i, (-((x.2 - t) / 90000)).toNat))

/-- The channels of an output sample combined (R333 step 1): AMODE 0 averages all but LFE, AMODE 1 takes the first. -/
def combineChannels (first : Bool) (lfe : Option Nat) (cs : List W32) : W32 :=
  if first then cs.headD 0
  else
    let xs := (cs.zipIdx.filter (fun c => lfe != some c.2)).map (·.1)
    f32div (match xs with | [] => 0 | x :: rest => rest.foldl f32add x) (f32ofInt xs.length)

/-- 10^-10 in FP32. -/
def melFloor : W32 := 0x2EDBE6FF
/-- ln(10^-10) in FP32: the feature of zero input (R325, R333). -/
def silentMel : W32 := 0xC1B834F1

/-- The features of one frame of 400 samples (R333 steps 3 to 6). -/
def melFrame (nMel : Nat) (xs : List W32) : List W32 :=
  let w := xs.zipIdx.map (fun x => f32mul x.1 (Config.hann x.2)) ++ List.replicate 112 0
  let p := if xs.all (fun x => x == 0) then List.replicate 257 0 else Config.fftPower w
  (List.range nMel).map (fun j =>
    let e := p.zipIdx.foldl (fun (acc : W32) b => f32add acc (f32mul b.1 (Config.melWeight nMel j b.2))) 0
    if f32less melFloor e then Config.lnMel e else silentMel)

/-- Samples at 16,000 Hz that the features of `m` frames use. -/
def melSamples (m : Nat) : Nat := 160 * (m - 1) + 400

/-- The audio of a clip that starts at a time: its window, decoding from two frames before, and its features (R325, R333). `m` is the
number of feature frames. -/
def clipAudio (codec : Nat) (config : List Byte) (units : List EsUnit) (frames : List AudioFrame) (first : Bool) (m nMel : Nat) (start : Int) :
    ClipAudio :=
  let rate := (frames.head?.map (·.rate)).getD 1
  let fs := frames.zip (audioTimes units rate 0 none frames)
  let n := if m = 0 then 0 else (melSamples m * rate + 15999) / 16000
  let places := (List.range n).map (fun i => sampleAt fs (start * rate + (90000 * i : Nat)))
  let used := places.filterMap (fun p => p.map (·.1))
  match used.head?, used.getLast? with
  | some lo, some hi =>
    let lead := lo - 2
    let pcm := Config.audioPcm codec config (((frames.drop lead).take (hi + 1 - lead)).map (·.data))
    let xs := places.map (fun p => match p with
      | none => 0
      | some (i, k) => combineChannels first ((frames[i]?).bind (·.lfe)) ((pcm.getD (i - lead) []).map (fun c => c.getD k 0)))
    let y := Config.resampleAudio (melSamples m) rate xs
    { mel := (List.range m).flatMap (fun q => melFrame nMel ((List.range 400).map (fun i => y.getD (160 * q + i) 0)))
      short := places.any (·.isNone), violation := ((frames.drop lead).take (hi + 1 - lead)).any (·.violation) }
  | _, _ => { mel := List.replicate (m * nMel) silentMel, short := m != 0 }

end Sys2Proof.Machine
end

