-- ==== Sys2Proof/Machine/Cut.lean ====
section
/-! DEFINITION. The ingest job record, the sample table, the keyed permutation and the cutting stage of the Cutting Room (R313, R315, R319 to
R337, R342). -/

namespace Sys2Proof.Machine

open Sys2Proof

/-! ## The job record (R313) -/

/-- N. -/
def ijN (r : Nat) : Nat := recField r 0 4
/-- REPLICA. -/
def ijReplica (r : Nat) : Nat := recField r 4 2
/-- REPLICAS. -/
def ijReplicas (r : Nat) : Nat := recField r 6 2
/-- SEED. -/
def ijSeed (r : Nat) : Nat := recField r 8 8
/-- TABLE. -/
def ijTable (r : Nat) : Nat := recField r 0x10 8
/-- START_POS. -/
def ijStart (r : Nat) : Nat := recField r 0x18 4
/-- COUNT. -/
def ijCount (r : Nat) : Nat := recField r 0x1C 4
/-- WORK. -/
def ijWork (r : Nat) : Nat := recField r 0x20 8
/-- FETCH. -/
def ijFetch (r : Nat) : Nat := recField r 0x28 8
/-- POOL. -/
def ijPool (r : Nat) : Nat := recField r 0x30 8
/-- EMIT. -/
def ijEmit (r : Nat) : Nat := recField r 0x38 8
/-- STATE. -/
def ijState (r : Nat) : Nat := recField r 0x40 8
/-- READY. -/
def ijReady (r : Nat) : Nat := bitsOf (recField r 0x48 8) 0 39
/-- FREE. -/
def ijFree (r : Nat) : Nat := bitsOf (recField r 0x50 8) 0 39
/-- RESULT. -/
def ijResult (r : Nat) : Nat := recField r 0x58 8
/-- SLOT_BYTES. -/
def ijSlotBytes (r : Nat) : Nat := recField r 0x60 4
/-- SLOTS. -/
def ijSlots (r : Nat) : Nat := recField r 0x64 2
/-- WINDOW. -/
def ijWindow (r : Nat) : Nat := recField r 0x66 2
/-- EMIT_LOG2. -/
def ijEmitLog (r : Nat) : Nat := bitsOf (recField r 0x68 4) 0 5
/-- OUT_W. -/
def ijOutW (r : Nat) : Nat := recField r 0x78 2
/-- OUT_H. -/
def ijOutH (r : Nat) : Nat := recField r 0x7A 2
/-- PATCH_W. -/
def ijPatchW (r : Nat) : Nat := recField r 0x7C 1
/-- PATCH_H. -/
def ijPatchH (r : Nat) : Nat := recField r 0x7D 1
/-- PATCH_T. -/
def ijPatchT (r : Nat) : Nat := bitsOf (recField r 0x7E 1) 0 3
/-- FRAMES. -/
def ijFrames (r : Nat) : Nat := recField r 0x80 2
/-- FSTRIDE. -/
def ijStride (r : Nat) : Nat := recField r 0x82 1
/-- The word of modes at 0x084. -/
def ijModes (r : Nat) : Nat := recField r 0x84 4
/-- INTERLACE. -/
def ijInterlace (r : Nat) : Nat := bitsOf (ijModes r) 0 2
/-- FIELD_ORDER. -/
def ijOrder (r : Nat) : Nat := bitsOf (ijModes r) 2 2
/-- MATRIX. -/
def ijMatrix (r : Nat) : Nat := bitsOf (ijModes r) 4 2
/-- RANGE. -/
def ijRange (r : Nat) : Nat := bitsOf (ijModes r) 6 2
/-- FILTER. -/
def ijFilter (r : Nat) : Nat := bitsOf (ijModes r) 8 2
/-- YCC. -/
def ijYcc (r : Nat) : Bool := bitOf (ijModes r) 10
/-- OUT_FMT. -/
def ijFmt (r : Nat) : Nat := bitsOf (ijModes r) 11 4
/-- Whether a share takes part. -/
def ijShare (r share : Nat) : Bool := bitOf (ijModes r) (15 + share)
/-- FLUSH. -/
def ijFlush (r : Nat) : Bool := bitOf (ijModes r) 17
/-- AUD_MS. -/
def ijAudMs (r : Nat) : Nat := recField r 0xA0 2
/-- N_MEL. -/
def ijMel (r : Nat) : Nat := recField r 0xA2 1
/-- AMODE: the first channel only. -/
def ijFirstChannel (r : Nat) : Bool := bitOf (recField r 0xA0 4) 28
/-- AF. -/
def ijAf (r : Nat) : Nat := bitsOf (recField r 0xA3 1) 0 4

/-- The replica's position count (R336). -/
def ijPositions (r : Nat) : Nat := if ijReplica r < ijN r then (ijN r - 1 - ijReplica r) / ijReplicas r + 1 else 0

/-- Bytes of an output element. -/
def ijElem (r : Nat) : Nat := if ijFmt r = 1 then 2 else 1
/-- VTOKENS (R335). -/
def ijVTokens (r : Nat) : Nat := ijFrames r / ijPatchT r * (ijOutH r / ijPatchH r) * (ijOutW r / ijPatchW r)
/-- Bytes of a video token (R335). -/
def ijV (r : Nat) : Nat := ijPatchT r * ijPatchH r * ijPatchW r * 3 * ijElem r
/-- ATOKENS (R335). -/
def ijATokens (r : Nat) : Nat := ijAudMs r / 10 / ijAf r
/-- Bytes of an audio token (R335). -/
def ijA (r : Nat) : Nat := ijAf r * ijMel r * ijElem r
/-- The record size (R335). -/
def ijRecord (r : Nat) : Nat := 64 + ijVTokens r * ijV r + ijATokens r * ijA r

/-- A patch side of R313. -/
def patchOk (n : Nat) : Bool := n == 8 || n == 16 || n == 32

/-- ILLEGAL_OPCODE conditions (R314). -/
def ijIllegal (r : Nat) : Bool :=
  ijOrder r == 3 || ijRange r == 3 || ijFilter r == 3 || !([1, 3, 4].contains (ijFmt r))

/-- SHAPE_FAULT conditions (R314). -/
def ijShape (r : Nat) : Bool :=
  let side := fun (out patch : Nat) => !patchOk patch || decide (out < 8) || decide (4096 < out) || out % max 1 patch != 0
  ijN r == 0 || ijReplicas r == 0 || ijCount r == 0 || ijStride r == 0 || decide (ijReplicas r ≤ ijReplica r) ||
    decide (ijPositions r ≤ ijStart r) || side (ijOutW r) (ijPatchW r) || side (ijOutH r) (ijPatchH r) ||
    !([1, 2, 4].contains (ijPatchT r)) || ijFrames r == 0 || decide (256 < ijFrames r) || ijFrames r % max 1 (ijPatchT r) != 0 ||
    decide (ijSlots r < 2) || ijWindow r == 0 || decide (ijSlots r ≤ ijWindow r) || decide (ijEmitLog r < 4) || decide (16 < ijEmitLog r) ||
    ijAudMs r % 10 != 0 || decide (10000 < ijAudMs r) || ijMel r == 0 || decide (128 < ijMel r) || ijAf r == 0 || decide (8 < ijAf r) ||
    ijAudMs r / 10 % max 1 (ijAf r) != 0 || decide (ijSlotBytes r < ijRecord r) || (!ijShare r 0 && !ijShare r 1)

/-- STREAM_MISALIGNED conditions (R314); `va` is the address of the record. -/
def ijMisaligned (r va : Nat) : Bool :=
  va % 256 != 0 || ijTable r % 32 != 0 || ijWork r % 65536 != 0 || ijFetch r % 256 != 0 || ijPool r % 256 != 0 || ijEmit r % 256 != 0 ||
    ijState r % 256 != 0 || ijResult r % 64 != 0 || ijSlotBytes r % 256 != 0

/-- A reserved bit of the record that is set (R16, R504). -/
def ijReserved (r : Nat) : Bool :=
  bitsOf r (8 * 0x68 + 5) 27 != 0 || recField r 0x6C 4 != 0 || bitsOf r (8 * 0x7C + 19) 13 != 0 || recField r 0x83 1 != 0 ||
    ijModes r / 2 ^ 18 != 0 || bitsOf r (8 * 0xA0 + 29) 3 != 0 || recField r 0xAC 84 != 0

/-- The cause of R314, 0 for none. -/
def ijCheck (r va : Nat) : Nat := if ijIllegal r then 7 else if ijShape r then 1 else if ijMisaligned r va then 0xA else 0

/-! ## Table entries (R315) -/

/-- LENGTH of a table entry. -/
def teLength (e : Nat) : Nat := recField e 0x10 4
/-- NODE. -/
def teNode (e : Nat) : Nat := bitsOf (recField e 0x14 4) 0 14
/-- KIND. -/
def teKind (e : Nat) : Nat := bitsOf (recField e 0x14 4) 14 2
/-- SKIP. -/
def teSkip (e : Nat) : Nat := recField e 0x18 2
/-- CLIPS. -/
def teClips (e : Nat) : Nat := bitsOf (recField e 0x1A 2) 0 7
/-- ASEL. -/
def teAsel (e : Nat) : Nat := recField e 0x1E 2

/-- CONTAINER: ISO BMFF. -/
def teIso (e : Nat) : Bool := bitsOf (recField e 0x14 4) 16 2 == 1
/-- VCODEC, ACODEC, VSEL and ASEL. -/
def teSelect (e : Nat) : Select :=
  { vcodec := bitsOf (recField e 0x14 4) 18 3, acodec := bitsOf (recField e 0x14 4) 21 2, vsel := recField e 0x1C 2, asel := teAsel e }

/-- A reserved bit field of an entry that is set (R16, R315). -/
def teReserved (e : Nat) : Bool := bitsOf (recField e 0x14 4) 23 9 != 0 || bitsOf (recField e 0x18 4) 23 9 != 0

/-- Whether an entry drops its sample with reason ENTRY (R315). -/
def teBad (r e : Nat) : Bool :=
  let w := recField e 0x14 4
  decide (1 < teKind e) || decide (1 < bitsOf w 16 2) || decide (5 < bitsOf w 18 3) || bitsOf w 21 2 == 3 || recField e 0x1C 2 == 0 ||
    teLength e == 0 || teClips e == 0 || decide (64 < teClips e) || decide (ijSlots r - ijWindow r < teClips e)

/-! ## The keyed permutation (R337) -/

/-- Bits needed to write a number, 0 for 0. -/
def bitLen (n : Nat) : Nat := if n = 0 then 0 else Nat.log2 n + 1

/-- Half the width of the network. -/
def feistelHalf (n : Nat) : Nat := max 1 (ceilDiv (bitLen (n - 1)) 2)

/-- One pass of the four rounds on 2h bits. -/
def permute (seed h x : Nat) : Nat :=
  let r := (List.range 4).foldl (fun (p : Nat × Nat) i =>
    let f := (p.2 + bitsOf seed (16 * i) 16) * 0x9E3779B1 % 2 ^ 32 / 2 ^ (32 - h)
    (p.2, p.1 ^^^ f)) (x / 2 ^ h, x % 2 ^ h)
  r.1 * 2 ^ h + r.2

/-- Walks the cycle until the value lies below `n`; `fuel` bounds the walk by the domain. -/
def walkBelow (seed h n : Nat) : Nat → Nat → Nat
  | 0, x => x
  | fuel + 1, x => if x < n then x else walkBelow seed h n fuel (permute seed h x)

/-- The sample at epoch index `j`: the permutation of R337. -/
def samplePi (seed n j : Nat) : Nat :=
  let h := feistelHalf n
  walkBelow seed h n (2 ^ (2 * h)) (permute seed h j)

/-! ## Pictures (R324 to R328) -/

/-- A picture the cutting stage sees: a frame, or one of its fields. -/
structure Pic where
  frame : VFrame
  /-- frame line of the picture's line 0, and frame lines from one of its lines to the next -/
  par : Nat := 0
  step : Nat := 1
  pts : Int := 0
  deriving DecidableEq, Repr

/-- Whether the bottom field comes first in time (R327). -/
def bottomFirst (r : Nat) (f : VFrame) : Bool := if ijOrder r = 0 then f.bff else ijOrder r == 2

/-- The pictures of a frame under INTERLACE (R325, R326). -/
def picsOf (r : Nat) (f : VFrame) : List Pic :=
  let top : Pic := { frame := f, par := 0, step := 2, pts := f.pts }
  let bot : Pic := { frame := f, par := 1, step := 2, pts := f.pts }
  match ijInterlace r with
  | 0 => [{ frame := f, pts := f.pts }]
  | 1 =>
    let late := fun (p : Pic) => { p with pts := f.pts + (f.dur / 2 : Nat) }
    if bottomFirst r f then [bot, late top] else [top, late bot]
  | 2 => [if bottomFirst r f then { top with pts := f.pts + (f.dur / 2 : Nat) } else top]
  | _ => [if bottomFirst r f then bot else { bot with pts := f.pts + (f.dur / 2 : Nat) }]

/-- Every `k`-th element of a list, from the first. -/
def everyKth {α : Type} (k : Nat) (l : List α) : List α :=
  (l.zipIdx.filter (fun p => p.2 % k == 0)).map (·.1)

/-- The complete clips of a sample: SKIP pictures discarded, every FSTRIDE-th taken, FRAMES to a clip (R323, R324). -/
def clipsOf (r e : Nat) (frames : List VFrame) : List (List Pic) :=
  let taken := everyKth (max 1 (ijStride r)) ((frames.flatMap (picsOf r)).drop (teSkip e))
  (List.range (min (teClips e) (taken.length / max 1 (ijFrames r)))).map (fun c => (taken.drop (c * ijFrames r)).take (ijFrames r))

/-! ## Resampling (R329 steps 2 to 4, R330) -/

/-- The FP32 value nearest to a fraction. -/
def f32frac (n : Int) (d : Nat) : W32 :=
  let a := n.natAbs * 2 ^ 80
  f32of (.fin (decide (n < 0)) (2 * (a / d) + b2n (a % d != 0)) (-81))

/-- A list in the order a number names: its remainders choose the places. -/
def arrange {α : Type} : Nat → Nat → List α → List α
  | 0, _, l => l
  | _, _, [] => []
  | fuel + 1, k, x :: rest =>
    let l := x :: rest
    (l.getD (k % l.length) x) :: arrange fuel (k / l.length) (l.eraseIdx (k % l.length))

/-- A weighted sum in FP32: taps of a value and a weight as a fraction, in the order and with the rounding of the products that a plan
names. -/
def addUp (plan : Nat) (l : List (W32 × Int × Nat)) : W32 :=
  match arrange l.length (plan / 2) l with
  | [] => 0
  | x :: rest => rest.foldl (fun acc t => if plan % 2 = 0 then f32add acc (f32mul t.1 (f32frac t.2.1 t.2.2)) else
      f32fma t.1 (f32frac t.2.1 t.2.2) acc) (f32mul x.1 (f32frac x.2.1 x.2.2))

/-- The weighted sum of taps on two axes, each row with its weight, each of its taps with a value and a weight (R329, R330). Which axis comes
first, or both at once, and the order within are free (assumption 16). -/
def tapSum (rows : List ((Int × Nat) × List (W32 × Int × Nat))) : W32 :=
  let all := rows.map (fun r => r.2.map (fun t => (t.1, r.1.1 * t.2.1, r.1.2 * t.2.2)))
  let plan := Config.tapPlan all
  let k := plan / 3
  match plan % 3 with
  | 0 => addUp k all.flatten
  | 1 => addUp k (rows.map (fun r => (addUp k r.2, r.1.1, r.1.2)))
  | _ =>
    let width := (rows.head?.map (fun r => r.2.length)).getD 0
    addUp k ((List.range width).map (fun c =>
      let col := rows.map (fun r => ((r.2.getD c (0, 0, 1)).1, r.1.1, r.1.2))
      let w := ((rows.head?.bind (fun r => r.2[c]?)).getD (0, 0, 1)).2
      (addUp k col, w)))

/-- CROP_X, CROP_Y, CROP_W and CROP_H for a frame, 0 sizes taking the rest. -/
def cropOf (r : Nat) (f : VFrame) : Nat × Nat × Nat × Nat :=
  let x := recField r 0x70 2
  let y := recField r 0x72 2
  let w := recField r 0x74 2
  let h := recField r 0x76 2
  (x, y, if w = 0 then f.w - x else w, if h = 0 then f.h - y else h)

/-- Whether the crop lies within the frame and is not empty. -/
def cropOk (r : Nat) (f : VFrame) : Bool :=
  let (x, y, w, h) := cropOf r f
  decide (x + w ≤ f.w ∧ y + h ≤ f.h ∧ 0 < w ∧ 0 < h)

/-- An index clamped to [lo, hi]. -/
def clampIx (i : Int) (lo hi : Nat) : Nat := if i < lo then lo else if (hi : Int) < i then hi else i.toNat

/-- The chroma sample location of a type: horizontal and vertical offset in half luma samples. -/
def chromaLoc : Nat → Nat × Nat
  | 0 => (0, 1) | 1 => (1, 1) | 2 => (0, 0) | 3 => (1, 0) | 4 => (0, 2) | _ => (1, 2)

/-- The two bilinear taps at position `q` / 4 of an axis of `n` samples: index and weight in quarters. -/
def lerpTaps (q : Int) (n : Nat) : List (Nat × Nat) :=
  let i := q / 4
  let f := (q % 4).toNat
  [(clampIx i 0 (n - 1), 4 - f), (clampIx (i + 1) 0 (n - 1), f)].filter (fun t => t.2 != 0)

/-- Chroma at luma position (x, l) of a picture, bilinear at the stream's sample location (R329 step 2). -/
def chromaAt (p : Pic) (plane : List Nat) (x l : Nat) : W32 :=
  let f := p.frame
  if f.chroma = 0 then 0
  else
    let cw := (f.w + 1) / 2
    let rows := if f.chroma = 1 then (f.h + 1) / 2 else f.h
    let lines := (rows - p.par + p.step - 1) / p.step
    let loc := chromaLoc f.loc
    let xs := lerpTaps (2 * x - loc.1) cw
    let ys := if f.chroma = 1 then lerpTaps (2 * l - loc.2) lines else [(l, 4)]
    tapSum (ys.map (fun a => (((a.2 : Int), 4), xs.map (fun b =>
      (f32ofInt (plane.getD ((p.par + p.step * a.1) * cw + b.1) 0), (b.2 : Int), 4)))))

/-- The taps of one axis (R330) for an output at `n` / `d` source samples, with `g` source samples to `d` / 1 of an output step:
indices before clamping, with weights as fractions of the second component. The weights of an axis add up to one, so that a picture of one
value keeps it (assumption 16). -/
def axisTaps (filter : Nat) (n : Int) (d g : Nat) : List (Int × Int × Nat) :=
  let shrink := d < g
  let s := max g d
  let span := 2 * s / d + 2
  let mid := n / (d : Int)
  let ix := (List.range (2 * span + 1)).map (fun (i : Nat) => mid - span + (i : Int))
  let dist := fun (i : Int) => (i * d - n).natAbs
  let kernel := match filter with
    | 1 => fun (i : Int) =>
      let a : Int := dist i
      let S : Int := s
      if a < S then 3 * a ^ 3 - 5 * a ^ 2 * S + 2 * S ^ 3
      else if a < 2 * S then -(a ^ 3) + 5 * a ^ 2 * S - 8 * a * S ^ 2 + 4 * S ^ 3 else 0
    | 2 => fun (i : Int) =>
      if shrink then max 0 (min (2 * n + s) ((2 * i + 1) * d) - max (2 * n - s) ((2 * i - 1) * d))
      else max 0 ((s : Int) - dist i)
    | _ => fun (i : Int) => max 0 ((s : Int) - dist i)
  let taps : List (Int × Int) := (ix.map (fun i => (i, kernel i))).filter (fun t => t.2 != 0)
  let den := (taps.map (fun (t : Int × Int) => t.2)).sum.toNat
  taps.map (fun t => (t.1, t.2, den))

/-- The column taps of output column `x`: source columns inside the crop. -/
def colTaps (r : Nat) (f : VFrame) (x : Nat) : List (Nat × Int × Nat) :=
  let (cx, _, cw, _) := cropOf r f
  let ow := ijOutW r
  let n : Int := (2 * cx * ow + (2 * x + 1) * cw : Nat) - (ow : Int)
  (axisTaps (ijFilter r) n (2 * ow) (2 * cw)).map (fun t => (clampIx t.1 cx (cx + cw - 1), t.2))

/-- The row taps of output row `y`: lines of the picture inside the crop, in its own line numbers. -/
def rowTaps (r : Nat) (p : Pic) (y : Nat) : List (Nat × Int × Nat) :=
  let (_, cy, _, ch) := cropOf r p.frame
  let oh := ijOutH r
  let n : Int := (2 * cy * oh + (2 * y + 1) * ch : Nat) - (oh : Int) - (2 * oh * p.par : Nat)
  let lo := (cy - p.par + p.step - 1) / p.step
  let hi := (cy + ch - 1 - p.par) / p.step
  (axisTaps (ijFilter r) n (2 * oh * p.step) (2 * ch)).map (fun t => (clampIx t.1 lo hi, t.2))

/-- A plane's value at output pixel (x, y), resized (R330). -/
def resized (r : Nat) (p : Pic) (at_ : Nat → Nat → W32) (x y : Nat) : W32 :=
  tapSum ((rowTaps r p y).map (fun a => (a.2, (colTaps r p.frame x).map (fun b => (at_ b.1 a.1, b.2)))))

/-! ## Colour, normalisation and packing (R329 steps 5 to 7, R331, R332) -/

/-- The matrix used: 1 BT.601, 2 BT.709, 3 BT.2020, from the stream's code and the frame lines; none for a stream whose code drops the
sample (R331). -/
def matrixOf (r code lines : Nat) : Option Nat :=
  if ijMatrix r ≠ 0 then some (ijMatrix r)
  else match code with
    | 1 => some 2 | 5 => some 1 | 6 => some 1 | 9 => some 3 | 10 => none
    | _ => some (if lines ≤ 576 then 1 else 2)

/-- Whether the samples are full range, from the codec and the stream's flag (R331). -/
def fullRange (r codec : Nat) (flag : Bool) : Bool := if ijRange r = 1 then false else if ijRange r = 2 then true else codec != 1 && flag

/-- Kr and Kb in ten-thousandths. -/
def krkb : Nat → Nat × Nat
  | 2 => (2126, 722) | 3 => (2627, 593) | _ => (2990, 1140)

/-- The three channel values of R331 from sample values of depth `n`. -/
def channels (r m n : Nat) (full : Bool) (y cb cr : W32) : List W32 :=
  let e := 2 ^ (n - 8)
  let c := fun (k : Nat) => f32ofInt (k : Int)
  let ly := if full then f32div y (c (2 ^ n - 1)) else f32div (f32sub y (c (16 * e))) (c (219 * e))
  let lc := fun (v : W32) => if full then f32div (f32sub v (c (2 ^ (n - 1)))) (c (2 ^ n - 1))
    else f32div (f32sub v (c (128 * e))) (c (224 * e))
  let b := lc cb
  let d := lc cr
  if ijYcc r then [ly, b, d]
  else
    let (kr, kb) := krkb m
    let red := f32add ly (f32mul (f32frac (2 * (10000 - kr)) 10000) d)
    let blue := f32add ly (f32mul (f32frac (2 * (10000 - kb)) 10000) b)
    let green := f32div (f32sub (f32sub ly (f32mul (f32frac kr 10000) red)) (f32mul (f32frac kb 10000) blue))
      (f32frac (10000 - kr - kb) 10000)
    [red, green, blue]

/-- The output element format. -/
def ijOut (r : Nat) : ElemFmt := (ElemFmt.ofCode (ijFmt r)).getD .bf16

/-- A value normalised and converted: the code, and whether it counts in SAT (R329 steps 6 and 7). -/
def normConv (r : Nat) (mean inv x : W32) : Nat × Nat :=
  let c := convert (ijOut r) .near false false (f32v (f32mul (f32sub x mean) inv))
  (c.code, b2n (c.sat || c.nf))

/-- MEAN and INVSTD of a channel. -/
def ijNorm (r c : Nat) : W32 × W32 :=
  (BitVec.ofNat 32 (recField r (0x88 + 4 * c) 4), BitVec.ofNat 32 (recField r (0x94 + 4 * c) 4))

/-- The three codes of an output pixel with their SAT counts. -/
def pixelCodes (r m depth : Nat) (full : Bool) (p : Pic) (x y : Nat) : List (Nat × Nat) :=
  let f := p.frame
  let ly := resized r p (fun a l => f32ofInt (f.y.getD ((p.par + p.step * l) * f.w + a) 0)) x y
  let mono := f.chroma == 0
  let mid := if full then 2 ^ (depth - 1) else 128 * 2 ^ (depth - 8)
  let cb := if mono then f32ofInt (mid : Nat) else resized r p (chromaAt p f.cb) x y
  let cr := if mono then f32ofInt (mid : Nat) else resized r p (chromaAt p f.cr) x y
  (channels r m depth full ly cb cr).zipIdx.map (fun q => normConv r (ijNorm r q.2).1 (ijNorm r q.2).2 q.1)

/-- The video elements of a clip in record order (R332). -/
def videoCodes (r m depth : Nat) (full : Bool) (clip : List Pic) : List (Nat × Nat) :=
  let pt := ijPatchT r
  let ph := ijPatchH r
  let pw := ijPatchW r
  (List.range (ijFrames r / pt)).flatMap (fun tp => (List.range (ijOutH r / ph)).flatMap (fun py =>
    (List.range (ijOutW r / pw)).flatMap (fun px => (List.range pt).flatMap (fun dt => (List.range ph).flatMap (fun dy =>
      (List.range pw).flatMap (fun dx =>
        match clip[tp * pt + dt]? with
        | some p => pixelCodes r m depth full p (px * pw + dx) (py * ph + dy)
        | none => []))))))

/-- The audio elements of a clip in record order (R333); none stands for zero input (R325). -/
def audioCodes (r : Nat) (a : Option ClipAudio) : List (Nat × Nat) :=
  let n := ijATokens r * ijAf r * ijMel r
  let mel := match a with | some x => (List.range n).map (fun i => x.mel.getD i silentMel) | none => List.replicate n silentMel
  mel.map (normConv r (BitVec.ofNat 32 (recField r 0xA4 4)) (BitVec.ofNat 32 (recField r 0xA8 4)))

/-- What the cutting stage knows of a sample beside its pictures: the codec, whether it held an interlaced picture, its first frame, the
matrix and range used, and the audio of each clip where audio was decoded. -/
structure Cutting where
  codec : Nat
  interlaced : Bool := false
  head : VFrame
  matrix : Nat
  full : Bool := false
  sound : Option (List ClipAudio) := none
  deriving DecidableEq, Repr

/-- The record of clip `k` of a sample (R334, R335). -/
def clipRecord (r index pos k : Nat) (d : Cutting) (clip : List Pic) : List Byte :=
  let f := d.head
  let sound := d.sound.map (fun l => l.getD k { mel := [], short := true })
  let codes := videoCodes r d.matrix f.depth d.full clip ++ audioCodes r sound
  let sat := (codes.map (·.2)).sum
  let flags := b2n d.interlaced + 2 * b2n (bottomFirst r f) + 4 * b2n sound.isSome +
    8 * b2n (match sound with | some a => a.short | none => false) + 16 * d.matrix + 64 * b2n d.full + 128 * (d.codec % 8) +
    1024 * b2n (f.depth == 10)
  natLE 4 index ++ natLE 4 pos ++ natLE 4 (k + 2 ^ 16 * ijReplica r) ++ natLE 4 (ijSeed r) ++
    natLE 8 ((((clip.head?.map Pic.pts).getD 0) % 2 ^ 33).toNat) ++ natLE 4 (ijVTokens r) ++ natLE 4 (ijATokens r) ++
    natLE 4 (f.w + 2 ^ 16 * f.h) ++ natLE 4 flags ++ natLE 4 (min sat 0xFFFFFFFF) ++ natLE 20 0 ++
    codes.flatMap (fun c => natLE (ijElem r) c.1)

/-! ## A whole sample (R319 to R325, R342) -/

/-- What the engines of a share make of a sample: reasons for which it is dropped, or the records of its clips. -/
inductive CutRes where
  | drops (reasons : List Nat)
  | records (l : List (List Byte))
  deriving DecidableEq, Repr

/-- The pictures an engine decodes before it stops: all up to the last one a clip uses, the whole range where clips are missing (R324). -/
def decodedUntil (e : Nat) (pics : List CodedPic) (clips : List (List Pic)) : Nat :=
  if clips.length < teClips e then pics.length else ((clips.flatten).map (fun (p : Pic) => p.frame.last)).foldl max 0 + 1

/-- A selected video stream and the audio found, decoded and cut (R320 to R335): the reasons of R342 that hold, or the records. -/
def cutStreams (r e index pos : Nat) (v : EsStream) (a : Option EsStream) : CutRes :=
  let pics := if v.units.isEmpty then [] else decodedPics v.codec (Config.videoPics v.codec v.config v.units)
  let frames := presentFrames v.codec v.units pics
  let clips := clipsOf r e frames
  let n := decodedUntil e pics clips
  let done := pics.take n
  let seen := frames.filter (fun f => decide (f.last < n))
  let head := (seen.head?).getD { w := 0, h := 0, y := [] }
  let afs := match a with | some x => Config.audioFrames x.codec x.config x.units | none => []
  let sound := match a with
    | some x => if afs.isEmpty then none else some (clips.map (fun c =>
        clipAudio x.codec x.config x.units afs (ijFirstChannel r) (ijAudMs r / 10) (ijMel r) ((c.head?.map (fun (p : Pic) => p.pts)).getD 0)))
    | none => none
  let colour := v.nclx.getD (head.matrix, head.full)
  let m := matrixOf r colour.1 head.h
  let when_ := fun (b : Bool) (reason : Nat) => if b then [reason] else []
  let reasons :=
    when_ (done.any (fun p => p.violation) || (sound.getD []).any (fun x => x.violation)) dropSyntax ++
    when_ (done.any (fun p => !picSupported v.codec p) || sizeChanges done || m.isNone ||
      (match a with | some x => afs.any (fun f => !audioOk x.codec f) | none => false)) dropUnsupported ++
    when_ (seen.any (fun f => !cropOk r f)) dropGeometry ++ when_ clips.isEmpty dropShort
  if !reasons.isEmpty then .drops reasons
  else .records (clips.zipIdx.map (fun q => clipRecord r index pos q.2 {
    codec := v.codec, interlaced := seen.any (fun f => f.interlaced), head, matrix := m.getD 0, full := fullRange r v.codec colour.2
    sound } q.1))

/-- The bytes of a range demultiplexed, decoded and cut as its table entry says. -/
def cutSample (r e index pos : Nat) (bytes : List Byte) : CutRes :=
  match if teIso e then demuxIso (teSelect e) bytes else demuxTs (teSelect e) bytes with
  | .drop reason => .drops [reason]
  | .streams v a => cutStreams r e index pos v a

end Sys2Proof.Machine
end

