-- ==== Sys2Proof/Machine/RoomOps.lean ====
section
/-! DEFINITION. The shuffle window, emission, slots and requests of the Cutting Room (R315, R316, R336 to R351, R430, R432). -/

namespace Sys2Proof.Machine

open Sys2Proof

/-- The running ingest command with a tag, ending or not. -/
def State.ingestAny (s : State) (n tag : Nat) : Option (Cmd × IngestJob) :=
  match s.cmd? n tag with
  | some c => match c.phase, c.job with | .running, .ingest j => some (c, j) | _, _ => none
  | none => none

/-- The running ingest command with a tag, unless it only waits for the write of its STATE block. -/
def State.ingest? (s : State) (n tag : Nat) : Option (Cmd × IngestJob) :=
  match s.ingestAny n tag with
  | some q => if q.2.ending.isSome then none else some q
  | none => none

/-- Changes the job of an ingest command. -/
def State.setIngest (s : State) (n tag : Nat) (f : IngestJob → IngestJob) : State :=
  s.updCmd n tag (fun c => match c.job with | .ingest j => { c with job := .ingest (f j) } | _ => c)

/-- The share that acts for the whole command: West where it takes part (R340). -/
def ijHome (r : Nat) : Nat := if ijShare r 0 then 0 else 1

/-! ## The STATE block (R339) -/

/-- The block as the model lays it out: window and pending counts as R339 states; the rest, which R339 leaves open, holds the
generator, the emissions, the releases and the clips (assumption 17). -/
def IngestJob.stateBytes (j : IngestJob) : List Byte :=
  natLE 4 j.win.length ++ natLE 2 j.pend.length ++ natLE 2 0 ++ natLE 4 j.st.toNat ++ natLE 4 j.emitted ++ natLE 4 j.released ++ natLE 44 0 ++
    ((j.win ++ j.pend).flatMap (natLE 4)) ++ List.replicate (4 * (ijSlots j.jrec - j.win.length - j.pend.length)) 0

/-- The window's generator at its start (R338). -/
def ijStartGen (r : Nat) : W32 :=
  let seed := ijSeed r
  let g := BitVec.ofNat 32 (bitsOf seed 0 32) ^^^ BitVec.ofNat 32 (bitsOf seed 32 32) ^^^ BitVec.ofNat 32 ((ijReplica r + 1) * 0x9E3779B9)
  if g = 0 then 1 else g

/-- The job of a command that starts, from its STATE block and emit ring. -/
def ingestStart (r : Nat) (state emit : View) : IngestJob :=
  let w := fun (off k : Nat) => leNat ((state.bytes.drop off).take k)
  let fill := w 0 4
  let pend := w 4 2
  let clips := (List.range (fill + pend)).map (fun i => w (64 + 4 * i) 4)
  let emitted := w 12 4
  let released := w 16 4
  let out := (List.range (min (wrapSub emitted released) (2 ^ ijEmitLog r))).map (fun i =>
    leNat ((emit.bytes.drop (8 * ((released + i) % 2 ^ ijEmitLog r))).take 2))
  { jrec := r, next := ijStart r, first := ijStart r, win := clips.take fill, pend := clips.drop fill
    st := if w 8 4 = 0 then ijStartGen r else BitVec.ofNat 32 (w 8 4), emitted, released, out }

/-! ## The end -/

/-- An ingest command ends: the STATE block is written, samples still being decoded are discarded (R339, R348, R350). -/
def State.ingestEnds (s : State) (n tag status cause position : Nat) : State :=
  match s.ingestAny n tag with
  | none => s
  | some (_, j) =>
    let drop := fun (t : State) => (j.samples.filter (fun x => x.how == .running)).foldl (fun (u : State) x =>
      (x.reqs.filter (fun q => q.sent && !q.done)).foldl (fun (v : State) q => v.closeTxn q.xid false) u) t
    let close := fun (t : State) (st ca : Nat) =>
      let u := (drop t).setIngest n tag (fun j => { j with samples := [] })
      let u1 := { u with roomWait := u.roomWait.filter (fun p => p.1 != n * 2 ^ 32 + tag) }
      ((u1.setWaiters (hIndex (ijFree j.jrec))).progressFor n tag).settleCmd n tag st ca position
    match s.engStep n tag 1 [] (ijState j.jrec, 64 + 4 * ijSlots j.jrec) (fun _ => { bytes := j.stateBytes }) with
    | .wait t => t.setIngest n tag (fun j => { j with ending := some (status, cause, position) })
    | .fault f w t => close (t.cmdFaultRec n tag 3 (ijHome j.jrec) f w) (if status = 0 then 4 else status) (if status = 0 then f.cause else cause)
    | .lost t => close t (if status = 0 then 6 else status) cause
    | .done _ t => close t status cause

/-- An ingest command ends FAULT by an access of a share (R73, R316). -/
def State.ingestFault (s : State) (n tag share : Nat) (f : AccFault) (write : Bool) : State :=
  (s.cmdFaultRec n tag 3 share f write).ingestEnds n tag 4 f.cause 0

/-! ## Emission (R338, R340, R341) -/

/-- Whether the emit ring has room for an entry (R341). -/
def IngestJob.ringRoom (j : IngestJob) : Bool := decide (wrapSub j.emitted j.released < 2 ^ ijEmitLog j.jrec)

/-- The choice of emit_one: the generator's next state and the place of the clip. -/
def IngestJob.pick (j : IngestJob) : W32 × Nat :=
  let g := xorshift j.st
  (g, g.toNat * j.win.length / 2 ^ 32)

/-- The window without place `i`, its last clip moved there. -/
def dropPlace (l : List Nat) (i : Nat) : List Nat := (l.set i (l.getLastD 0)).dropLast

/-- How one step of the shuffle stage ends. -/
inductive PumpRes where
  | stop (s : State)
  | more (s : State)

/-- emit_one (R338, R340): the record's flags and SAT are read, the entry is written, READY is signalled. -/
def State.emitOne (s : State) (n tag : Nat) (j : IngestJob) : PumpRes :=
  if !j.ringRoom then .stop s
  else
    let r := j.jrec
    let (g, i) := j.pick
    let clip := j.win.getD i 0
    let slot := clip % 2 ^ 16
    let entry := natLE 2 slot ++ natLE 2 0 ++ natLE 4 j.emitted
    match s.engStep n tag 2 [(ijPool r + slot * ijSlotBytes r + 0x24, 8)] (ijEmit r + 8 * (j.emitted % 2 ^ ijEmitLog r), 8)
        (fun _ => { bytes := entry }) with
    | .wait t => .stop t
    | .fault f w t => .stop (t.ingestFault n tag (ijHome r) f w)
    | .lost t => .stop (t.ingestEnds n tag 6 0 0)
    | .done vs t =>
      let head := (vs.headD { bytes := [] }).nat
      let t1 := t.setIngest n tag (fun j => { j with
        st := g, win := dropPlace j.win i, emitted := (j.emitted + 1) % 2 ^ 32, out := j.out ++ [slot], count := j.count + 1
        sat := (j.sat + head / 2 ^ 32) % 2 ^ 32
        noAudio := j.noAudio + b2n (bitOf clip 16 && !bitOf head 2) })
      let sig := t1.signalFor n tag (ijReady r) 1 0
      let cause := match sig.1 with | .wrongKind => 3 | .poisoned => 5 | .overrun => 9 | _ => 0
      if cause = 0 then .more sig.2
      else .stop (sig.2.ingestFault n tag (ijHome r) (sig.2.objFault cause (ijReady r)) false)

/-- One step of the shuffle stage: an emission while the window is full, a clip entering, or the next sample in position order
(R338, R343, R348). -/
def State.pumpOne (s : State) (n tag : Nat) : PumpRes :=
  match s.ingest? n tag with
  | none => .stop s
  | some (_, j) =>
    let r := j.jrec
    if ijCount r ≤ j.count then .stop (s.ingestEnds n tag 0 0 0)
    else if ijWindow r ≤ j.win.length then s.emitOne n tag j
    else match j.pend with
      | x :: rest => .more (s.setIngest n tag (fun j => { j with win := j.win ++ [x], pend := rest }))
      | [] =>
        match j.samples with
        | x :: rest => match x.how with
          | .running => .stop s
          | .clips l => .more (s.setIngest n tag (fun j => { j with
              samples := rest, pend := l, first := j.first + 1, consumed := j.consumed + 1 }))
          | .dropped k => .more (s.setIngest n tag (fun j => { j with
              samples := rest, first := j.first + 1, consumed := j.consumed + 1, drops := j.drops.set k (j.drops.getD k 0 + 1) }))
        | [] =>
          if j.next < ijPositions r then .stop s
          else if ijFlush r ∧ !j.win.isEmpty then s.emitOne n tag j
          else .stop (s.ingestEnds n tag 0 0 0)

/-- The shuffle stage goes on while it can. -/
def State.pump : Nat → Nat → Nat → State → State
  | 0, _, _, s => s
  | fuel + 1, n, tag, s => match s.pumpOne n tag with
    | .stop t => t
    | .more t => State.pump fuel n tag t

/-- Runs the shuffle stage of a command; no run is longer than its clips. -/
def State.shuffle (s : State) (n tag : Nat) : State := (State.pump 400000 n tag s).progressFor n tag

/-! ## Slots (R340) -/

/-- The free slots of the pool. -/
def IngestJob.freeSlots (j : IngestJob) : List Nat :=
  let used := (j.win ++ j.pend).map (· % 2 ^ 16) ++ j.out ++ j.samples.flatMap (fun x =>
    match x.how with | .clips l => l.map (· % 2 ^ 16) | _ => x.slots)
  (List.range (ijSlots j.jrec)).filter (fun i => !used.contains i)

/-- Takes `k` slots of a list, each place chosen by a free value (R340 names none). -/
def State.takeSlots (s : State) : Nat → List Nat → List Nat × State
  | 0, _ => ([], s)
  | k + 1, l =>
    let (v, s1) := s.fresh
    let x := l.getD (v % max 1 l.length) 0
    let r := s1.takeSlots k (l.erase x)
    (x :: r.1, r.2)

/-! ## The read service (R430, R432) -/

/-- The requests of a range: at most 1 MiB each (R430). -/
def rsCut : Nat → Nat → Nat → List RsReq
  | 0, _, _ => []
  | fuel + 1, off, n =>
    if n = 0 then []
    else
      let m := min n 0x100000
      { off, len := m } :: rsCut fuel (off + m) (n - m)

/-- Requests of a share outstanding, over every command. -/
def State.rsOutstanding (s : State) (share : Nat) : Nat :=
  (s.ctxs.flatMap (fun (q : Nat × Ctx) => q.2.cmds.flatMap (fun (c : Cmd) => match c.job with
    | .ingest j => (j.samples.filter (fun x => x.share == share)).map (fun x => x.reqs.countP (fun r => r.sent && !r.done))
    | _ => []))).sum

/-- Sends the requests of a sample that wait, while the share has fewer than 64 outstanding; an unreachable node drops the sample
(R316, R430, R435). -/
def State.rsSend (s : State) (n tag : Nat) (x : RoomSample) (i : Nat) (room : Nat) : List RsReq → State
  | [] => s
  | q :: rest =>
    if q.sent then s.rsSend n tag x (i + 1) room rest
    else match room with
      | 0 => s
      | room + 1 =>
        let node := teNode x.entry
        let obj := recField x.entry 8 8
        let (s1, xid) := s.openTxn (.rs n tag x.pos i) node 0x20 q.off q.len
        let f := { s1.request 2 node 0x20 xid q.off obj (natBE 4 q.len ++ natLE 4 0) 0 with vc := 2 }
        if s.nodeFailed node then s.sampleFail n tag x.pos 5
        else match s1.sendFrame f with
          | none => (s1.closeTxn xid false).sampleFail n tag x.pos 5
          | some s2 =>
            (s2.setIngest n tag (fun j => { j with samples := j.samples.map (fun y =>
              if y.pos == x.pos then { y with reqs := y.reqs.set i { q with xid, sent := true } } else y) })).rsSend n tag x (i + 1) room rest

/-- Sends what waits of a sample. -/
def State.rsMore (s : State) (n tag pos : Nat) : State :=
  match s.ingest? n tag with
  | none => s
  | some (_, j) => match j.samples.find? (fun x => x.pos == pos) with
    | none => s
    | some x => if x.how = .running then s.rsSend n tag x 0 (64 - s.rsOutstanding x.share) x.reqs else s

/-- The place of a share's fetch buffer: 64 MiB per share taking part, West first (R313). -/
def fetchBase (r share : Nat) : Nat := ijFetch r + (if share = 1 ∧ ijShare r 0 then 0x4000000 else 0)

/-! ## Starting a sample (R315, R316, R336, R340, R351) -/

/-- Video engines of a share that are busy, over every command. -/
def State.enginesBusy (s : State) (share : Nat) : Nat :=
  (s.ctxs.flatMap (fun (q : Nat × Ctx) => q.2.cmds.map (fun (c : Cmd) => match c.job with
    | .ingest j => if c.phase == .running then j.samples.countP (fun x => x.share == share && x.how == .running) else 0
    | _ => 0))).sum

/-- The video engines of a share that decode no sample (R310). -/
def State.freeEngines (s : State) (share : Nat) : List Nat :=
  let used := s.ctxs.flatMap (fun (q : Nat × Ctx) => q.2.cmds.flatMap (fun (c : Cmd) => match c.job with
    | .ingest j => (j.samples.filter (fun x => x.share == share && x.how == .running)).map (·.engine)
    | _ => []))
  (List.range 16).filter (fun i => !used.contains i)

/-- Appends a sample at the command's next position. -/
def State.addSample (s : State) (n tag : Nat) (x : RoomSample) : State :=
  s.setIngest n tag (fun j => { j with next := j.next + 1, wants := 0, samples := j.samples ++ [x] })

/-- How starting a command's next sample ends: it must wait for slots, or it has been taken up. -/
inductive StartRes where
  | waits (s : State)
  | taken (s : State)

/-- A share starts the next sample of a command on an engine that is free; which engine and which slots are free values (R310, R340). -/
def State.sampleStart (s : State) (n tag share : Nat) (j : IngestJob) : StartRes :=
  let r := j.jrec
  let idx := samplePi (ijSeed r) (ijN r) (j.next * ijReplicas r + ijReplica r)
  match s.engStep n tag 3 [(ijTable r + 32 * idx, 32)] (0, 0) (fun _ => {}) with
  | .wait t => .taken t
  | .fault f w t => .taken (t.ingestFault n tag share f w)
  | .lost t => .taken (t.ingestEnds n tag 6 0 0)
  | .done vs t =>
    let v := vs.headD {}
    let e := v.nat
    let x : RoomSample := { share, pos := j.next, index := idx, entry := e }
    if !v.bad.isEmpty then .taken ((t.addSample n tag { x with how := .dropped 4 }).shuffle n tag)
    else if teBad r e then .taken ((t.addSample n tag { x with how := .dropped 8 }).shuffle n tag)
    else
      let free := j.freeSlots
      if free.length < teClips e then .waits (t.setIngest n tag (fun j => { j with wants := teClips e }))
      else
        let (slots, t0) := t.takeSlots (teClips e) free
        let (engine, t1) := t0.takeSlots 1 (t0.freeEngines share)
        let at_ := j.fetch.getD share 0
        let reqs := if teKind e = 1 then rsCut (teLength e / 0x100000 + 1) (recField e 0 8) (teLength e) else []
        let t2 := (t1.addSample n tag { x with slots, reqs, engine := engine.headD 0, fetch := at_ }).setIngest n tag (fun j => { j with
          fetch := if teKind e = 1 then j.fetch.set share ((at_ + teLength e) % 0x4000000) else j.fetch })
        .taken ((t2.rsMore n tag j.next).shuffle n tag)

/-- The running ingest commands a share serves, by context × 2^32 + tag. -/
def State.roomCmds (s : State) (share : Nat) : List Nat :=
  s.ctxs.flatMap (fun (q : Nat × Ctx) => (q.2.cmds.filter (fun (c : Cmd) => c.phase == .running && match c.job with
    | .ingest j => ijShare j.jrec share && decide (j.next < ijPositions j.jrec) && decide (j.count < ijCount j.jrec) | _ => false)).map (fun c =>
      q.1 * 2 ^ 32 + c.tag))

/-- The commands a share may serve next, those after the one served last first (R351). -/
def turnOrder (last : Nat) (l : List Nat) : List Nat := l.filter (fun k => decide (last ≤ k)) ++ l.filter (fun k => decide (k < last))

/-- Starts a sample of the first command in turn that can start one; a command whose next sample must wait for slots notes how many. -/
def State.startFirst (s : State) (share : Nat) : List Nat → State
  | [] => s
  | k :: rest =>
    let n := k / 2 ^ 32
    let tag := k % 2 ^ 32
    match s.ingest? n tag with
    | none => s.startFirst share rest
    | some (_, j) => match s.sampleStart n tag share j with
      | .waits t => t.startFirst share rest
      | .taken t => { t with roomTurn := Store.set 0 t.roomTurn share (k + 1) }

/-- Whether the shuffle stage needs an entry or the next sample of a command waits for slots (R341). -/
def IngestJob.needsFree (j : IngestJob) : Bool :=
  let emits := decide (j.count < ijCount j.jrec) && (decide (ijWindow j.jrec ≤ j.win.length) ||
    (ijFlush j.jrec && !j.win.isEmpty && j.samples.isEmpty && j.pend.isEmpty && decide (ijPositions j.jrec ≤ j.next)))
  (emits && !j.ringRoom) || decide (j.freeSlots.length < j.wants)

/-- The result slot of an ingest command (R348). -/
def IngestJob.slot (j : IngestJob) : List Byte :=
  natLE 4 j.count ++ natLE 4 j.first ++ natLE 4 j.consumed ++ natLE 4 j.sat ++ j.drops.flatMap (natLE 4) ++ natLE 4 j.noAudio ++
    natLE 2 j.win.length ++ natLE 2 j.pend.length ++ natLE 4 0

end Sys2Proof.Machine
end

