-- ==== Sys2Proof/Machine/Room.lean ====
section
/-! DEFINITION. The commands of the Cutting Room and of the read service (R310 to R351, R430 to R432). -/

namespace Sys2Proof.Machine

open Sys2Proof

/-- Town Hall has read an INGEST: its job record is read and checked (R314, R603). -/
def State.loadIngest (s : State) (n : Nat) (c : Cmd) : LoadRes :=
  match s.thRead n c.tag (hallKey 0) [(c.body 0, 256)] true with
  | .again t => .ok t
  | .wait t => .ok t
  | .lost t => .ok (t.settleCmd n c.tag 6 0 0)
  | .fault cause t => .ok (t.settleCmd n c.tag 4 cause 0)
  | .ok xs t =>
    let r := xs.headD 0
    let cause := ijCheck r (c.body 0)
    if ijReserved r then .error
    else if cause ≠ 0 then .ok (t.settleCmd n c.tag 4 cause 0)
    else .ok (t.updCmd n c.tag (fun d => { d with jrec := some r }))

/-- INGEST (R312 to R314, R339): a dispatched command takes up its STATE block. A running command's shuffle stage goes on. -/
def execIngest (n tag : Nat) (s : State) : Host.Outcome State Fault Refusal :=
  match s.cmd? n tag with
  | none => .next s
  | some c =>
    if c.op ≠ 7 then .next s
    else if c.phase = .running then
      match s.ingestAny n tag with
      | some (_, j) => match j.ending with
        | some e => .next (s.ingestEnds n tag e.1 e.2.1 e.2.2)
        | none => .next (s.shuffle n tag)
      | none => .next s
    else if c.phase ≠ .dispatched then .next s
    else match c.jrec with
      | none => .next s
      | some r =>
        match s.engStep n tag 0 [(ijState r, 64 + 4 * ijSlots r), (ijEmit r, 8 * 2 ^ ijEmitLog r)] (0, 0) (fun _ => {}) with
          | .wait t => .next t
          | .fault f w t => .next (t.cmdFault n tag 3 (ijHome r) f w 0)
          | .lost t => .next (t.settleCmd n tag 6 0 0)
          | .done vs t =>
            let st := vs.getD 0 {}
            if !st.bad.isEmpty then .next (t.cmdFault n tag 3 (ijHome r) { cause := 5, va := ijState r } false 0)
            else .next ((t.startJob n c (.ingest (ingestStart r st (vs.getD 1 {})))).shuffle n tag)

/-- SAMPLE_START (R315, R316, R336, R337, R340, R351): a share with a free video engine starts the next sample of a command, commands
taking turns. -/
def execSampleStart (share : Nat) (s : State) : Host.Outcome State Fault Refusal :=
  if 2 ≤ share ∨ 16 ≤ s.enginesBusy share then .next s
  else .next (s.startFirst share (turnOrder (Store.get 0 s.roomTurn share) (s.roomCmds share)))

/-- SAMPLE_COMPLETE (R66, R317 to R335, R338, R342, R343): the engines end on the sample at a position. Its bytes are demultiplexed, decoded
and cut; its records are written and its clips enter the window in position order, or it is dropped, for one of the reasons that hold
(the engines name one: of several, `d` says which). -/
def execSampleComplete (n tag pos d : Nat) (s : State) : Host.Outcome State Fault Refusal :=
  match s.ingest? n tag with
  | none => .next s
  | some (_, j) => match j.samples.find? (fun x => x.pos == pos) with
    | none => .next s
    | some x =>
      let r := j.jrec
      let e := x.entry
      let ends := fun (t : State) (how : SampleEnd) => (t.setIngest n tag (fun j => { j with samples := j.samples.map (fun y =>
        if y.pos == pos then { y with how, slots := [], reqs := [], src := [] } else y) })).shuffle n tag
      if x.how ≠ .running ∨ x.reqs.any (fun q => !q.done) then .next s
      else if teReserved e then .fault .hostError
      else
        let src := if teKind e = 0 then [(recField e 0 8, teLength e)] else []
        match s.engStep n tag (1000 + 2 * pos) src (0, 0) (fun _ => {}) with
        | .wait t => .next t
        | .fault f w t => .next (t.ingestFault n tag x.share f w)
        | .lost t => .next (t.ingestEnds n tag 6 0 0)
        | .done vs t =>
          if x.poisoned ∨ vs.any (fun v => !v.bad.isEmpty) then .next (ends t (.dropped 4))
          else
            let bytes := if teKind e = 0 then (vs.headD {}).bytes else Memory.bytes x.src 0 (teLength e)
            match cutSample r e x.index pos bytes with
            | .drops reasons => .next (ends t (.dropped (reasons.getD (d % max 1 reasons.length) 0)))
            | .records l =>
              let ws := l.zipIdx.map (fun q => (ijPool r + x.slots.getD q.2 0 * ijSlotBytes r, ({ bytes := q.1 } : View)))
              match t.engWriteAll n tag (1001 + 2 * pos) ws with
              | .wait u => .next u
              | .fault f w u => .next (u.ingestFault n tag x.share f w)
              | .lost u => .next (u.ingestEnds n tag 6 0 0)
              | .done _ u => .next (ends u (.clips ((x.slots.take l.length).map (fun k =>
                  k + (if teAsel e = 0 then 0 else 2 ^ 16)))))

/-- FREE_TAKE (R341, R460): an ingest command that needs a slot or an entry takes one from FREE, which releases its oldest record; it
sleeps on the object while there is none to take. -/
def execFreeTake (n tag : Nat) (s : State) : Host.Outcome State Fault Refusal :=
  match s.ingest? n tag with
  | none => .next s
  | some (_, j) =>
    let h := ijFree j.jrec
    let key := n * 2 ^ 32 + tag
    if !j.needsFree ∨ j.out.isEmpty ∨ Store.get 0 s.roomWait key ≠ 0 then .next s
    else
      let fails := fun (t : State) (cause : Nat) => t.ingestFault n tag (ijHome j.jrec) (t.objFault cause h) false
      if s.hRemote h then .next (fails s 3)
      else
        let r := s.waitObj h 1 1
        match r.1 with
        | .met _ => .next ((r.2.setIngest n tag (fun j => { j with released := (j.released + 1) % 2 ^ 32, out := j.out.tail })).shuffle n tag)
        | .no _ => .next (({ r.2 with roomWait := Store.set 0 r.2.roomWait key (hIndex h + 1) }).setWaiters (hIndex h))
        | .stale => .next r.2
        | .abandoned => .next (r.2.ingestEnds n tag 4 8 0)
        | .wrongKind => .next (fails r.2 3)
        | .poisoned => .next (fails r.2 5)

/-- An abort of an ingest command before the emission that completes it (R350). -/
def State.ingestAbort (s : State) (n : Nat) (c : Cmd) (j : IngestJob) : State :=
  (s.setCmd n { c with abortRec := true }).ingestEnds n c.tag 1 0 j.first

/-! ## The read service -/

/-- Whether byte ranges [a, b) and [c, d) overlap. -/
def overlap (a b c d : Nat) : Bool := decide (a < d ∧ c < b)

/-- RS_DATA (R406, R430, R432): data lands in the fetch buffer, where the demultiplexer reads it; a byte outside the range, or sent twice, drops the sample. -/
def execRsData (s : State) : Host.Outcome State Fault Refusal :=
  match s.takeOpc 0x21 with
  | none => .next s
  | some (f, t) => match t.txn? f.xid with
    | none => .next t.countFabStale
    | some x => match x.owner with
      | .rs n tag pos i => match t.ingest? n tag with
        | none => .next t
        | some (_, j) => match j.samples.find? (fun y => y.pos == pos) with
          | none => .next t
          | some y => match y.reqs[i]? with
            | none => .next t
            | some q =>
              let hi := f.addr + f.len
              if f.addr < q.off ∨ q.off + q.len < hi ∨ f.len = 0 ∨ f.operand ≠ recField y.entry 8 8 ∨
                  q.got.any (fun g => overlap f.addr hi g.1 g.2) then .next ((t.sampleFail n tag pos 5).shuffle n tag)
              else
                let at_ := (y.fetch + (f.addr - recField y.entry 0 8)) % 0x4000000
                let base := fetchBase j.jrec y.share
                let first := min f.len (0x4000000 - at_)
                let v := f.view
                let t1 := { t with fab := { t.fab with txns := Store.set {} t.fab.txns (f.xid / 256) { x with sentAt := t.now } } }
                match t1.engWriteAll n tag (1000 + 2 * pos) (([(base + at_, v.part 0 first)] ++
                    (if first < f.len then [(base, v.part first (f.len - first))] else []))) with
                | .wait u => .next u
                | .fault a w u => .next (u.ingestFault n tag y.share a w)
                | .lost u => .next (u.ingestEnds n tag 6 0 0)
                | .done _ u => .next (u.setIngest n tag (fun j => { j with samples := j.samples.map (fun z =>
                    if z.pos == pos then { z with
                      src := Memory.setBytes z.src (f.addr - recField z.entry 0 8) v.bytes
                      poisoned := z.poisoned || f.poison != 0, reqs := z.reqs.set i { q with got := q.got ++ [(f.addr, hi)] } } else z) }))
      | _ => .next t.countFabStale

/-- RS_DONE (R432): a request succeeds when its status is OK and every byte has come; else its sample is dropped. -/
def execRsDone (s : State) : Host.Outcome State Fault Refusal :=
  match s.takeOpc 0x22 with
  | none => .next s
  | some (f, t) => match t.txn? f.xid with
    | none => .next t.countFabStale
    | some x => match x.owner with
      | .rs n tag pos i => match t.ingest? n tag with
        | none => .next (t.closeTxn f.xid false)
        | some (_, j) => match (j.samples.find? (fun y => y.pos == pos)).bind (fun y => y.reqs[i]?) with
          | none => .next (t.closeTxn f.xid false)
          | some q =>
            let got := (q.got.map (fun g => g.2 - g.1)).sum
            if f.status = 0 ∧ got = q.len then
              let t1 := (t.closeTxn f.xid false).setIngest n tag (fun j => { j with samples := j.samples.map (fun z =>
                if z.pos == pos then { z with reqs := z.reqs.set i { q with done := true } } else z) })
              .next (t1.rsMore n tag pos)
            else .next ((t.sampleFail n tag pos 5).shuffle n tag)
      | _ => .next t.countFabStale

/-- READ_SERVICE_DEADLINE (R431, R432): a request has had no frame for 20 µs, and its sample is dropped. -/
def execReadServiceDeadline (xid : Nat) (s : State) : Host.Outcome State Fault Refusal :=
  match s.txn? xid with
  | none => .next s
  | some t => match t.owner with
    | .rs n tag pos _ =>
      if t.sentAt + 20000 ≤ s.now then .next (((s.closeTxn xid true).sampleFail n tag pos 5).shuffle n tag) else .next s
    | _ => .next s

end Sys2Proof.Machine
end

