-- ==== Sys2Proof/Machine/Square.lean ====
section
/-! DEFINITION. The commands of the Square, the memory controllers, the patrol and FLUSH (R34 to R69, R488). -/

namespace Sys2Proof.Machine

open Sys2Proof

/-! ## Bank arbitration (R36 to R38) -/

/-- Whether a line is served by a bank of a half: of that bank's staging, or a memory line homed in the half and served by that bank (R36,
R43, assumption 61). -/
def State.bankServes (s : State) (half bank a : Nat) : Bool :=
  (s.isStaging a && squareBank a == (half, bank)) || ((isHbm a || isTier2 a) && homeHalf a == half && memBank a == bank)

/-- Whether a unit of a half may present a request at bank number `bank`: it comes through a port of the half, the Seam's apart, for a
line of that bank of either half (R22, R36). -/
def State.reqFits (s : State) (half bank : Nat) (r : SqReq) : Bool :=
  r.addr % 256 == 0 && (match (sqPorts half)[r.port]? with | some p => p != .seam | none => false) &&
    (s.bankServes half bank r.addr || s.bankServes (1 - half) bank r.addr)

/-- The requests of a bank's queue that their ports present: the first of each port (R37). -/
def portHeads : List Nat → List SqReq → List SqReq
  | _, [] => []
  | seen, r :: rs => if seen.contains r.port then portHeads seen rs else r :: portHeads (r.port :: seen) rs

/-- The request a bank serves next among those presented: the oldest; among those of equal age, the first port after the one served
last, port 0 first after reset (R37; the starting port is the model's choice, assumption 62). A request behind another of its port is not
presented, so the Square never reorders them (R38). -/
def pickReq (turn : Nat) (q : List SqReq) : Option SqReq :=
  let heads := portHeads [] q
  let oldest := heads.foldl (fun m r => min m r.since) (heads.headD { port := 0, addr := 0 }).since
  let same := heads.filter (fun r => r.since == oldest)
  (same.map (fun r => (r.port + 64 - turn % 64) % 64)).min?.bind (fun d => same.find? (fun r => (r.port + 64 - turn % 64) % 64 == d))

/-- The queue without `r`, the first of its port; the request behind it is presented from the next clock on, so that a request waits
behind at most one request of each other port (R37). -/
def dropReq (r : SqReq) (clk : Nat) (q : List SqReq) : List SqReq :=
  let left := q.erase r
  match left.findIdx? (fun x => x.port == r.port) with
  | none => left
  | some i => left.modify i (fun x => { x with since := clk + 1 })

/-- The lines among those listed that their ports may still present on a clock, each port its number of lines (R36); `shown` counts what
each has presented. -/
def admitReqs (half : Nat) : Store Nat → List SqReq → List SqReq × Store Nat
  | shown, [] => ([], shown)
  | shown, r :: rs =>
    let key := half * 64 + r.port
    let n := Store.get 0 shown key
    if n < ((sqPorts half).getD r.port .room).lines then
      let x := admitReqs half (Store.set 0 shown key (n + 1)) rs
      (r :: x.1, x.2)
    else admitReqs half shown rs

/-- SQUARE_BANK_REQUEST (R22, R36 to R38, R373): ports present requests to a bank on Square clock `clk`, never before a clock already seen,
and the bank serves one; `flips` are the differing bits of the codewords of a line it reads. A request for a line of the other half goes
to the Seam's Square channel; the Seam port presents those that have crossed. -/
def execSquareBankRequest (half bank clk : Nat) (new : List SqReq) (flips : List (Nat × W80)) (s : State) :
    Host.Outcome State Fault Refusal :=
  if !s.ready ∨ 2 ≤ half ∨ 128 ≤ bank then .next s
  else
    let b := half * 128 + bank
    let last := Store.get 0 s.mem.clock half
    let now := max clk last
    let shown := if last < now then Store.keep (fun k => k / 64 != half) s.mem.shown else s.mem.shown
    let here := fun (r : SqReq) => s.bankServes half bank r.addr
    let crossed := (Store.get [] s.mem.seamIn half).filter here
    let come := admitReqs half shown (new.filter (s.reqFits half bank) ++ crossed)
    let (mine, away) := (come.1.map (fun r => { r with since := now, missed := false, origin := if r.port = seamPort half then r.origin else none })).partition here
    let q := Store.get [] s.mem.banks b ++ mine
    let s0 := { s with mem := { s.mem with
      clock := Store.set 0 s.mem.clock half now, shown := come.2
      seamReqs := Store.set [] s.mem.seamReqs half (Store.get [] s.mem.seamReqs half ++ away)
      seamIn := Store.set [] s.mem.seamIn half ((Store.get [] s.mem.seamIn half).filter (fun r => !come.1.contains r)) } }
    match pickReq (Store.get 0 s.mem.turn b) q with
    | none => .next { s0 with mem := { s0.mem with banks := Store.set [] s0.mem.banks b q } }
    | some r =>
      let s1 := { s0 with mem := { s0.mem with
        banks := Store.set [] s0.mem.banks b (dropReq r now q), turn := Store.set 0 s0.mem.turn b (r.port + 1) } }
      .next (s1.serveReq half r flips)

/-- CACHE_FILL_COMPLETE (R45, R46): a way's fill completes; the requests that waited on the set are served in order. -/
def execCacheFillComplete (half set way : Nat) (s : State) : Host.Outcome State Fault Refusal :=
  let x := s.cacheSet half set
  let y := x.way way
  if !s.ready ∨ !y.filling then .next s
  else
    let y1 : Way := if y.drop then {} else { y with filling := false, valid := true }
    let mine := fun (w : FillWait) => w.half == half && w.set == set
    let s1 := s.setCacheSet half set (x.setWay way y1)
    let s2 := { s1 with mem := { s1.mem with waits := s.mem.waits.filter (fun w => !mine w) } }
    -- a request whose line was invalidated as it filled is served from what the fill brought
    let here := fun (w : FillWait) => y.drop && w.req.addr == y.line
    let s3 := ((s.mem.waits.filter mine).filter here).foldl (fun (t : State) w => t.performReq w.req []) s2
    -- a request whose fill another way brings still waits for it
    .next (s3.serveAll half (((s.mem.waits.filter mine).filter (fun w => !here w)).map (fun w =>
      { w.req with missed := w.req.missed && w.req.addr == y.line })))

/-! ## The split (R40 to R42) -/

/-- Whether a context has a command outstanding. -/
def State.anyOutstanding (s : State) : Bool := s.ctxs.any (fun (p : Nat × Ctx) => !p.2.cmds.isEmpty)

/-- SQUARE_SPLIT_APPLY (R40, R41): a write of SQUARE_SPLIT; APPLY starts a change when none is in progress. -/
def execSquareSplitApply (v : W32) (s : State) : Host.Outcome State Fault Refusal :=
  let w := bitsOf v.toNat 0 5
  let e := bitsOf v.toNat 8 5
  if !s.ready then .next s
  else if 16 < w ∨ 16 < e then .fault .reservedBits
  else
    let s1 := (s.setFld 0x400 0 5 w).setFld 0x400 8 5 e
    let s2 := if bitOf v.toNat 31 then s1.setFlag 0x400 31 false else s1
    if !bitOf v.toNat 29 ∨ s.flag 0x400 30 then .next s2
    else if s.anyOutstanding then .fault .hostError
    else .next { s2.setFlag 0x400 30 true with mem := { s2.mem with split := (w, e) } }

/-- The bytes of `n` free values. -/
def freeBytes (k : Nat) : Nat → List Byte
  | 0 => []
  | n + 1 => BitVec.ofNat 8 (Config.freeNat k) :: freeBytes (k + 1) n

/-- The change of one half from its units in force to `n` units: lines of units that leave the cache are written back and
invalidated, contents of units that leave staging are discarded, units that enter staging hold unspecified data (R41). Which 16 ways of
every set a leaving unit holds, and where a set's pointer then stands, the spec leaves open: here the highest-numbered ways leave, ways
enter at the top, and the pointer is taken modulo the new number of ways (assumption 63). -/
def State.splitHalf (s : State) (half n : Nat) : State :=
  let old := s.stagingUnits half
  let base := squareBase + half * 2 ^ 30
  let ways := 16 * (16 - n)
  let cut := fun (x : CacheSet) =>
    ({ pointer := if ways = 0 then 0 else x.pointer % ways, ways := Store.keep (fun w => decide (w < ways)) x.ways } : CacheSet)
  let sets : Store CacheSet := s.mem.sets.foldl (fun (m : Store CacheSet) p =>
    Store.set {} m p.1 (if p.1 / 16384 = half then cut p.2 else p.2)) []
  let s0 := s.mem.sets.foldl (fun (t : State) p =>
    if p.1 / 16384 = half then p.2.ways.foldl (fun (u : State) q => if ways ≤ q.1 then u.evictWay q.2 else u) t else t) s
  let s1 := { s0 with mem := { s0.mem with sets := sets } }
  if n < old then
    let lo := base + n * 2 ^ 26
    let hi := base + old * 2 ^ 26
    { s1 with dev := Store.keep (fun a => decide (a < lo ∨ hi ≤ a)) s1.dev
              poison := Store.keep (fun w => decide (8 * w < lo ∨ hi ≤ 8 * w)) s1.poison }
  else if old < n then
    let len := (n - old) * 2 ^ 26
    ({ s1 with free := s1.free + len }).devWrite (base + old * 2 ^ 26) (freeBytes s1.free len)
  else s1

/-- SQUARE_SPLIT_COMPLETE (R41): the change in progress, to the values requested when APPLY was written, takes force. -/
def execSquareSplitComplete (s : State) : Host.Outcome State Fault Refusal :=
  if !s.flag 0x400 30 then .next s
  else
    let w := s.mem.split.1
    let e := s.mem.split.2
    let s1 := (s.splitHalf 0 w).splitHalf 1 e
    .next ((((s1.setFld 0x400 16 5 w).setFld 0x400 24 5 e).setFlag 0x400 30 false).setFlag 0x400 31 true)

/-- FLUSH (R488): every dirty line of both cache regions is written back; with INVALIDATE every line is dropped. -/
def execFlush (n tag : Nat) (s : State) : Host.Outcome State Fault Refusal :=
  match s.fresh? n tag 3 with
  | none => .next s
  | some c =>
    if c.body 0 / 2 ≠ 0 then .fault .hostError
    else .next ((s.flushCaches (bitOf (c.body 0) 0)).settleCmd n tag 0 0 0)

/-! ## The memory controllers -/

/-- A read of one word of memory under a cached line: an uncorrectable one is poisoned in memory, the cached copy keeping its value
(R62, R65). The answer says whether the word is delivered poisoned. -/
def State.underWord (s : State) (a : Nat) (flip : W80) : Bool × State :=
  let half := homeHalf a
  let x := s.cacheSet half (setIndex a)
  let line := a - a % 256
  match x.find line (s.wayCount half) with
  | none => (false, s)
  | some w =>
    let y := x.way w
    let k := a % 256 / 8
    let code := match Store.get none y.lost k with
      | some d => (ecEncode d true).toNat
      | none => s.codeword a
    let r := ecRead (code ^^^ flip.toNat)
    let u := unitOf a
    let s1 := s.countRead u.1 u.2 a r
    match r.2.2 with
    | .uncorrectable =>
      (true, s1.setCacheSet half (setIndex a) (x.setWay w { y with lost := Store.set none y.lost k (some r.1) }))
    | _ => (r.2.1, s1)

/-- A read of a line of memory under a cached line: the poison bits delivered and the state. -/
def State.underLine (s : State) (line : Nat) (flips : List (Nat × W80)) : Nat × State :=
  (List.range 32).foldl (fun (acc : Nat × State) i =>
    let r := acc.2.underWord (line + 8 * i) (flipOf flips i)
    (acc.1 + b2n r.1 * 2 ^ i, r.2)) (0, s)

/-- An uncorrectable codeword of the firmware area is fatal source FW_AREA: `t` follows a read at address `a` in `s`, which found bits that
differ where `differs` (R518, R524). -/
def State.fwGuard (s t : State) (a : Nat) (differs : Bool) : State :=
  let u := unitOf a
  if differs ∧ fwBase ≤ a ∧ a < fwBase + 2 ^ 30 ∧ (s.unitErr u.1 u.2).uncorrectable < (t.unitErr u.1 u.2).uncorrectable then
    t.fatal 5 u.1 u.2 (t.unitErr u.1 u.2).addrUncorrectable
  else t

/-- A memory controller's answer: the line with its poison and its check bits (R63). -/
def State.answerMemory (s : State) (line : Nat) (write : Bool) (data : BitVec 2048) (poison : BitVec 32) : State :=
  { s with mem := { s.mem with done := s.mem.done ++ [⟨0, line, write, data, poison, checkBlock data poison⟩] } }

/-- MEMORY_LINE_ACCESS (R51, R55, R62 to R65): a controller reads or writes one line. `flips` are the differing bits of a read;
`fails` counts failed attempts of an HBM3E command by parity: up to 4 a retry succeeds, with 5 the interface fails. Under a line that the
cache region holds, a write is its write-back, and a read leaves the cached copy as it is. -/
def execMemoryLineAccess (line : Nat) (write : Bool) (data : BitVec 2048) (poison : BitVec 32) (flips : List (Nat × W80)) (fails : Nat)
    (s : State) : Host.Outcome State Fault Refusal :=
  if !s.ready ∨ !(isHbm line || isTier2 line) ∨ line % 256 ≠ 0 then .next s
  else
    let (stack, pc) := hbmPlace line
    if isHbm line ∧ 5 ≤ fails then .next (s.fatal 1 5 stack pc)
    else
      let s0 := if isHbm line ∧ 0 < fails then s.countReplay 5 stack else s
      if s0.isCached line then
        if write then
          let half := homeHalf line
          let x := s0.cacheSet half (setIndex line)
          let w := (x.find line (s0.wayCount half)).getD 0
          let l := s0.lineNow line
          .next ((s0.setCacheSet half (setIndex line) (x.setWay w { x.way w with dirty := false, lost := [] })).answerMemory line true l.1 l.2)
        else
          let r := s0.underLine line flips
          .next (s0.fwGuard (r.2.answerMemory line false (s0.lineNow line).1 (BitVec.ofNat 32 r.1)) line !flips.isEmpty)
      else if write then
        let s1 := s0.devWrite line (natLE 256 data.toNat)
        let s2 := { s1 with poison := (List.range 32).foldl (fun (m : Store Bool) i =>
          Store.set false m (line / 8 + i) (bitOf poison.toNat i)) s1.poison }
        .next (s2.answerMemory line true data poison)
      else
        let t := s0.eccLine line flips
        .next (s0.fwGuard (t.answerMemory line false (t.lineNow line).1 (t.lineNow line).2) line !flips.isEmpty)

/-! ## The patrol (R67, R68) -/

/-- Codewords of a half's patrol of a kind: 0 the Square, 288 core stores and 5 Press buffers of 1 MiB, and then the sync table, which
is scrubbed with the Square and stands in the West half (R438); 1 HBM3E; 2 the second tier. -/
def patrolLength : Nat → Nat
  | 0 => 2 ^ 27 + 293 * 2 ^ 17 + 2 ^ 18
  | 1 => 0x6000000000 / 8
  | _ => 0x4000000000 / 8

/-- What stands at a position of a patrol. -/
inductive PatrolPlace where
  /-- a word with a local address -/
  | word (a : Nat)
  /-- a word of a line of the cache region: its set, way and word number -/
  | cached (set way k : Nat)
  /-- a word of the Press buffers, by its byte position there -/
  | buffer (b : Nat)
  /-- word `w` of the sync table, four to an entry -/
  | entry (w : Nat)
  /-- nothing of this half -/
  | nothing
  deriving DecidableEq, Repr

/-- Position `i` of a half's patrol of a kind. In a unit of the cache region, line k holds set k mod 16,384 of the unit's 16 ways, in
order (the model's choice, assumption 64). -/
def State.patrolAt (s : State) (half kind i : Nat) : PatrolPlace :=
  match kind with
  | 0 =>
    if i < 2 ^ 27 then
      let a := squareBase + half * 2 ^ 30 + 8 * i
      if s.isStaging a then .word a
      else
        let line := i / 32 % 2 ^ 18
        .cached (line % 16384) (16 * (i / 2 ^ 23 - s.stagingUnits half) + line / 16384) (i % 32)
    else if i < 2 ^ 27 + 288 * 2 ^ 17 then .word (coreStoreBase + half * 288 * 0x100000 + 8 * (i - 2 ^ 27))
    else if i < 2 ^ 27 + 293 * 2 ^ 17 then .buffer (5 * half * 2 ^ 20 + 8 * (i - 2 ^ 27 - 288 * 2 ^ 17))
    else if half = 0 then .entry (i - 2 ^ 27 - 293 * 2 ^ 17) else .nothing
  | 1 => .word (half * 0x6000000000 + 8 * i)
  | _ => .word (0x10000000000 + half * 0x4000000000 + 8 * i)

/-- The patrol reads a word of the Press buffers, which have no address: 0 is recorded (the model's choice, assumption 65). -/
def State.patrolBuffer (s : State) (b : Nat) (flip : W80) : State :=
  let r := ecRead ((ecEncode (BitVec.ofNat 64 (Memory.readLE s.mem.buffers b 8)) (Store.get false s.mem.buffersBad (b / 8))).toNat ^^^ flip.toNat)
  let s1 := s.countRead 2 (b / 2 ^ 20) 0 r
  { s1 with mem := { s1.mem with
      buffers := Memory.setBytes s1.mem.buffers b (natLE 8 r.1.toNat), buffersBad := Store.set false s1.mem.buffersBad (b / 8) r.2.1 } }

/-- The patrol reads a word of a line of the cache region, which has no address of its own: that of the line's word is recorded, 0 for a
way without a line (the model's choice, assumption 65). -/
def State.patrolCached (s : State) (half set way k : Nat) (flip : W80) : State :=
  let y := (s.cacheSet half set).way way
  let a := y.line + 8 * k
  if y.valid then s.eccWord a flip
  else s.countRead 0 (half * 128 + memBank (256 * set)) 0 (ecRead ((ecEncode 0 false).toNat ^^^ flip.toNat))

/-- The patrol reads word `w` of the sync table (R438): an uncorrectable word poisons its entry. R533 gives the sync unit no counts. -/
def State.patrolEntry (s : State) (w : Nat) (flip : W80) : State :=
  let i := w / 4
  let data := leNat (((s.obj i).toBytes.drop (8 * (w % 4))).take 8)
  let r := ecRead ((ecEncode (BitVec.ofNat 64 data) (s.objPoisoned i)).toNat ^^^ flip.toNat)
  if r.2.1 && !s.objPoisoned i then { s with sync := { s.sync with poison := Store.set false s.sync.poison i true } } else s

/-- The patrol of a half reads position `i` of a kind; disabled cores are skipped, and memory under a cached line is read beneath it. -/
def State.patrolRead (s : State) (half kind i : Nat) (flip : W80) : State :=
  match s.patrolAt half kind i with
  | .word a =>
    if coreStoreBase ≤ a ∧ !s.isCoreStore a then s
    else s.fwGuard (if (isHbm a || isTier2 a) && s.isCached (a - a % 256) then (s.underWord a flip).2 else s.eccWord a flip) a (flip != 0)
  | .cached set way k => s.patrolCached half set way k flip
  | .buffer b => s.patrolBuffer b flip
  | .entry w => s.patrolEntry w flip
  | .nothing => s

/-- The on-die correction reports of the four stacks of a half are read with a scrub pass over them (R52); their values are free. -/
def State.readOnDie (s : State) (half : Nat) : State :=
  (List.range 4).foldl (fun (t : State) i =>
    let x := t.fresh
    { x.2 with mem := { x.2.mem with onDie := Store.set 0 x.2.mem.onDie (4 * half + i) x.1 } }) s

/-- PATROL_SCRUB_READ (R52, R67 to R69): the patrol of a half reads the next codeword of a kind, `flip` being its differing bits; at
the end of a pass over both halves the PASS bit is set. A kind with 0 hours is off. -/
def execPatrolScrubRead (half kind : Nat) (flip : W80) (s : State) : Host.Outcome State Fault Refusal :=
  if !s.ready ∨ 2 ≤ half ∨ 3 ≤ kind ∨ s.fld 0x408 (8 * kind) 8 = 0 then .next s
  else
    let key := 2 * kind + half
    let i := Store.get 0 s.mem.patrol key
    let s0 := s.patrolRead half kind i flip
    let wrap := i + 1 = patrolLength kind
    let s1 := if wrap ∧ kind = 1 then s0.readOnDie half else s0
    let m1 := { s1.mem with patrol := Store.set 0 s1.mem.patrol key (if wrap then 0 else i + 1) }
    if wrap then
      let before : Nat := min (Store.get 0 m1.passes (2 * kind)) (Store.get 0 m1.passes (2 * kind + 1))
      let p1 : Store Nat := Store.set 0 m1.passes key (Store.get 0 m1.passes key + 1)
      let after : Nat := min (Store.get 0 p1 (2 * kind)) (Store.get 0 p1 (2 * kind + 1))
      let s2 := { s1 with mem := { m1 with passes := p1 } }
      .next (if before < after then s2.setFlag 0x408 (24 + kind) true else s2)
    else .next { s1 with mem := m1 }

/-! ## Refresh, temperature and training upkeep (R54, R57) -/

/-- HBM_TEMP_SAMPLE (R54): a stack's temperature is read; from 85 °C it is refreshed at twice the base rate. -/
def execHbmTempSample (stack : Nat) (temp : Int) (s : State) : Host.Outcome State Fault Refusal :=
  if 8 ≤ stack then .next s
  else
    let p := s.plat.power
    .next (s.setPower { p with
      stackTemp := Store.set 0 p.stackTemp stack temp, refresh2x := Store.set false p.refresh2x stack (decide (85 ≤ temp)) })

/-- Counts a refresh command of a stack (0 to 7) or of an LPDDR5X interface (8 West, 9 East). -/
def State.countRefresh (s : State) (i : Nat) : State :=
  let p := s.plat.power
  s.setPower { p with refreshes := Store.set 0 p.refreshes i (Store.get 0 p.refreshes i + 1) }

/-- HBM_REFRESH (R52, R54): one per-bank refresh of a stack, at the rate in force; during initialisation an all-bank refresh. -/
def execHbmRefresh (stack : Nat) (s : State) : Host.Outcome State Fault Refusal :=
  if 8 ≤ stack then .next s
  else if s.boot < 2 then
    .next { s with mem := { s.mem with initRefresh := Store.set 0 s.mem.initRefresh stack (Store.get 0 s.mem.initRefresh stack + 1) } }
  else .next (s.countRefresh stack)

/-- LPDDR_REFRESH_RATE_READ (R57): the multiplier an interface's devices report, in eighths, is read and applied; where the devices
request refresh management, it is given. -/
def execLpddrRefreshRateRead (i : Nat) (rate : LpReport) (s : State) : Host.Outcome State Fault Refusal :=
  if 2 ≤ i then .next s
  else
    let p := s.plat.power
    let s1 := s.setPower { p with lpRate := Store.set 8 p.lpRate i rate.rate }
    .next (if rate.rfm then { s1 with mem := { s1.mem with rfm := Store.set 0 s1.mem.rfm i (Store.get 0 s1.mem.rfm i + 1) } } else s1)

/-- LPDDR_REFRESH (R57): one per-bank refresh of an interface, at the multiplier in force. -/
def execLpddrRefresh (i : Nat) (s : State) : Host.Outcome State Fault Refusal :=
  if 2 ≤ i ∨ s.boot < 2 then .next s else .next (s.countRefresh (8 + i))

/-- A retrain of an LPDDR5X interface: in range it ends the count, out of range it adds to it, and the fourth in a row is fatal
source LP_IF (R524). -/
def State.lpRetrain (s : State) (i : Nat) (bad : Nat) (put : Power → Nat → Power) (inRange : Bool) : State :=
  let n := if inRange then 0 else bad + 1
  let s1 := s.setPower (put s.plat.power n)
  if 4 ≤ n then s1.fatal 2 6 i 0 else s1

/-- WCK_TRACKING (R57, R524): tracking of an interface runs, with its result. -/
def execWckTracking (i : Nat) (inRange : Bool) (s : State) : Host.Outcome State Fault Refusal :=
  if 2 ≤ i then .next s
  else .next (s.lpRetrain i (Store.get 0 s.plat.power.wckBad i) (fun p n => { p with wckBad := Store.set 0 p.wckBad i n }) inRange)

/-- ZQ_CALIBRATION (R57, R524): background calibration of an interface runs, with its result. -/
def execZqCalibration (i : Nat) (inRange : Bool) (s : State) : Host.Outcome State Fault Refusal :=
  if 2 ≤ i then .next s
  else .next (s.lpRetrain i (Store.get 0 s.plat.power.zqBad i) (fun p n => { p with zqBad := Store.set 0 p.zqBad i n }) inRange)

end Sys2Proof.Machine
end

