-- ==== Sys2Proof/Machine/TxnOps.lean ====
section
/-! DEFINITION. What the replies to remote accesses do, and how requests of other nodes are served (R77, R408 to R411). -/

namespace Sys2Proof.Machine

open Sys2Proof

/-! ## Replies to a core -/

/-- The last of a list of stores that covers byte `a`: the byte it stored. -/
def coveredBy : List (Nat × List Byte) → Nat → Option Byte
  | [], _ => none
  | (pa, bs) :: rest, a =>
    match coveredBy rest a with
    | some b => some b
    | none => if pa ≤ a ∧ a < pa + bs.length then bs[a - pa]? else none

/-- Byte `a` of a remote access: what the core stored meanwhile wins over what came (R119). -/
def RemoteWait.byte (r : RemoteWait) (a : Nat) : Byte := (coveredBy r.above a).getD (Memory.byte r.buf a)
/-- `n` bytes from `a`. -/
def RemoteWait.bytes (r : RemoteWait) (a n : Nat) : List Byte := (List.range n).map (fun i => r.byte (a + i))
/-- The bytes of the whole access. -/
def RemoteWait.all (r : RemoteWait) : List Byte := r.parts.flatMap (fun p => r.bytes p.1 p.2)

/-- Whether word `k` came poisoned and no store of the core has covered it wholly since (R66, R119). -/
def RemoteWait.badWord (r : RemoteWait) (k : Nat) : Bool :=
  Store.get false r.bad k && !r.above.any (fun p => decide (p.1 ≤ 8 * k ∧ 8 * k + 8 ≤ p.1 + p.2.length))

/-- Offsets, within the access, of the words that came poisoned. -/
def RemoteWait.badAt (r : RemoteWait) : List Nat :=
  (r.parts.foldl (fun (acc : Nat × List Nat) p =>
    (acc.1 + p.2, acc.2 ++ ((List.range (wordsOf p.1 p.2)).filter (fun i => r.badWord (p.1 / 8 + i))).map (fun i =>
      acc.1 + (8 * i - p.1 % 8)))) (0, [])).2

/-- The 256-byte line at a remote address as it came. -/
def RemoteWait.line (r : RemoteWait) (ctx owner pa : Nat) : Line :=
  { ctx, pa, owner, data := lineOfBytes (r.bytes pa 256)
    poison := BitVec.ofNat 32 ((List.range 32).map (fun i => b2n (r.badWord (pa / 8 + i)) * 2 ^ i)).sum }

/-- The lines a demand read brought are held as demand lines, unless an acquire came between (R90, R117). -/
def State.keepRemoteLines (s : State) (c : Nat) (r : RemoteWait) : State :=
  if r.stale then s
  else r.asked.foldl (fun (t : State) pa => let k := t.core c; t.setCore c (k.putDemand (r.line k.ctx 8 pa))) s

/-- Removes a remote access of a core. -/
def State.dropRemote (s : State) (c : Nat) (r : RemoteWait) : State :=
  let k := s.core c
  s.setCore c { k with remote := k.remote.erase r }

/-- The line of a fill arrives for whoever asked for it with this request; a line no fill asks for any more is dropped (R98, R119). -/
def State.fillArrives (s : State) (c xid : Nat) (r : RemoteWait) : State :=
  match (s.core c).fills.find? (fun f => f.req == xid + 1) with
  | none => s
  | some f => s.lineArrives c f { r.line f.ctx f.owner f.pa with lastItem := f.lastItem, stale := f.stale }

/-- Drops what waits for a transaction that failed: the access, and the signals that follow it. -/
def Core.failRemote (k : Core) (xid : Nat) : Core := { k with remote := k.remote.filter (fun r => !r.follows xid) }

/-- Writes the words of a merged store: WRITE frames for whole words, poisoned where a word read was poisoned and is not wholly
replaced (R66, assumption 12). A signal that waited for the access waits for the WRITE; `old` is the request whose reply came last. -/
def State.mergeSend (s : State) (c old : Nat) (r : RemoteWait) (pa : Nat) (bytes : List Byte) : State :=
  let lo := pa - pa % 8
  let hi := (pa + bytes.length + 7) / 8 * 8
  let data := (List.range (hi - lo)).map (fun i => (coveredBy [(pa, bytes)] (lo + i)).getD (Memory.byte r.buf (lo + i)))
  let bad := (List.range ((hi - lo) / 8)).filter (fun i =>
    Store.get false r.bad (lo / 8 + i) && !(decide (pa ≤ lo + 8 * i) && decide (lo + 8 * i + 8 ≤ pa + bytes.length)))
  let failed := fun (t : State) (node xid : Nat) => ((t.closeTxn xid false).setCore c ((t.core c).failRemote old)).coreTimeout c node xid
  match s.space lo with
  | .remote node off =>
    let (s1, xid) := s.openTxn (.core c) node 1 lo (hi - lo)
    if s.nodeFailed node then failed s1 node xid
    else match s1.sendFrame (s1.request 2 node 1 xid off 0 data (bad.foldl (fun m i => m + 2 ^ i) 0)) with
      | none => failed s1 node xid
      | some s2 =>
        let k := s2.core c
        let later := fun (q : RemoteWait) => if q.follows old then { q with xids := q.xids ++ [xid] } else q
        (s2.setCore c { k with remote := k.remote.map later }).addRemote c
          { xids := [xid], kind := .store pa bytes, va := r.va, parts := r.parts, holds := r.holds }
  | _ => s

/-- Every reply of a remote access of a core has come, that of request `old` last: what it does (R408 to R410). -/
def State.remoteDone (s : State) (c old : Nat) (r : RemoteWait) : State :=
  let s1 := s.dropRemote c r
  let poisoned := fun (t : State) => t.accFault c { cause := 5, va := r.va % 2 ^ 64 } false false
  match r.kind with
  | .store _ _ => s1
  | .signal _ _ _ _ => s1
  | .fill xid => s1.fillArrives c xid r
  | .merge pa bytes => s1.mergeSend c old r pa bytes
  | .load sd size sx =>
    let s2 := s1.keepRemoteLines c r
    if r.badAt.any (wordUsed (fun _ => true)) then poisoned s2
    else s2.setCore c ((s2.core c).setS sd (extend size sx (leNat r.all)))
  | .vload v mask stream next =>
    let s2 := s1.keepRemoteLines c r
    if r.badAt.any (wordUsed (laneUsed mask)) then poisoned s2
    else
      let k := (s2.core c).setLanes v mask (lanesOf r.all)
      s2.setCore c (if stream = 0 then k else k.streamUsed (stream - 1) next)

/-- Sends the signals of core `c` whose earlier accesses have all been performed, in order, and writes their destinations (R90, R213). -/
def State.fireSignals (s : State) (c : Nat) : List RemoteWait → State
  | [] => s
  | r :: rest =>
    match r.kind with
    | .signal sd h v mode =>
      if r.xids.isEmpty then
        let s1 := s.dropRemote c r
        let k := s1.core c
        ((s1.signalRemote k.ctx k.tag h v mode).setCore c (k.setS sd 0)).fireSignals c rest
      else s.fireSignals c rest
    | _ => s.fireSignals c rest

/-- A request has been answered: the signals that waited for it wait no more for it. -/
def State.answered (s : State) (c xid : Nat) : State :=
  let k := s.core c
  let s1 := s.setCore c { k with remote := k.remote.map (fun q =>
    match q.kind with | .signal _ _ _ _ => { q with xids := q.xids.filter (· != xid) } | _ => q) }
  s1.fireSignals c (s1.core c).remote

/-- A reply for a core (R410): REFUSED is a TRANSLATION_FAULT, not reported while an abort ends the work (R220). A run-ahead fetch
refused by its node is dropped: it counts no drop and pauses nothing, R93 and R94 speaking of this device's translation only
(assumption 69). -/
def State.coreReply (s : State) (c xid addr : Nat) (ok : Bool) (bytes : List Byte) (poison : Nat) : State :=
  let k := s.core c
  let isSignal := fun (r : RemoteWait) => match r.kind with | .signal _ _ _ _ => true | _ => false
  match k.remote.find? (fun r => r.xids.contains xid && !isSignal r) with
  | none => s
  | some r =>
    if !ok then
      if k.aheadOnly xid then s.setCore c (k.dropFill xid)
      else if k.killed && k.stopping then s.setCore c (k.failRemote xid)
      else
        let write := match r.kind with | .store _ _ => true | .merge _ _ => true | _ => false
        s.accFault c { cause := 2, unbacked := true, va := r.va % 2 ^ 64 } write false
    else
      let r1 := { r with
        xids := r.xids.filter (· != xid), buf := Memory.setBytes r.buf addr bytes
        bad := ((List.range (ceilDiv bytes.length 8)).filter (bitOf poison)).foldl (fun m i => Store.set false m (addr / 8 + i) true) r.bad }
      let s1 := s.setCore c { k with remote := k.remote.map (fun q => if q == r then r1 else q) }
      (if r1.xids.isEmpty then s1.remoteDone c xid r1 else s1).answered c xid

/-! ## Replies to an engine -/

/-- A reply for a step of an engine (R410). -/
def State.engReply (s : State) (n tag key xid addr : Nat) (ok : Bool) (bytes : List Byte) (poison : Nat) : State :=
  match s.xfer? n tag key with
  | none => s
  | some x =>
    let x1 := { x with xids := x.xids.filter (· != xid) }
    if !ok then s.putXfer (if x.fail = 0 then { x1 with fail := 1, failAt := addr } else x1)
    else s.putXfer { x1 with
      buf := Memory.setBytes x.buf addr bytes
      bad := ((List.range (ceilDiv bytes.length 8)).filter (bitOf poison)).foldl (fun m i => Store.set false m (addr / 8 + i) true) x.bad }

/-- A reply for a frame of a fabric multicast (R426, R427): delivered, sent again 2 µs later, or abandoned. -/
def State.mcastReply (s : State) (n tag target status operand addr : Nat) : State :=
  match s.mcast? n tag 0x0D with
  | none => s
  | some (_, j) =>
    let node := (j.targets.getD target (0, 0)).2
    if status = 0 then
      (s.setMcast n tag (fun j => { j with counts := j.counts.set target (j.counts.getD target 0 + 1) })).fmcastCheck n tag
    else if status = 5 then
      s.setFab { s.fab with resends := s.fab.resends ++ [(⟨n, tag, target, s.request 3 node 6 0 addr operand [] 0, s.now + 2000⟩ : FabResend)] }
    else s.fmcastDead n tag target

/-! ## Serving requests -/

/-- Whether an incoming request lies in memory that R77 admits: whole words of backed HBM3E, second tier or staging, at most 4,096
bytes. -/
def State.admits (s : State) (off len : Nat) : Bool :=
  decide (8 ≤ len ∧ len ≤ 4096) && off % 8 == 0 && len % 8 == 0 && decide (off < 2 ^ 41) &&
    (List.range (len / 8)).all (fun i => s.plainBacked (off + 8 * i))

/-- Writes the payload of a request with its poison, a demand access (R46, R395, R409, assumption 70). -/
def State.takeWrite (s : State) (f : Frame) : State := s.physWrite f.addr f.view true

/-- The poison bits of the words of a local range. -/
def State.poisonBits (s : State) (a len : Nat) : Nat :=
  ((List.range (len / 8)).filter (fun i => s.isPoisoned (a + 8 * i))).foldl (fun m i => m + 2 ^ i) 0

end Sys2Proof.Machine
end

