-- ==== Sys2Proof/Machine/Txns.lean ====
section
/-! DEFINITION. The commands of remote accesses, sync frames and multicast over the fabric (R77, R408 to R411, R426, R427). -/

namespace Sys2Proof.Machine

open Sys2Proof

/-- WRITE (R77, R409): a request to write is checked whole, performed and acknowledged, or refused without a change. -/
def execWrite (s : State) : Host.Outcome State Fault Refusal :=
  match s.takeOpc 1 with
  | none => .next s
  | some (f, t) =>
    if t.admits f.addr f.len then .next ((t.takeWrite f).replyTo f 4 0 [] 0) else .next (t.replyTo f 4 1 [] 0)

/-- READ_REQ (R77, R409): a request to read is answered with the data and its poison map, or refused. -/
def execReadReq (s : State) : Host.Outcome State Fault Refusal :=
  match s.takeOpc 2 with
  | none => .next s
  | some (f, t) =>
    let len := bitsOf f.operand 0 13
    if t.admits f.addr len then
      .next (((t.countFound f.addr len).touchRange f.addr len false true false).replyTo f 3 0 (Memory.bytes t.dev f.addr len)
        (t.poisonBits f.addr len))
    else .next (t.replyTo f 3 1 [] 0)

/-- READ_RESP (R406, R410): a reply to a read request; one that matches no transaction is stale. -/
def execReadResp (s : State) : Host.Outcome State Fault Refusal :=
  match s.takeOpc 3 with
  | none => .next s
  | some (f, t) => match t.txn? f.xid with
    | none => .next t.countFabStale
    | some x =>
      if x.opc ≠ 2 then .next t.countFabStale
      else
        let t1 := t.closeTxn f.xid false
        match x.owner with
        | .core c => .next (t1.coreReply c f.xid x.addr (f.status == 0) f.payload f.poison)
        | .eng n tag key => .next (t1.engReply n tag key f.xid x.addr (f.status == 0) f.payload f.poison)
        | _ => .next t1

/-- ACK (R406, R410, R411, R427): a reply to a write, a sync or a multicast frame. -/
def execAck (s : State) : Host.Outcome State Fault Refusal :=
  match s.takeOpc 4 with
  | none => .next s
  | some (f, t) => match t.txn? f.xid with
    | none => .next t.countFabStale
    | some x =>
      let t1 := t.closeTxn f.xid false
      match x.owner with
      | .core c => .next (t1.coreReply c f.xid x.addr (f.status == 0) [] 0)
      | .eng n tag key => .next (t1.engReply n tag key f.xid x.addr (f.status == 0) [] 0)
      | .sync _ _ => .next t1
      | .mcast n tag target =>
        let back := fun (u : State) => u.mcastReply n tag target f.status target f.addr
        .next (back t1)
      | .rs n tag pos _ => .next (t1.sampleFail n tag pos 5)

/-- SYNC (R411, R447, R448): a signal of another node is applied to the local object and acknowledged with its status. -/
def execSync (s : State) : Host.Outcome State Fault Refusal :=
  match s.takeOpc 5 with
  | none => .next s
  | some (f, t) =>
    let r := t.signalObj f.addr (bitsOf f.operand 0 48) (bitsOf f.operand 48 2)
    let status := match r.1 with | .applied _ => 0 | .stale => 2 | .overrun => 2 | .abandoned => 3 | .wrongKind => 4 | .poisoned => 2
    let u := if status = 0 then r.2 else r.2.setFab { r.2.fab with syncBad := r.2.fab.syncBad + 1 }
    .next (u.replyTo f 4 status [] 0)

/-- MCAST (R77, R426): a multicast frame is written and acknowledged, refused, or, where `busy`, answered BUSY: none of the 64 buffers
was free, data acknowledged before not yet having left them (a frame that finds 64 frames waiting is answered on its arrival). -/
def execMcast (busy : Bool) (s : State) : Host.Outcome State Fault Refusal :=
  match s.takeOpc 6 with
  | none => .next s
  | some (f, t) =>
    if busy then .next (t.replyTo f 4 5 [] 0)
    else if t.admits f.addr f.len then .next ((t.takeWrite f).replyTo f 4 0 [] 0) else .next (t.replyTo f 4 1 [] 0)

/-! ## Fabric multicast -/

/-- Sends a multicast frame to a target: on this device it is written under R77 at once. -/
def State.fmcastSend (s : State) (n tag t off : Nat) (v : View) : State :=
  match s.mcast? n tag 0x0D with
  | none => s
  | some (_, j) =>
    let dest := j.targets.getD t (0, 0)
    let a := dest.1 % 2 ^ 41 + off
    if j.dead.contains t then s
    else if dest.2 = s.node then
      (if s.admits a v.bytes.length then (s.physWrite a v true).mcastReply n tag t 0 t a else s.fmcastDead n tag t)
    else if s.nodeFailed dest.2 then s.fmcastDead n tag t
    else
      let (s1, xid) := s.openTxn (.mcast n tag t) dest.2 6 a v.bytes.length
      match s1.sendFrame (s1.request 3 dest.2 6 xid a t v.bytes (poisonMap v.bad)) with
      | some s2 => s2
      | none => (s1.e2eRecord n tag dest.2 xid).closeTxn xid false |>.fmcastDead n tag t

/-- FMCAST (R426, R427): a dispatched fabric multicast reads its target list; while it runs, the source reads its next 4,096 bytes
and sends a frame to each target. -/
def execFmcast (n tag : Nat) (s : State) : Host.Outcome State Fault Refusal :=
  match s.cmd? n tag with
  | none => .next s
  | some c =>
    if c.op ≠ 0x0D then .next s
    else if c.phase = .dispatched then
      let cnt := c.mcTargets
      if cnt = 0 ∨ 64 < cnt ∨ c.mcLen = 0 ∨ 2 ^ 24 < c.mcLen ∨ c.mcLen % 8 ≠ 0 ∨ bitsOf (c.body 2) 25 7 ≠ 0 ∨ c.body 2 / 2 ^ 39 ≠ 0 then
        .fault .hostError
      else match s.engStep n tag 0 [(c.body 1, 16 * cnt)] (0, 0) (fun _ => {}) with
        | .wait t => .next t
        | .fault f w t => .next (t.meshFault n tag f w)
        | .lost t => .next (t.settleFab n tag 6 0)
        | .done vs t =>
          let v := vs.headD {}
          if !v.bad.isEmpty then .next (t.meshFault n tag { cause := 5, va := c.body 1 } false)
          else
            let l := (List.range cnt).map (fun i =>
              (leNat ((v.bytes.drop (16 * i)).take 8), leNat ((v.bytes.drop (16 * i + 8)).take 8)))
            if l.any (fun e => e.1 % 8 != 0 || decide (2 ^ 41 ≤ e.1 ∨ 2 ^ 14 ≤ e.2)) then .fault .hostError
            else .next (t.startJob n c (.mcast { targets := l, total := ceilDiv c.mcLen 4096, counts := List.replicate cnt 0 }))
    else match s.mcast? n tag 0x0D with
      | none => .next s
      | some (_, j) =>
        if j.total ≤ j.next then .next s
        else
          let len := min 4096 (c.mcLen - 4096 * j.next)
          match s.engStep n tag j.next [(c.body 0 + 4096 * j.next, len)] (0, 0) (fun _ => {}) with
          | .wait t => .next t
          | .fault f w t => .next (t.meshFault n tag f w)
          | .lost t => .next (t.settleFab n tag 6 0)
          | .done vs t =>
            let t1 := t.setMcast n tag (fun j => { j with next := j.next + 1, firstAt := if j.firstAt = 0 then s.now + 1 else j.firstAt })
            .next ((List.range j.targets.length).foldl (fun (u : State) i => u.fmcastSend n tag i (4096 * j.next) (vs.headD {})) t1)

/-- FAB_MCAST_RESEND (R427): the oldest BUSY answer of a command that is due is sent again, to that target alone. -/
def execFabMcastResend (n tag : Nat) (s : State) : Host.Outcome State Fault Refusal :=
  match s.mcast? n tag 0x0D, s.fab.resends.find? (fun r => r.ctx == n && r.tag == tag) with
  | some (c, j), some r =>
    if s.now < r.due then .next s
    else
      let off := r.frame.addr - (j.targets.getD r.target (0, 0)).1 % 2 ^ 41
      let len := min 4096 (c.mcLen - off)
      match s.engStep n tag (1000000 + off) [(c.body 0 + off, len)] (0, 0) (fun _ => {}) with
      | .wait t => .next t
      | .fault f w t => .next (t.meshFault n tag f w)
      | .lost t => .next (t.settleFab n tag 6 0)
      | .done vs t => .next ((t.setFab { t.fab with resends := t.fab.resends.erase r }).fmcastSend n tag r.target off (vs.headD {}))
  | _, _ => .next s

/-- FAB_MCAST_DEADLINE (R427): 20 µs after its first frame a fabric multicast completes PARTIAL. -/
def execFabMcastDeadline (n tag : Nat) (s : State) : Host.Outcome State Fault Refusal :=
  match s.mcast? n tag 0x0D with
  | some (_, j) => if j.firstAt ≠ 0 ∧ j.firstAt - 1 + 20000 ≤ s.now then .next (s.settleFab n tag 3 j.delivered) else .next s
  | none => .next s

end Sys2Proof.Machine
end

