-- ==== Sys2Proof/Machine/HallOps.lean ====
section
/-! DEFINITION. Town Hall: reading descriptors, taking aborts, dispatch and completion (R253, R254, R266, R306, R371, R423, R481 to
R500). -/

namespace Sys2Proof.Machine

open Sys2Proof

/-! ## Polling (R481) -/

/-- The active interval in force, in ns. -/
def State.pollActive (s : State) : Nat := max 100 (s.fld 0x3C0 0 16)
/-- The idle interval in force, in ns. -/
def State.pollIdle (s : State) : Nat := max s.pollActive (s.fld 0x3C4 0 24)

/-- Whether a context is active: a command read but not completed, or host words that changed within 100 µs. -/
def State.ctxActive (s : State) (n : Nat) : Bool :=
  let x := s.ctx n
  !x.cmds.isEmpty || (x.changedAt != 0 && decide (s.now < x.changedAt - 1 + 100000))

/-- Whether the next poll of a context is due. -/
def State.pollDue (s : State) (n : Nat) : Bool :=
  let x := s.ctx n
  x.polledAt == 0 || decide (x.polledAt - 1 + (if s.ctxActive n then s.pollActive else s.pollIdle) ≤ s.now)

/-- Reads host memory for Town Hall: none, counted under R534, when the read fails or its completion carries EP (R503). -/
def State.hallRead (s : State) (n bus len : Nat) : Except State Nat :=
  if s.hostRangeFails bus len || (poisonIn s.hostEp bus len).isSome then .error (s.hostReadError n bus) else .ok (s.hostRead bus len)

/-! ## Descriptors (R485 to R487) -/

/-- The OP codes R486 defines. -/
def definedOps : List Nat :=
  [1, 2, 3, 4, 5, 6, 7, 8, 9, 0xA, 0xB, 0xC, 0xD, 0x10, 0x11, 0x12, 0x13, 0x14]

/-- A descriptor that completes FAULT with ILLEGAL_OPCODE (R487). -/
def Cmd.illegal (c : Cmd) : Bool := !definedOps.contains c.op || c.pwMode == 3

/-- Reserved fields of the body words, as the widths of the defined part of B1, B2 and B3 (R486); the commands check the rest
themselves. -/
def bodyWidths : Nat → Nat × Nat × Nat
  | 1 => (23, 0, 0) | 2 => (64, 40, 0) | 3 => (0, 0, 0) | 4 => (0, 0, 0) | 5 => (0, 0, 0) | 6 => (64, 0, 0) | 7 => (0, 0, 0)
  | 8 => (64, 64, 64) | 9 => (64, 39, 64) | 0xA => (64, 64, 64) | 0xB => (64, 64, 64) | 0xC => (64, 64, 64) | 0xD => (64, 39, 64)
  | 0x10 => (48, 13, 0) | 0x11 => (0, 0, 0) | 0x12 => (50, 0, 0) | 0x13 => (50, 64, 0) | 0x14 => (34, 0, 0)
  | _ => (64, 64, 64)

/-- A reserved field of a descriptor that is set, or a gate flag on a command that carries none (R16, R266, R485, R486). -/
def Cmd.reservedSet (c : Cmd) : Bool :=
  let w := bodyWidths c.op
  bitsOf (c.word 0) 12 20 != 0 || c.word 1 / 2 ^ 41 != 0 || c.word 3 / 2 ^ 39 != 0 ||
    (!c.illegal && (c.body 1 / 2 ^ w.1 != 0 || c.body 2 / 2 ^ w.2.1 != 0 || c.body 3 / 2 ^ w.2.2 != 0 ||
      (c.op == 4 && c.body 0 != 0) || (c.gateNf && c.op != 1) || (c.gateSq && c.op != 1 && c.op != 0xC)))

/-- The descriptor in words as read from the ring. -/
def descWords (x : Nat) : List W64 := (List.range 8).map (fun i => BitVec.ofNat 64 (x / 2 ^ (64 * i)))

/-- A command that takes the next COLL_SEQ of its group when it is read (R414). -/
def Cmd.takesSeq (c : Cmd) : Bool := c.op == 0xC || (c.op == 6 && c.group != 0)

/-- A command that was aborted before dispatch (R276, R498, R499). -/
def Cmd.abortEarly (c : Cmd) : Cmd :=
  if c.op = 6 then { c with gateAbort := true, abortRec := true } else { c.settle 1 0 0 with abortRec := true }

/-- Sends COLL_ABORT for a collective that ends before it ran, to both neighbours (R422). -/
def State.abortUnstarted (s : State) (c : Cmd) (reason : Nat) : State :=
  if c.op = 0xC then
    match s.group? c.group with
    | some e => (s.sendCollAbort e c.group c.seq c.collKind reason).dropEarly c.group c.seq
    | none => s
  else s

/-- A command joins those read: it takes its step and COLL_SEQ, and a marked one is aborted (R269, R414, R498). None where the
step numbers break the order of R269. -/
def State.joinCmd (s : State) (n : Nat) (c : Cmd) : Option State :=
  let q := if c.takesSeq then s.takeSeq c.group else (0, s)
  let c1 := { c with seq := q.1 }
  let x := q.2.ctx n
  match x.noteStep c1 with
  | none => none
  | some y =>
    let hit := y.marked.contains c.tag
    let c2 := if hit then c1.abortEarly else c1
    let t := q.2.setCtx n { y with
      cmdHead := (y.cmdHead + 1) % 2 ^ 32, cmds := y.cmds ++ [c2], marked := y.marked.filter (fun m => m != c.tag) }
    some (if hit then t.abortUnstarted c2 1 else t)

/-- Takes the descriptor read from the ring entry at CMD_HEAD: none for a host error, a TAG that is not its count or a reserved
bit (R485, R504). -/
def State.takeDesc (s : State) (n v : Nat) : Option State :=
  let c : Cmd := { tag := (s.ctx n).cmdHead, desc := descWords v }
  if bitsOf (c.word 0) 32 32 ≠ c.tag ∨ c.reservedSet then none else s.joinCmd n c

/-- Host bus address of the ring entry at CMD_HEAD (R478, R480). -/
def State.headSlot (s : State) (n : Nat) : Nat := s.ringBase n + 64 * ((s.ctx n).cmdHead % 2 ^ s.cmdLog n)

/-- A context reads no further descriptor while it has this many commands read but not completed (R481). -/
def maxOpen : Nat := 1024

/-- What reading descriptors found. -/
inductive DescRead where
  | ok (s : State)
  /-- a host error of R504 -/
  | error

/-- Reads descriptors while there are any and fewer than 1,024 commands are outstanding (R483). -/
def State.readDescs : Nat → Nat → State → DescRead
  | 0, _, s => .ok s
  | fuel + 1, n, s =>
    if (s.ctx n).cmdHead = (s.ctx n).cmdTail ∨ maxOpen ≤ (s.ctx n).cmds.length then .ok s
    else match s.hallRead n (s.headSlot n) 64 with
      | .error t => .ok t
      | .ok v =>
        match s.takeDesc n v with
        | none => .error
        | some t => State.readDescs fuel n t

/-- Reads and checks the job record of a command that has one (R288, R314). -/
def State.loadRecord (s : State) (n : Nat) (c : Cmd) : LoadRes :=
  if c.op = 5 then s.loadPress n c else if c.op = 7 then s.loadIngest n c else .ok s

/-- The job records of the PRESS and INGEST commands of a context read and not yet loaded: Town Hall reads them when it reads the
commands, and again at later polls where host memory failed or remote space has not answered (R288, R314, R503). A command with PREWAIT
mode 3 names nothing Town Hall reads (R487). -/
def State.loadRecords (n : Nat) : List Nat → State → DescRead
  | [], s => .ok s
  | tag :: rest, s =>
    match s.cmd? n tag with
    | none => State.loadRecords n rest s
    | some c =>
      if c.phase ≠ .read ∨ c.illegal ∨ c.jrec.isSome ∨ c.aborted then State.loadRecords n rest s
      else match s.loadRecord n c with
        | .error => .error
        | .ok t => State.loadRecords n rest t

/-! ## Aborts (R498 to R500) -/

/-- Holds a record for the completion ring (R483). -/
def State.holdRec (s : State) (n : Nat) (r : HeldRec) : State :=
  let x := s.ctx n
  s.setCtx n { x with held := x.held ++ [r] }

/-- The abort record of a request that loses. -/
def State.tooLate (s : State) (n tag : Nat) (stale : Bool) : State := s.holdRec n { tag, status := 2, kind := 1, stale }

/-- The position a Press command that never started reports: its START_UNIT (R302, R303). -/
def Cmd.unstartedPress (c : Cmd) : Nat := match c.jrec with | some r => pjStart r | none => 0

/-- An abort of a command before its commit point; none when it comes too late (R499). -/
def State.abortCmd (s : State) (n : Nat) (c : Cmd) : Option State :=
  let clear := fun (t : State) => if c.pre = .waiting then t.setWaiters (hIndex c.prewait) else t
  match c.phase with
  | .settled => none
  | .read =>
    if c.gateAbort then none
    else some (clear (((s.dropXfers n c.tag).setCmd n c.abortEarly).abortUnstarted c 1))
  | .dispatched =>
    if c.op = 6 then (if c.gateAbort then none else some (s.setCmd n c.abortEarly))
    else if [3, 4, 0x10, 0x11].contains c.op then none
    else if c.op = 5 then some (s.setCmd n { c.settle 1 0 c.unstartedPress with abortRec := true })
    else some (((s.dropXfers n c.tag).setCmd n c.abortEarly).abortUnstarted c 1)
  | .running => match c.job with
    | .none => none
    | .xlate _ => none
    | .compute j => s.computeAbort n c j
    | .fill j => if j.leader = 0 then some ((s.setCmd n c.abortEarly).countHeld n) else none
    | .dma j => s.dmaAbort n c j
    | .wait j => some (s.waitAbort n c j)
    | .gate j => if j.sent ∨ j.out.isSome ∨ c.gateAbort then none else some (s.setCmd n { c with gateAbort := true, abortRec := true })
    | .press j => s.pressAbort n c j
    | .dump j => some (s.dumpAbort n c j)
    | .reduce j => some (s.reduceAbort n c j)
    | .mcast j =>
      if c.op = 9 then some (s.mcastAbort n c j)
      else some ((s.setCmd n { c with abortRec := true }).settleFab n c.tag 1 j.delivered)
    | .gather j => some (s.gatherAbort n c j)
    | .coll _ => some ((s.setCmd n { c with abortRec := true }).collRaise n c.tag 1 0 s.node 0)
    | .ingest j => if j.ending.isSome then none else some (s.ingestAbort n c j)

/-- Town Hall takes an abort request for a tag (R498). -/
def State.takeAbort (s : State) (n tag : Nat) : State :=
  let x := s.ctx n
  let d := wrapSub x.cmdTail tag
  if d = 0 ∨ 2 ^ 24 < d then
    let k := satAdd 0xFFFFFFFF x.abtStale 1
    ((s.setCtx n { x with abtStale := k }).hostWrite (s.doorbell n + 0x814) (natLE 4 k)).tooLate n tag true
  else if d ≤ wrapSub x.cmdTail x.cmdHead then
    s.setCtx n { x with marked := if x.marked.contains tag then x.marked else x.marked ++ [tag] }
  else match s.cmd? n tag with
    | none => s.tooLate n tag false
    | some c => match s.abortCmd n c with
      | some t => t
      | none => s.tooLate n tag false

/-- Takes `k` abort requests in order. -/
def State.takeAborts (s : State) (n : Nat) (page : Nat) : Nat → State
  | 0 => s
  | k + 1 =>
    let x := s.ctx n
    let tag := bitsOf page (8 * (0x10 + 8 * (x.abtHead % 16))) 32
    ((s.setCtx n { x with abtHead := (x.abtHead + 1) % 2 ^ 32 }).takeAbort n tag).takeAborts n page k

/-- Whether the host words of a page break R480, R498 or R504. -/
def Ctx.wordsBad (x : Ctx) (cmdLog ctail cplHead evtHead abtTail : Nat) : Bool :=
  decide (2 ^ cmdLog < wrapSub ctail x.cmdHead) || decide (wrapSub ctail x.cmdHead < wrapSub x.cmdTail x.cmdHead) ||
    decide (wrapSub x.cplTail x.cplHead < wrapSub x.cplTail cplHead) || decide (wrapSub x.evtTail x.evtHead < wrapSub x.evtTail evtHead) ||
    decide (16 < wrapSub abtTail x.abtHead) || decide (wrapSub abtTail x.abtHead < wrapSub x.abtTail x.abtHead)

/-- Notes the time of a poll of context `n` (R481). -/
def State.markPolled (s : State) (n : Nat) : State := s.setCtx n { s.ctx n with polledAt := s.now + 1 }

/-- Word `i` of a doorbell page. -/
def pageWord (page i : Nat) : Nat := bitsOf page (32 * i) 32

/-- Whether the host words of the page read are as the context holds them. -/
def Ctx.sameWords (x : Ctx) (page : Nat) : Bool :=
  x.cmdTail == pageWord page 0 && x.cplHead == pageWord page 1 && x.evtHead == pageWord page 2 && x.abtTail == pageWord page 3

/-- Takes the host words of the page read, and the abort requests they add (R480, R498). -/
def State.takeWords (s : State) (n page : Nat) : State :=
  (s.setCtx n { s.ctx n with
    cmdTail := pageWord page 0, cplHead := pageWord page 1, evtHead := pageWord page 2, abtTail := pageWord page 3
    changedAt := if (s.ctx n).sameWords page then (s.ctx n).changedAt else s.now + 1 }).takeAborts n page
      (wrapSub (pageWord page 3) (s.ctx n).abtHead)

/-- Writes CMD_HEAD and ABT_HEAD to the page where they moved from what `x` holds (R480). -/
def State.writeHeads (s : State) (n : Nat) (x : Ctx) : State :=
  let y := s.ctx n
  let t := if y.cmdHead = x.cmdHead then s else s.hostWrite (s.doorbell n + 0x800) (natLE 4 y.cmdHead)
  if y.abtHead = x.abtHead then t else t.hostWrite (s.doorbell n + 0x80C) (natLE 4 y.abtHead)

/-- One poll: host words, aborts, descriptors with the job records they name, and the device's own words where they changed (R288,
R314, R483). -/
def State.poll (s : State) (n : Nat) : Host.Outcome State Fault Refusal :=
  match (s.markPolled n).hallRead n (s.doorbell n) 0x90 with
  | .error t => .next t
  | .ok page =>
    if (s.ctx n).wordsBad (s.cmdLog n) (pageWord page 0) (pageWord page 1) (pageWord page 2) (pageWord page 3) then .fault .hostError
    else match State.readDescs maxOpen n ((s.markPolled n).takeWords n page) with
      | .error => .fault .hostError
      | .ok t => match State.loadRecords n ((t.ctx n).cmds.map (·.tag)) t with
        | .error => .fault .hostError
        | .ok t => .next (t.writeHeads n (s.ctx n))

/-! ## Dispatch (R491, R492) -/

/-- The first command of a context that has not been dispatched, with whether every earlier one has completed. -/
def Ctx.nextCmd (x : Ctx) : Option (Cmd × Bool) :=
  match x.cmds.find? (fun (c : Cmd) => c.phase == .read) with
  | none => none
  | some c => some (c, match x.cmds with | d :: _ => d.tag == c.tag | [] => true)

/-- A command ends FAULT without having run, with a cause and no event record; a gate that ends so waits for its turn and resolves
FAULT for its Press commands (R269, R487, R492). -/
def State.failUnstarted (s : State) (n : Nat) (c : Cmd) (cause : Nat) : State :=
  let s1 := s.setCmd n (c.settle 4 cause 0)
  if c.op ≠ 6 then s1
  else if (s.ctx n).gateNext = some c.gateStep then s1.skipGate n c
  else s

/-- What PREWAIT lets a command do. -/
inductive PreRes where
  | go (s : State)
  | hold (s : State)
  | fail (cause : Nat) (s : State)

/-- The PREWAIT of a command, checked as a WAIT would check it and then left to the wakes (R460, R491). -/
def State.prewait (s : State) (n : Nat) (c : Cmd) : PreRes :=
  let stale := fun (t : State) => if Config.stalePrewait n c.tag then PreRes.go t else .hold t
  if c.pwMode = 0 then .go s
  else match c.pre with
    | .met => .go s
    | .waiting => .hold s
    | .abandoned => .fail 8 s
    | .poisoned => .fail 5 s
    | .stale => stale s
    | .none =>
      if s.hRemote c.prewait then .fail 3 s
      else
        let r := s.waitObj c.prewait (if c.pwMode = 1 then 0 else 2) c.pwThr
        let keep := fun (p : PreWait) => r.2.setCmd n { c with pre := p }
        match r.1 with
        | .met _ => .go (keep .met)
        | .no _ => .hold ((keep .waiting).setWaiters (hIndex c.prewait))
        | .stale => stale (keep .stale)
        | .abandoned => .fail 8 r.2
        | .poisoned => .fail 5 r.2
        | .wrongKind => .fail 3 r.2

/-- Whether context `m` has a command that may be dispatched; the PREWAIT of one not yet checked counts as one (R491). -/
def State.mayDispatch (s : State) (m : Nat) : Bool :=
  s.ctxState m == 1 && !s.ctxPreempt m && match (s.ctx m).nextCmd with
    | none => false
    | some (c, first) =>
      (first || !(c.fence || c.op == 3)) && (c.illegal || (!((c.op == 5 || c.op == 7) && c.jrec.isNone) && c.pre != .waiting &&
        (c.pre != .stale || Config.stalePrewait m c.tag) && !s.gateHolds m c))

/-- Whether it is the turn of context `n`: no other context with a command to dispatch had its last turn earlier (R491). -/
def State.hasTurn (s : State) (n : Nat) : Bool :=
  (List.range 8).all (fun m => !(s.mayDispatch m && decide ((s.ctx m).served < (s.ctx n).served)))

/-- Context `n` takes its turn. -/
def State.takeTurn (s : State) (n : Nat) : State :=
  s.setCtx n { s.ctx n with served := (List.range 8).foldl (fun m k => max m (s.ctx k).served) 0 + 1 }

/-! ## Completion (R492) -/

/-- The 64 bytes of a statistics slot (R254). -/
def statSlot (t : ConvStats) (adv : Nat) : List Byte :=
  natLE 8 t.elems ++ natLE 8 t.sqerr ++ natLE 8 t.sqval ++ natLE 8 t.sat ++ natLE 8 t.nonfinite ++ natLE 8 t.selvage ++
    natLE 4 t.maxabs.toNat ++ natLE 4 0 ++ natLE 8 adv

/-- The 32 bytes of a collective's result slot (R423). -/
def CollJob.slot (j : CollJob) : List Byte :=
  natLE 4 j.done ++ natLE 4 (min j.sat 0xFFFFFFFF) ++ natLE 4 (min j.nf 0xFFFFFFFF) ++
    natLE 4 (if j.node = 0 then 0 else (j.node - 1) % 2 ^ 14 + 2 ^ 14) ++ natLE 8 j.peerSeal ++ natLE 8 0

/-- `n` free bytes for a slot whose content no rule states. -/
def State.freeSlot (s : State) (n : Nat) : List Byte × State := (freeBytes s.free n, { s with free := s.free + n })

/-- A slot at an address, 0 naming none. -/
def slotAt (va : Nat) (bs : List Byte) : List (Nat × View) := if va = 0 then [] else [(va, { bytes := bs })]

/-- The slots and counter words a settled command writes at its completion, in order (R253, R301, R306, R348, R371, R423). -/
def State.finals (s : State) (n : Nat) (c : Cmd) : List (Nat × View) :=
  match c.job with
  | .compute j => slotAt j.slot (statSlot j.totals (s.advisory n j.totals))
  | .fill j => slotAt (recField j.lrec 8 8) (statSlot {} (s.advisory n {}))
  | .press j => j.finals c
  | .reduce _ => slotAt (c.body 3) (freeBytes s.free 16)
  | .mcast j => if [0, 1, 3].contains c.status || c.wrote != 0 then slotAt (c.body 3) (natLE 8 j.delivered) else []
  | .coll j => slotAt (c.body 3) j.slot
  | .ingest j => slotAt (ijResult j.jrec) j.slot
  | _ => []

/-- Where the writes at a command's completion stand. -/
inductive FinalRes where
  | wait (s : State)
  | done (s : State)

/-- Writes what a settled command writes at its completion from write `k` on; what was written already is passed over. The command that
would complete OK completes FAULT with the cause of the first write that faults, or TIMEOUT where remote space gives no reply (R410,
R603). -/
def State.writeFinals (n tag : Nat) : Nat → List (Nat × View) → State → FinalRes
  | _, [], s => .done s
  | k, w :: ws, s =>
    let ends := fun (t : State) (status cause : Nat) => t.updCmd n tag (fun d =>
      let e := { d with wrote := k + 1 }
      if status ≠ 0 ∧ d.status = 0 then { e with status, cause } else e)
    if k < ((s.cmd? n tag).map (·.wrote)).getD 0 then State.writeFinals n tag (k + 1) ws s
    else match s.thWrite n tag (hallKey (1 + k)) w.1 w.2 with
      | .wait t => .wait t
      | .lost t => State.writeFinals n tag (k + 1) ws (ends t 6 0)
      | .ok 0 t => State.writeFinals n tag (k + 1) ws (ends t 0 0)
      | .ok cause t => State.writeFinals n tag (k + 1) ws (ends t 4 cause)

/-- The writes of a settled command at its completion; the advisory bit follows from the totals of a compute command (R253). -/
def State.finalWrites (s : State) (n : Nat) (c : Cmd) : FinalRes :=
  let s1 := match c.job with
    | .compute j => s.updCmd n c.tag (fun d => { d with adv := s.advisory n j.totals != 0 })
    | .reduce _ => if c.body 3 = 0 then s else (s.freeSlot 16).2
    | _ => s
  State.writeFinals n c.tag 0 (s.finals n c) s1

/-- Adds a completing command's contribution to the bank of its gate step (R266, R268, R271): the totals of a compute command, those of
a fill batch once, with its first request; the finished elements of a reduce-scatter's shard. -/
def State.contribute (s : State) (n : Nat) (c : Cmd) : State :=
  if !c.contributes then s
  else
    let bad := fun (b : GateBank) => if c.status = 0 then b else { b with fault := true }
    match c.job with
    | .compute j =>
      let t := j.totals
      s.addBank n c.gateStep (fun b =>
        let b1 := b.addNf t.nonfinite
        bad (if j.lead ≠ 0 then b else if c.gateSq then b1.addSq t.sqval else b1))
    | .coll j => s.addBank n c.gateStep (fun b => bad (j.gateElems.foldl GateBank.addElem b))
    | _ => s.addBank n c.gateStep bad

/-- The last progress write, SIGNAL and the completion record of a settled command; it then no longer stands in the context (R492,
R496, R500). -/
def State.finishCmd (s : State) (n tag : Nat) : State :=
  match s.cmd? n tag with
  | none => s
  | some c =>
    let s1 := (s.progressFor n tag).signalOnce n tag
    let c1 := (s1.cmd? n tag).getD c
    let s2 := s1.contribute n c1
    let s3 := s2.holdRec n c1.record
    let s4 := if c1.abortRec then s3.holdRec n { tag, status := if c1.status = 1 then 1 else 2, kind := 1 } else s3
    let x := s4.ctx n
    s4.setCtx n { x with cmds := x.cmds.filter (fun (d : Cmd) => d.tag != tag) }

/-- Whether a command waits for an earlier request of its fill batch to complete (R175). -/
def State.behindBatch (s : State) (n : Nat) (c : Cmd) : Bool :=
  match c.job with
  | .compute j => j.lead != 0 && ((s.ctx n).cmds.takeWhile (fun (d : Cmd) => d.tag != c.tag)).any (fun (d : Cmd) =>
      d.tag + 1 == j.lead || match d.job with | .compute k => k.lead == j.lead | _ => false)
  | _ => false

/-- A settled command completes once its last writes have been made (R492); the other requests of a fill batch are then settled with its
first (R175). -/
def State.completeCmd (s : State) (n : Nat) (c : Cmd) : State :=
  if s.behindBatch n c then s
  else match s.finalWrites n c with
    | .wait t => t
    | .done t =>
      let c1 := (t.cmd? n c.tag).getD c
      let t1 := match c.job with
        | .compute j => t.settleBatch n c1 j.stats j.named true j.batch
        | _ => t
      t1.finishCmd n c.tag

end Sys2Proof.Machine
end

