-- ==== Sys2Proof/Machine/CtxCtl.lean ====
section
/-! DEFINITION. Enabling, disabling, pre-empting, resuming and resetting a context, and its page-table root (R79, R479, R501,
R502). -/

namespace Sys2Proof.Machine

open Sys2Proof

/-- Whether a range of host memory holds a byte other than zero. -/
def State.hostDirty (s : State) (lo len : Nat) : Bool := s.host.any (fun p => decide (lo ≤ p.1 ∧ p.1 < lo + len))

/-- Whether the ring sizes of a context are in range (R477). -/
def State.ringSizesOk (s : State) (n : Nat) : Bool :=
  let c := s.cmdLog n
  let p := s.cplLog n
  let e := s.evtLog n
  decide (1 ≤ c ∧ c ≤ 16 ∧ c + 1 ≤ p ∧ p ≤ 17 ∧ 4 ≤ e ∧ e ≤ 16)

/-- ENABLE of CTX_CTRL changes from 0 to 1 (R477, R479, R504). -/
def State.enableCtx (s : State) (n : Nat) : Host.Outcome State Fault Refusal :=
  if s.ctxState n ≠ 0 ∨ !s.ringSizesOk n ∨ s.hostDirty (s.doorbell n) 4096 ∨ s.hostDirty (s.cplBase n) (32 * 2 ^ s.cplLog n) then
    .fault .hostError
  else
    let x := s.ctx n
    let y : Ctx := { tlb := x.tlb, bankEven := x.bankEven, bankOdd := x.bankOdd, gateNext := x.gateNext, gateRead := x.gateRead, gateDone := x.gateDone }
    .next (((((s.setCtx n y).setFlag (ctxCtrl n) 0 true).setFld (ctxCtrl n) 4 2 1)).ctxProgress n)

/-- ENABLE changes from 1 to 0 (R479). -/
def State.disableCtx (s : State) (n : Nat) : State := (s.setFlag (ctxCtrl n) 0 false).ctxProgress n

/-- PREEMPT is set (R461, R501). -/
def State.preemptCtx (s : State) (n : Nat) : State :=
  let s1 := (s.setFlag (ctxCtrl n) 1 true).freezeCtx n
  ((s1.ctxCores n).foldl (fun (t : State) c => if t.active c then t.setCore c { t.core c with stop := true } else t) s1).ctxProgress n

/-- PREEMPT is cleared (R461, R501): a stop not yet taken is withdrawn, unless an abort, a debug halt or a Block reset asks for it
too. -/
def State.resumeCtx (s : State) (n : Nat) : State :=
  let s1 := s.setFlag (ctxCtrl n) 1 false
  ((s1.ctxCores n).foldl (fun (t : State) c =>
    let k := t.core c
    if k.killed || k.halted || t.dbg == .resetStop (coreBlock c) then t else t.setCore c { k with stop := false }) s1).ctxProgress n

/-- What a reset does to one command: engine commands end at their next unit boundary, and all others at once (R502). -/
def State.resetCmd (s : State) (n tag : Nat) : State :=
  let gone := fun (t : State) =>
    let x := t.ctx n
    t.setCtx n { x with cmds := x.cmds.filter (fun (d : Cmd) => d.tag != tag) }
  match s.cmd? n tag with
  | none => s
  | some c =>
    if c.op = 6 then gone (s.resetGate n c)
    else if c.phase = .settled then gone s
    else if c.op = 0xC then
      (if c.phase = .running then gone (s.collRaise n tag 1 0 s.node 0) else gone (s.abortUnstarted c 1))
    else if c.phase ≠ .running then
      (let t := gone (s.dropXfers n tag); if c.pre = .waiting then t.setWaiters (hIndex c.prewait) else t)
    else match c.job with
      | .dma j => s.dmaSettle n c { j with stopped := true }
      | .press _ => (((s.updPress n tag (fun j => { j with stop := true, aborted := true })).pressSettle n tag).dropXfer n tag 998).dropXfer n tag (hallKey 0)
      | .wait j => (gone s).setWaiters j.index
      | .ingest j => if j.ending.isSome then s else s.ingestEnds n tag 1 0 j.first
      | .fill _ => (gone (s.dropXfers n tag)).countHeld n
      | _ => gone ((s.purgeMesh n tag).dropXfers n tag)

/-- RESET is written (R502). -/
def State.resetCtx (s : State) (n : Nat) : State :=
  let tags := (s.ctx n).cmds.map (fun (c : Cmd) => c.tag)
  let s1 := (s.setFld (ctxCtrl n) 4 2 3).abandonCtx n
  let s2 := tags.foldl (fun (t : State) tag => t.resetCmd n tag) s1
  let s3 := { s2 with
    roomWait := s2.roomWait.filter (fun p => p.1 / 2 ^ 32 != n)
    cores := s2.cores.map (fun (p : Nat × Core) => (p.1, { p.2 with works := p.2.works.filter (fun w => w.ctx != n) })) }
  let s4 := (s3.ctxCores n).foldl (fun (t : State) c =>
    let k := t.core c
    if k.run = .stopped then t.endWork c .aborted else t.setCore c { k with stop := true, killed := true }) s3
  let s5 := s4.dropXlat n
  let x := s5.ctx n
  (s5.setCtx n { x with marked := [], held := [], bankEven := {}, bankOdd := {}, gateNext := none, gateRead := none, gateDone := [] }).progress

/-- CTX_ENABLE (R479). -/
def execCtxEnable (n : Nat) (s : State) : Host.Outcome State Fault Refusal :=
  if 8 ≤ n ∨ !s.ready ∨ s.ctxEnabled n then .next s else s.enableCtx n

/-- CTX_DISABLE (R479). -/
def execCtxDisable (n : Nat) (s : State) : Host.Outcome State Fault Refusal :=
  if 8 ≤ n ∨ !s.ready ∨ !s.ctxEnabled n then .next s else .next (s.disableCtx n)

/-- CTX_PREEMPT (R501). -/
def execCtxPreempt (n : Nat) (s : State) : Host.Outcome State Fault Refusal :=
  if 8 ≤ n ∨ !s.ready ∨ s.ctxPreempt n then .next s else .next (s.preemptCtx n)

/-- CTX_RESUME (R501). -/
def execCtxResume (n : Nat) (s : State) : Host.Outcome State Fault Refusal :=
  if 8 ≤ n ∨ !s.ready ∨ !s.ctxPreempt n then .next s else .next (s.resumeCtx n)

/-- CTX_RESET (R502). -/
def execCtxReset (n : Nat) (s : State) : Host.Outcome State Fault Refusal :=
  if 8 ≤ n ∨ !s.ready ∨ s.ctxState n = 3 then .next s else .next (s.resetCtx n)

/-- CTX_PT_ROOT_WRITE (R79): the root changes, and every cached translation and all run-ahead data of the context are discarded. -/
def execCtxPtRootWrite (n : Nat) (v : W64) (s : State) : Host.Outcome State Fault Refusal :=
  if 8 ≤ n ∨ !s.ready then .next s
  else if bitsOf v.toNat 1 13 ≠ 0 ∨ bitsOf v.toNat 56 8 ≠ 0 then .fault .reservedBits
  else if !(s.ctx n).cmds.isEmpty then .fault .hostError
  else .next ((s.setReg64 (0x480 + 8 * n) v.toNat).dropXlat n)

end Sys2Proof.Machine
end

