-- ==== Sys2Proof/Machine/Hall.lean ====
section
/-! DEFINITION. The commands of Town Hall: polls, dispatch, completion, records, progress writes and host reads that time out (R481 to
R500, R503). -/

namespace Sys2Proof.Machine

open Sys2Proof

/-- DOORBELL_POLL (R481, R483, R498): the poll of context `n`, when its interval has passed. -/
def execDoorbellPoll (n : Nat) (s : State) : Host.Outcome State Fault Refusal :=
  if 8 ≤ n ∨ !s.ready ∨ !s.ctxEnabled n ∨ s.ctxState n = 3 ∨ !s.pollDue n then .next s else s.poll n

/-- COMMAND_DISPATCH (R269, R487, R491, R492): in its turn, the next command of context `n` in ring order is dispatched when nothing holds
it; a PRESS or INGEST once its job record has been read. -/
def execCommandDispatch (n : Nat) (s : State) : Host.Outcome State Fault Refusal :=
  if !s.ready ∨ s.ctxState n ≠ 1 ∨ s.ctxPreempt n ∨ !s.hasTurn n then .next s
  else match (s.ctx n).nextCmd with
    | none => .next s
    | some (c, first) =>
      if (c.fence ∨ c.op = 3) ∧ !first then .next s
      else if c.illegal then .next (s.failUnstarted n c 7)
      else if (c.op = 5 ∨ c.op = 7) ∧ c.jrec.isNone then .next s
      else match s.prewait n c with
        | .hold t => .next t
        | .fail cause t => .next (t.failUnstarted n c cause)
        | .go t =>
          if t.gateHolds n c then .next t else .next ((t.updCmd n c.tag (fun d => { d with phase := .dispatched })).takeTurn n)

/-- COMMAND_COMPLETE (R253, R266, R492, R500): a settled command makes its last writes, signals SIGNAL and hands over its record. A
command of a context being reset ends without any of these (R502). -/
def execCommandComplete (n tag : Nat) (s : State) : Host.Outcome State Fault Refusal :=
  match s.cmd? n tag with
  | none => .next s
  | some c =>
    if !s.ready ∨ c.phase ≠ .settled then .next s
    else if s.ctxState n = 3 then .next (s.ctxProgress n)
    else .next ((s.completeCmd n c).ctxProgress n)

/-- COMPLETION_RECORD_WRITE (R483): the oldest record held is written once the completion ring has room. -/
def execCompletionRecordWrite (n : Nat) (s : State) : Host.Outcome State Fault Refusal :=
  let x := s.ctx n
  match x.held with
  | [] => .next s
  | r :: rest =>
    if !s.ready ∨ s.ctxState n = 3 ∨ !s.cplRoom n then .next s
    else .next (((s.setCtx n { x with held := rest }).putRecord n r).ctxProgress n)

/-- PROGRESS_WRITE (R496): the progress slot of a running command is written again. -/
def execProgressWrite (n tag : Nat) (s : State) : Host.Outcome State Fault Refusal :=
  match s.cmd? n tag with
  | none => .next s
  | some c => if s.ready ∧ c.phase = .running then .next (s.writeProgress n c) else .next s

/-- The host bus address a virtual address of context `n` reads, where it lies in host space. -/
def State.hostBus (s : State) (n va : Nat) : Option Nat :=
  match s.translate n va false with
  | .ok pa _ _ => match s.space pa with | .host bus => some bus | _ => none
  | .fault _ => none

/-- An engine's read for a command fails: the record of R86 and the end of the command (R503). -/
def State.engineReadFails (s : State) (n : Nat) (c : Cmd) (f : AccFault) : State :=
  match c.job with
  | .coll _ => s.collFault n c.tag f false
  | .mcast _ | .reduce _ | .gather _ => s.meshFault n c.tag f false
  | .press _ => (s.cmdFaultRec n c.tag 4 0 f false).pressEndEarly n c.tag 4 f.cause
  | _ => s.cmdFault n c.tag 1 0 f false 0

/-- PCIE_COMPLETION_TIMEOUT (R503, R534): a read of host space meets a completion timeout. One of a ring structure is retried at the
next poll; any other ends its work FAULT, and either is recorded. -/
def execPcieCompletionTimeout (w : HostReader) (s : State) : Host.Outcome State Fault Refusal :=
  if !s.ready then .next s
  else match w with
    | .ring n bus => if n < 8 then .next (s.hostReadError n bus) else .next s
    | .dma n tag u =>
      match s.cmd? n tag with
      | none => .next s
      | some c => match c.phase, c.job with
        | .running, .dma j =>
          let va := c.body 0 + 65536 * u
          match s.hostBus n va with
          | some bus =>
            if j.flying.contains u then .next (((s.hostReadError n bus).dropXfer n tag u).dmaFault n tag u (s.hostFault n va) false) else .next s
          | none => .next s
        | _, _ => .next s
    | .press p va =>
      let e := s.pressEng p
      match s.hostBus e.ctx va with
      | some bus =>
        if 10 ≤ p ∨ !e.busy then .next s
        else
          let s1 := (s.hostReadError e.ctx bus).dropXfer e.ctx e.tag (1000 + p)
          .next ((s1.cmdFaultRec e.ctx e.tag 2 p (s.hostFault e.ctx va) false).pressUnitFault e.ctx e.tag p 2)
      | none => .next s
    | .engine n tag va =>
      match s.cmd? n tag, s.hostBus n va with
      | some c, some bus =>
        if c.phase ≠ .running ∨ [1, 2, 6, 7, 0x13, 0x14].contains c.op then .next s
        else if c.op = 5 ∧ (c.pressJob?.map (fun j => j.phase != .opening && j.phase != .reading)).getD true then .next s
        else .next ((s.hostReadError n bus).engineReadFails n c (s.hostFault n va))
      | _, _ => .next s
    | .room n tag share va =>
      match s.ingest? n tag, s.hostBus n va with
      | some _, some bus => if share < 2 then .next ((s.hostReadError n bus).ingestFault n tag share (s.hostFault n va) false) else .next s
      | _, _ => .next s
    | .core c va =>
      let k := s.core c
      match s.hostBus k.ctx va with
      | some bus =>
        if k.run = .running ∧ !k.stopping then .next ((s.hostReadError k.ctx bus).accFault c (s.hostFault k.ctx va) false false).progress
        else .next s
      | none => .next s

end Sys2Proof.Machine
end

