-- ==== Sys2Proof/Machine/Jtag.lean ====
section
/-! DEFINITION. The JTAG test access port (R596 to R598). -/

namespace Sys2Proof.Machine

open Sys2Proof

/-- Cells of the boundary register (R597). -/
def boundaryCells : Nat := 1456

/-- Selects a data register of `bits` bits with its captured value, and no pin control; a boot that a pin-controlling
instruction held then starts (R598). -/
def State.tapSelect (s : State) (ir bits dr : Nat) : State :=
  (s.setTap { s.plat.tap with ir, holds := 0, drBits := bits, dr }).startBoot

/-- Selects BYPASS behaviour for an instruction code: one bit, captured as 0. -/
def State.tapBypass (s : State) (ir : Nat) : State := s.tapSelect ir 1 0

/-- An instruction that controls the pins: in force only when loaded while PERST_N is low, else as BYPASS (R598). -/
def State.tapControl (s : State) (ir : Nat) (f : Tap → Tap) : State :=
  if s.plat.pins.perstN then s.tapBypass ir
  else s.setTap { f s.plat.tap with ir, holds := ir + 1 }

/-- The boundary register after a capture of `pins` and an update with `cells`. -/
def Tap.shift (t : Tap) (pins cells : Nat) : Tap :=
  { t with drBits := boundaryCells, dr := pins % 2 ^ boundaryCells, boundary := cells % 2 ^ boundaryCells }

/-- Runs a TAP command while PWROK is high (R596). -/
def State.withTap (s : State) (t : State) : Host.Outcome State Fault Refusal := .next (if s.plat.pins.pwrok then t else s)

/-- TAP_RESET (R596, R598): IDCODE is selected and the pins are released. -/
def execTapReset (s : State) : Host.Outcome State Fault Refusal := .next (s.setTap {}).startBoot

/-- EXTEST (R598): the outputs follow the boundary register; `pins` is captured and `cells` shifted in. -/
def execExtest (pins cells : Nat) (s : State) : Host.Outcome State Fault Refusal :=
  s.withTap (s.tapControl 0x00 (fun t => t.shift pins cells))

/-- The IDCODE value (R596). -/
def idcode : Nat := 0x2 * 2 ^ 28 + 0x5331 * 2 ^ 12 + Config.jedecId % 2 ^ 11 * 2 + 1

/-- IDCODE (R596). -/
def execIdcode (s : State) : Host.Outcome State Fault Refusal := s.withTap (s.tapSelect 0x01 32 idcode)

/-- SAMPLE/PRELOAD (R596): the pins are captured and the boundary register loaded, without control of the pins. -/
def execSamplePreload (pins cells : Nat) (s : State) : Host.Outcome State Fault Refusal :=
  s.withTap (s.setTap ((s.tapSelect 0x02 boundaryCells 0).plat.tap.shift pins cells)).startBoot

/-- CLAMP (R598): the outputs hold the boundary register's values, with bypass selected. -/
def execClamp (s : State) : Host.Outcome State Fault Refusal :=
  s.withTap (s.tapControl 0x04 (fun t => { t with drBits := 1, dr := 0 }))

/-- HIGHZ (R598): every output is at high impedance, with bypass selected. -/
def execHighz (s : State) : Host.Outcome State Fault Refusal :=
  s.withTap (s.tapControl 0x05 (fun t => { t with drBits := 1, dr := 0 }))

/-- EXTEST_PULSE (R597, R598). -/
def execExtestPulse (pins cells : Nat) (s : State) : Host.Outcome State Fault Refusal :=
  s.withTap (s.tapControl 0x06 (fun t => t.shift pins cells))

/-- EXTEST_TRAIN (R597, R598). -/
def execExtestTrain (pins cells : Nat) (s : State) : Host.Outcome State Fault Refusal :=
  s.withTap (s.tapControl 0x07 (fun t => t.shift pins cells))

/-- BYPASS (R596), and every other instruction code. -/
def execBypass (s : State) : Host.Outcome State Fault Refusal := s.withTap (s.tapBypass 0xFF)

end Sys2Proof.Machine
end

