-- ==== Sys2Proof/Machine/Links.lean ====
section
/-! DEFINITION. The commands of the fabric's setup and links (R379 to R407, R428, R429, R433, R434, R437). -/

namespace Sys2Proof.Machine

open Sys2Proof

/-! ## Setup -/

/-- FABRIC_ENABLE (R385): ENABLE of FABRIC_CTRL changes from 0 to 1. -/
def execFabricEnable (s : State) : Host.Outcome State Fault Refusal :=
  if s.ready ∧ !s.flag 0x600 15 then .next s.fabricOn else .next s

/-- FABRIC_DISABLE (R385): ENABLE of FABRIC_CTRL changes from 1 to 0. -/
def execFabricDisable (s : State) : Host.Outcome State Fault Refusal :=
  if s.ready ∧ s.flag 0x600 15 then .next s.fabricOff else .next s

/-- Whether a collective, gate or multicast command is outstanding (R388, R429). -/
def State.groupWork (s : State) : Bool := s.anyCmd (fun c => [6, 9, 0xC, 0xD].contains c.op)

/-- SEAL_APPLY (R384, R429): the computation of the seal starts. -/
def execSealApply (s : State) : Host.Outcome State Fault Refusal :=
  if !s.ready then .next s
  else if s.groupWork then .fault .hostError
  else .next (s.setFlag 0x600 17 true)

/-- SEAL_COMPLETE (R428, R429): the computation completes and the seal is in force. -/
def execSealComplete (s : State) : Host.Outcome State Fault Refusal :=
  if s.flag 0x600 17 then .next s.applySeal else .next s

/-- A write of ROUTE_DATA (R387): the entry at INDEX; AUTOINC moves INDEX on. -/
def State.routeWrite (s : State) (v : W32) : State :=
  let i := s.fld 0x610 0 14
  let s1 := s.setFab { s.fab with route := Store.set 0 s.fab.route i (v &&& 0x1FFF) }
  if s.flag 0x610 31 then s1.setFld 0x610 0 14 (i + 1) else s1

/-- ROUTE_DATA_WRITE (R387). -/
def execRouteDataWrite (v : W32) (s : State) : Host.Outcome State Fault Refusal :=
  if s.ready then .next (s.routeWrite v) else .next s

/-- A write of FAIL_CLEAR (R437): one failed mark, or with ALL every mark, is cleared. -/
def State.failClear (s : State) (v : W32) : State :=
  s.setFab { s.fab with failed := if bitOf v.toNat 31 then [] else Store.set false s.fab.failed (bitsOf v.toNat 0 14) false }

/-- FAIL_CLEAR (R437). -/
def execFailClear (v : W32) (s : State) : Host.Outcome State Fault Refusal :=
  if s.ready then .next (s.failClear v) else .next s

/-- A write of PORT_CTRL p (R386): FEC, AN and LEAF only while ENABLE is 0; ENABLE brings the port up or down. -/
def State.portWrite (s : State) (p : Nat) (v : W32) : State :=
  if s.portCount ≤ p then s
  else
    let w := v.toNat
    let s1 := if s.flag (portCtrl p) 0 then s else s.setFld (portCtrl p) 1 3 (bitsOf w 1 3)
    let s2 := if bitOf w 10 then s1.setFlag (portCtrl p) 10 false else s1
    let was := s.flag (portCtrl p) 0
    let s3 := s2.setFlag (portCtrl p) 0 (bitOf w 0)
    if bitOf w 0 then s3.portTrain p else if was then s3.portDown p else s3

/-- PORT_CTRL_WRITE (R386). -/
def execPortCtrlWrite (p : Nat) (v : W32) (s : State) : Host.Outcome State Fault Refusal :=
  if s.ready then .next (s.portWrite p v) else .next s

/-- PORT_TRAINING_COMPLETE (R381, R397): auto-negotiation and link training of a port are done; the HELLO exchange starts. -/
def execPortTrainingComplete (p : Nat) (s : State) : Host.Outcome State Fault Refusal :=
  let x := s.port p
  if x.phase = .training ∧ !s.fab.fenced then .next ((s.setPort p { x with phase := .hello }).sendHello p) else .next s

/-! ## Link frames -/

/-- HELLO_TIMER (R397): a port that trains sends a HELLO every 1 µs. -/
def execHelloTimer (p : Nat) (s : State) : Host.Outcome State Fault Refusal :=
  let x := s.port p
  if x.phase = .hello ∧ x.sentAt + 1000 ≤ s.now ∧ !s.fab.fenced then .next (s.sendHello p) else .next s

/-- HELLO (R397, R400): a HELLO arrives on port `p`. The link is up once each end has received one with ACK set; on a link that is up a
HELLO is one more valid frame. -/
def execHello (p node port : Nat) (leaf lane fec ack : Bool) (grant : List Nat) (s : State) : Host.Outcome State Fault Refusal :=
  let x := s.port p
  if x.phase = .up ∧ !s.fab.fenced then .next (s.setPort p { x with heardAt := s.now })
  else if x.phase ≠ .hello ∨ s.fab.fenced then .next s
  else if lane ≠ s.flag 0x600 14 ∨ fec ≠ s.flag (portCtrl p) 1 ∨ node % 2 ^ 14 = s.node ∨ s.nodeFailed (node % 2 ^ 14) then
    .next (s.setFab { s.fab with badHello := s.fab.badHello + 1 })
  else
    let s1 := ((s.setPort p { x with heard := true, peerPort := port % 256, peerMac := macOf node port, grant := grant.take 4 }).setFld (portCtrl p) 12 14 node).setFlag
      (portCtrl p) 26 leaf
    if ack then .next ((s1.sendHello p).portUpNow p) else .next s1

/-- DATA_FRAME_RECEIVE (R382, R383, R398 to R407): a DATA frame with Ethernet header `eth` arrives on port `p`. One of another EtherType or
VER, or for another address, is discarded and counted. In sequence a frame is accepted, and discarded, delivered or passed on; a gap or an FCS
error asks for replay. -/
def execDataFrameReceive (p lseq lack : Nat) (credit : List Nat) (f : Frame) (eth : EthHdr) (s : State) : Host.Outcome State Fault Refusal :=
  let x := s.port p
  if x.phase ≠ .up ∨ s.fab.fenced then .next s
  else if !eth.fcs then .next (s.countDiscard.sendReplayReq p)
  else if eth.etherType ≠ 0x88B5 ∨ eth.ver ≠ 1 ∨ eth.dst ≠ macOf s.node p then .next s.countDiscard
  else
    let s1 := s.noteLink p lack credit
    let y := s1.port p
    if lseq % 65536 ≠ (y.lastSeq + 1) % 65536 then
      (if covers y.lastSeq (lseq % 65536) then .next s1 else .next (s1.sendReplayReq p))
    else
      let s2 := s1.setPort p { y with lastSeq := lseq % 65536, lackDue := if y.lackDue = 0 then s.now + 1 else y.lackDue }
      let s3 := if f.opc = 0x30 then s2.setFab { s2.fab with failFrom := Store.set 0 s2.fab.failFrom f.src (p + 1) } else s2
      .next ((s3.freeBlocks p f).takeFrame f)

/-- CONTROL (R398 to R400): a CONTROL frame arrives. -/
def execControl (p lack : Nat) (credit : List Nat) (s : State) : Host.Outcome State Fault Refusal :=
  if (s.port p).phase ≠ .up ∨ s.fab.fenced then .next s else .next (s.noteLink p lack credit)

/-- REPLAY_REQ (R399): the peer asks for every frame after the one LACK names. -/
def execReplayReq (p lack : Nat) (credit : List Nat) (s : State) : Host.Outcome State Fault Refusal :=
  if (s.port p).phase ≠ .up ∨ s.fab.fenced then .next s else .next ((s.noteLink p lack credit).resend p)

/-- FENCED (R433, R434): the peer has fenced itself; it is marked failed. -/
def execFenced (p : Nat) (s : State) : Host.Outcome State Fault Refusal :=
  if (s.port p).phase ≠ .up ∨ s.fab.fenced then .next s
  else .next ((s.setPort p { s.port p with heardAt := s.now }).nodeFails (s.peerNode p) p)

/-- FRAME_TRANSMIT (R398, R399, R402, R403, R405): port `p` sends its oldest waiting frame of a VC and class, once credit allows; a frame
that has grown too old is discarded. -/
def execFrameTransmit (p vc cls : Nat) (s : State) : Host.Outcome State Fault Refusal :=
  let x := s.port p
  if x.phase ≠ .up ∨ s.fab.fenced then .next s
  else match x.queue.find? (fun q => q.2.vc == vc && q.2.cls == cls) with
    | none => .next s
    | some q =>
      let s1 := s.setPort p { x with queue := x.queue.erase q }
      let age := q.2.age + ceilDiv (s.now - q.1) 100 + 1
      if 1000 ≤ age then .next s1.countDiscard
      else if !s.mayTransmit p q.2 then .next s
      else
        let s2 := s1.sendData p { q.2 with age }
        .next (if q.2.src = s.node then s2.tagFrame p q.2 else s2)

/-- LACK_REPORT_TIMER (R399): a frame accepted and not yet reported is reported in a CONTROL frame. -/
def execLackReportTimer (p : Nat) (s : State) : Host.Outcome State Fault Refusal :=
  if (s.port p).phase = .up ∧ (s.port p).lackDue ≠ 0 ∧ !s.fab.fenced then .next (s.sendControl p) else .next s

/-- REPLAY_TIMEOUT (R399): 2 µs have passed without LACK progress. -/
def execReplayTimeout (p : Nat) (s : State) : Host.Outcome State Fault Refusal :=
  let x := s.port p
  if x.phase = .up ∧ !x.uncovered.isEmpty ∧ x.progressAt + 2000 ≤ s.now ∧ !s.fab.fenced then .next (s.resend p) else .next s

/-- LINK_IDLE_TIMER (R400): a port that has sent nothing for 1 µs sends a CONTROL frame. -/
def execLinkIdleTimer (p : Nat) (s : State) : Host.Outcome State Fault Refusal :=
  let x := s.port p
  if x.phase = .up ∧ x.sentAt + 1000 ≤ s.now ∧ !s.fab.fenced then .next (s.sendControl p) else .next s

/-- RX_SILENCE_TIMEOUT (R400): a port that has received no valid frame for 10 µs goes down. -/
def execRxSilenceTimeout (p : Nat) (s : State) : Host.Outcome State Fault Refusal :=
  let x := s.port p
  if x.phase = .up ∧ x.heardAt + 10000 ≤ s.now then .next (s.portDown p) else .next s

/-- FENCED_TIMER (R433): a fenced device sends FENCED on each port every 1 µs. -/
def execFencedTimer (p : Nat) (s : State) : Host.Outcome State Fault Refusal :=
  let x := s.port p
  if s.fab.fenced ∧ x.phase = .up ∧ x.sentAt + 1000 ≤ s.now then .next (s.putLink p (.fenced x.lastSeq (x.freed.map (· % 65536)))) else .next s

/-- FAIL (R434): a FAIL frame names its SRC as failed. -/
def execFail (s : State) : Host.Outcome State Fault Refusal :=
  match s.takeOpc 0x30 with
  | none => .next s
  | some (f, t) =>
    let p := Store.get 0 t.fab.failFrom f.src
    .next ((t.setFab { t.fab with failFrom := Store.set 0 t.fab.failFrom f.src 0 }).nodeFails f.src (if p = 0 then 0xFF else p - 1))

/-- E2E_TIMEOUT (R401, R406, R410, R411): no reply to a request has come within 20 µs. -/
def execE2eTimeout (xid : Nat) (s : State) : Host.Outcome State Fault Refusal :=
  match s.txn? xid with
  | none => .next s
  | some t => match t.owner with
    | .rs .. => .next s
    | _ => if t.sentAt + 20000 ≤ s.now then .next (s.txnLost xid true) else .next s

end Sys2Proof.Machine
end

