-- ==== Sys2Proof/Machine/PowerOps.lean ====
section
/-! DEFINITION. Island clocks, the power and thermal ladders and throttle events (R24, R554 to R562). -/

namespace Sys2Proof.Machine

open Sys2Proof

/-- How far a ladder of `steps` steps has passed a stage that begins at step `start`. -/
def stage (steps start len : Nat) : Nat := min (steps - start) len

/-- k the power ladder gives Blocks, Press engines, Cutting Room shares and meshes (R556). -/
def powerK (l : Nat) : Nat × Nat × Nat × Nat :=
  (8 - stage l 0 6 - stage l 18 1, 8 - stage l 6 4, 8 - stage l 10 4, 8 - stage l 14 4)

/-- k a half's thermal ladder gives (R560). -/
def thermK (t : Nat) : Nat × Nat × Nat × Nat :=
  (8 - stage t 0 7, 8 - stage t 7 4, 8 - stage t 11 4, 8 - stage t 15 4)

/-- Last step of either ladder. -/
def ladderEnd : Nat := 19

/-- CLK_STATUS from the ceilings, the controllers and the clamp (R555). -/
def State.applyClocks (s : State) : State :=
  let p := s.plat.power
  let pk := powerK p.ladder
  let w := thermK p.thermW
  let e := thermK p.thermE
  let lim := fun (i : Nat) => s.fld 0x2010 (4 * i) 4
  let c := if p.clamp then 4 else 8
  let k := [min (min (lim 0) pk.1) (min w.1 c), min (min (lim 0) pk.1) (min e.1 c),
    min (min (lim 1) pk.2.1) w.2.1, min (min (lim 1) pk.2.1) e.2.1,
    min (min (lim 2) pk.2.2.1) w.2.2.1, min (min (lim 2) pk.2.2.1) e.2.2.1,
    min (min (lim 3) pk.2.2.2) w.2.2.2, min (min (lim 3) pk.2.2.2) e.2.2.2]
  s.setReg 0x200C (leDigits k)
where
  /-- digits of 4 bits, lowest first -/
  leDigits : List Nat → Nat
    | [] => 0
    | d :: ds => d % 16 + 16 * leDigits ds

/-- LIMIT_W: the lower of CAP_W and POWER_CAP (R554). -/
def State.limitW (s : State) : Nat := min (s.fld 0x2000 0 11) s.plat.mgmt.powerCap
/-- Writes LIMIT_W. -/
def State.applyLimit (s : State) : State := s.setFld 0x2004 16 11 s.limitW

/-- The throttle causes in force (R554). -/
def State.throttleNow (s : State) : Nat :=
  let p := s.plat.power
  b2n (p.thrJ != 0) + 2 * b2n (p.thrH != 0) + 4 * b2n (p.ladder != 0) + 8 * b2n p.clamp + 16 * b2n (s.reg 0x2010 % 65536 != 0x8888)

/-- Sets an event bit of PWR_EVENT and raises its vector when IRQ is set. -/
def State.powerEvent (s : State) (bit : Nat) : State :=
  (s.setFlag 0x2020 bit true).msixIf (s.flag 0x2020 2) (s.fld 0x2020 3 11)

/-- Clocks, status bits and the event of a throttle cause that begins. -/
def State.applyPower (s : State) : State :=
  let now := s.throttleNow
  let old := s.plat.power.causes
  let s1 := s.applyClocks
  let s2 := ((s1.setFlag 0x2008 28 (bitOf now 0)).setFlag 0x2008 29 (bitOf now 1)).setFlag 0x2008 30 (bitOf now 2)
  let s3 := (s2.setFlag 0x2004 28 (bitOf now 3)).setPower { s2.plat.power with causes := now }
  if (List.range 5).any (fun i => bitOf now i && !bitOf old i) then s3.powerEvent 1 else s3

/-- Sets CAP_UNMET; CAP_EVT when it changes to 1. A change is reported by a THROTTLE event: what was last sent no longer counts
(R558). -/
def State.setUnmet (s : State) (b : Bool) : State :=
  let m := s.plat.mgmt
  let s0 := if b = s.flag 0x2004 27 then s else s.setMgmt { m with stateSent := Store.set 0 m.stateSent 33 0x100 }
  let s1 := s0.setFlag 0x2004 27 b
  if b && !s.flag 0x2004 27 then s1.powerEvent 0 else s1

/-- An integer in `n` bits, two's complement. -/
def intBits (n : Nat) (x : Int) : Nat := (x % (2 ^ n : Nat)).toNat

end Sys2Proof.Machine
end

