-- ==== Sys2Proof/Machine/MgmtOps.lean ====
section
/-! DEFINITION. What the management commands share: bindings, answers, SPDM signatures and measurement blocks, sensors
(R538 to R554). -/

namespace Sys2Proof.Machine

open Sys2Proof

/-- Sends an answer or message. -/
def State.sayMgmt (s : State) (m : MgmtOut) : State := s.setMgmt { s.plat.mgmt with out := s.plat.mgmt.out ++ [m] }

/-- Whether a binding answers: I3C in I3C mode and SMBus outside it, from step 1; PCIe from step 5 (R542, R543). -/
def State.bindingUp (s : State) (b : Nat) : Bool :=
  let boot := s.plat.boot
  boot.running && match b with
    | 0 => s.plat.mgmt.i3c | 1 => !s.plat.mgmt.i3c | 2 => boot.sram && boot.link | _ => false

/-- Runs a management command on a binding that answers. -/
def State.onBinding (s : State) (b : Nat) (t : State) : Host.Outcome State Fault Refusal := .next (if s.bindingUp b then t else s)

/-! ## SPDM -/

/-- Answers an SPDM request. -/
def State.spdm (s : State) (b : Nat) (r : SpdmResp) : State := s.sayMgmt (.spdm b r)

/-- Runs an SPDM request: Busy unless READY (R547). -/
def State.onSpdm (s : State) (b : Nat) (f : State) : Host.Outcome State Fault Refusal :=
  s.onBinding b (if s.ready then f else s.spdm b (.error .busy))

/-- The SPDM connection state of a binding. -/
def State.conn (s : State) (b : Nat) : Nat := Store.get 0 s.plat.mgmt.conn b
/-- Replaces it. -/
def State.setConn (s : State) (b v : Nat) : State :=
  s.setMgmt { s.plat.mgmt with conn := Store.set 0 s.plat.mgmt.conn b v }

/-- Runs a request that needs the negotiated connection. -/
def State.negotiated (s : State) (b : Nat) (f : State) : State :=
  if s.conn b = 3 then f else s.spdm b (.error .unexpectedRequest)

/-- The attestation engine signs a message with GROUP_KEY and a fresh random k (R539, R550). -/
def State.sign (s : State) (msg : List Byte) : (Nat × Nat) × State :=
  let (k, s1) := s.fresh
  (sm2Sign s.plat.fuses.groupKey k msg, s1)

/-- Measurement block `i` (R549). -/
def State.measurement (s : State) (i : Nat) : List Byte :=
  let m := s.plat.mgmt.measured
  match i with
  | 1 => natBE 32 Config.romDigest
  | 2 => natBE 32 m.firmware
  | 3 => [BitVec.ofNat 8 m.stepping] ++ natLE 2 m.cores ++ [BitVec.ofNat 8 m.minVersion, BitVec.ofNat 8 m.revoked] ++ [0, 0, 0]
  | 4 => (List.range 8).flatMap (fun j => natLE 4 (m.cfgSeal.getD j 0).toNat)
  | _ => [BitVec.ofNat 8 m.svn]

/-- A session by its ID. -/
def State.session? (s : State) (id : Nat) : Option Session := s.plat.mgmt.sessions.find? (fun x => x.id == id)
/-- Replaces a session. -/
def State.setSession (s : State) (x : Session) : State :=
  s.setMgmt { s.plat.mgmt with sessions := s.plat.mgmt.sessions.map (fun y => if y.id == x.id then x else y) }

/-! ## PLDM -/

/-- Answers a PLDM request. -/
def State.pldm (s : State) (b : Nat) (r : PldmResp) : State := s.sayMgmt (.pldm b r)

/-- The fixed thresholds of a numeric sensor: warning, critical, fatal (R553), in the sensor's units. -/
def sensorLimits (id : Nat) : List Int :=
  if id = 1 ∨ id = 2 then [380, 400, 440] else if 3 ≤ id ∧ id ≤ 10 then [85, 95, 105] else []

/-- The lowest Block k in force. -/
def State.lowestBlockK (s : State) : Nat := min (s.fld 0x200C 0 4) (s.fld 0x200C 4 4)

/-- The reading of a numeric sensor (R553): those the part derives from its own state, else the last sample. -/
def State.sensor (s : State) (id : Nat) : Int :=
  if 3 ≤ id ∧ id ≤ 10 then Store.get 0 s.plat.power.stackTemp (id - 3)
  else if id = 12 then Int.ofNat s.limitW
  else if id = 15 then Int.ofNat (s.reg64 0x2018 / 1000 % 2 ^ 32)
  else if id = 16 then Int.ofNat s.lowestBlockK
  else Store.get 0 s.plat.mgmt.sensors id

/-- The state of a state sensor (R554). -/
def State.stateSensor (s : State) (id : Nat) : Nat :=
  match id with | 32 => s.boot | 33 => s.plat.power.causes | _ => s.fld 0x800 0 8

/-- A PlatformEventMessage, when an event receiver is set. -/
def State.platformEvent (s : State) (id : Nat) (v : Int) : State :=
  if s.plat.mgmt.receiver = 0 then s else s.sayMgmt (.event id v)

/-- Whether a reading crosses a threshold of its sensor, in either direction (R553). -/
def crosses (id : Nat) (old new : Int) : Bool := (sensorLimits id).any (fun t => decide (old < t) != decide (new < t))

/-- Sends the event of a state sensor whose state differs from the last one sent, unless one was sent within 10 ms (R554). -/
def State.stateEvent (s : State) (id : Nat) : State :=
  let m := s.plat.mgmt
  let v := s.stateSensor id
  let last := Store.get 0 m.stateAt id
  if v = Store.get 0 m.stateSent id ∨ (last ≠ 0 ∧ s.now < last - 1 + 10000000) then s
  else
    let t := s.setMgmt { m with stateSent := Store.set 0 m.stateSent id v, stateAt := Store.set 0 m.stateAt id (s.now + 1) }
    t.platformEvent id (Int.ofNat v)

end Sys2Proof.Machine
end

