-- ==== Sys2Proof/Machine/Mgmt.lean ====
section
/-! DEFINITION. The commands of the management endpoint: MCTP, I3C, SPDM, key revocation and PLDM (R540 to R554). -/

namespace Sys2Proof.Machine

open Sys2Proof

/-! ## MCTP and I3C -/

/-- SET_ENDPOINT_ID (R542). -/
def execSetEndpointId (b eid : Nat) (s : State) : Host.Outcome State Fault Refusal :=
  s.onBinding b ((s.setMgmt { s.plat.mgmt with eid := Store.set 0 s.plat.mgmt.eid b (eid % 256) }).sayMgmt (.eid b (eid % 256)))

/-- ENTDAA (R543): the controller assigns a dynamic address. -/
def execEntdaa (addr : Nat) (s : State) : Host.Outcome State Fault Refusal :=
  if !s.plat.boot.running then .next s else .next (s.setMgmt { s.plat.mgmt with i3c := true, dynAddr := addr % 128 })

/-- SETDASA (R543): names the static address 0x4C plus MGMT_ADDR. -/
def execSetdasa (static addr : Nat) (s : State) : Host.Outcome State Fault Refusal :=
  if !s.plat.boot.running ∨ static ≠ 0x4C + s.plat.pins.mgmtAddr then .next s
  else .next (s.setMgmt { s.plat.mgmt with i3c := true, dynAddr := addr % 128 })

/-- Runs an I3C common command in I3C mode. -/
def State.onI3c (s : State) (t : State) : Host.Outcome State Fault Refusal := .next (if s.plat.mgmt.i3c then t else s)

/-- RSTDAA (R543). -/
def execRstdaa (s : State) : Host.Outcome State Fault Refusal := s.onI3c (s.setMgmt { s.plat.mgmt with i3c := false, dynAddr := 0 })

/-- ENEC (R543): enables events. -/
def execEnec (events : Nat) (s : State) : Host.Outcome State Fault Refusal :=
  s.onI3c (s.setMgmt { s.plat.mgmt with events := s.plat.mgmt.events ||| events % 256 })

/-- DISEC (R543): disables events. -/
def execDisec (events : Nat) (s : State) : Host.Outcome State Fault Refusal :=
  s.onI3c (s.setMgmt { s.plat.mgmt with events := s.plat.mgmt.events &&& (255 - events % 256) })

/-- The 48-bit provisional ID (R543). -/
def State.provisionalId (s : State) : Nat :=
  Config.mipiId % 2 ^ 15 * 2 ^ 33 + 0x5331 * 2 ^ 16 + s.plat.pins.mgmtAddr % 16 * 2 ^ 12

/-- GETPID (R543). -/
def execGetpid (s : State) : Host.Outcome State Fault Refusal := s.onI3c (s.sayMgmt (.ccc "GETPID" s.provisionalId))
/-- GETBCR (R543). -/
def execGetbcr (s : State) : Host.Outcome State Fault Refusal := s.onI3c (s.sayMgmt (.ccc "GETBCR" (Config.i3cReg 0 % 256)))
/-- GETDCR (R543). -/
def execGetdcr (s : State) : Host.Outcome State Fault Refusal := s.onI3c (s.sayMgmt (.ccc "GETDCR" (Config.i3cReg 1 % 256)))
/-- GETSTATUS (R543): its value is not stated. -/
def execGetstatus (s : State) : Host.Outcome State Fault Refusal :=
  s.onI3c (s.fresh.2.sayMgmt (.ccc "GETSTATUS" (s.fresh.1 % 2 ^ 16)))
/-- GETMRL (R543). -/
def execGetmrl (s : State) : Host.Outcome State Fault Refusal :=
  s.onI3c (s.sayMgmt (.ccc "GETMRL" (if s.plat.mgmt.mrl = 0 then Config.i3cReg 2 % 65536 else s.plat.mgmt.mrl - 1)))
/-- SETMRL (R543). -/
def execSetmrl (v : Nat) (s : State) : Host.Outcome State Fault Refusal := s.onI3c (s.setMgmt { s.plat.mgmt with mrl := v % 65536 + 1 })
/-- GETMWL (R543). -/
def execGetmwl (s : State) : Host.Outcome State Fault Refusal :=
  s.onI3c (s.sayMgmt (.ccc "GETMWL" (if s.plat.mgmt.mwl = 0 then Config.i3cReg 3 % 65536 else s.plat.mgmt.mwl - 1)))
/-- SETMWL (R543). -/
def execSetmwl (v : Nat) (s : State) : Host.Outcome State Fault Refusal := s.onI3c (s.setMgmt { s.plat.mgmt with mwl := v % 65536 + 1 })

/-! ## SPDM (R545 to R551) -/

/-- GET_VERSION: the connection of the binding begins anew. -/
def execGetVersion (b : Nat) (s : State) : Host.Outcome State Fault Refusal :=
  s.onSpdm b ((s.setConn b 1).spdm b (.version [0x12, 0x13]))

/-- GET_CAPABILITIES (R546). -/
def execGetCapabilities (b : Nat) (s : State) : Host.Outcome State Fault Refusal :=
  s.onSpdm b (if s.conn b = 0 then s.spdm b (.error .unexpectedRequest)
    else (s.setConn b 2).spdm b (.capabilities [.cert, .chal, .measSigned, .measFresh, .keyEx, .encrypt, .mac, .keyUpd, .pubKeyId, .setCert]))

/-- NEGOTIATE_ALGORITHMS (R545): `offered` says, for the seven fields of the table in order, whether the request offers the
part's algorithm. -/
def execNegotiateAlgorithms (b : Nat) (offered : List Bool) (s : State) : Host.Outcome State Fault Refusal :=
  s.onSpdm b (if s.conn b < 2 then s.spdm b (.error .unexpectedRequest)
    else if offered = List.replicate 7 true then (s.setConn b 3).spdm b .algorithms
    else (s.setConn b 2).spdm b (.error .invalidRequest))

/-- GET_DIGESTS (R546): slot 0 only. -/
def execGetDigests (b : Nat) (s : State) : Host.Outcome State Fault Refusal :=
  s.onSpdm b (s.negotiated b (s.spdm b (.digests (if s.plat.mgmt.chain = [] then none else some (sm3 s.plat.mgmt.chain)))))

/-- GET_CERTIFICATE (R546, R551): part of the chain of slot 0; a later offset fails once the chain's length has changed. -/
def execGetCertificate (b slot offset length : Nat) (s : State) : Host.Outcome State Fault Refusal :=
  let m := s.plat.mgmt
  let n := m.chain.length
  s.onSpdm b (s.negotiated b (
    if slot ≠ 0 ∨ n = 0 ∨ n ≤ offset ∨ (offset ≠ 0 ∧ Store.get 0 m.certLen b ≠ n + 1) then s.spdm b (.error .invalidRequest)
    else
      let part := (m.chain.drop offset).take length
      (s.setMgmt { m with certLen := Store.set 0 m.certLen b (n + 1) }).spdm b (.certificate part (n - offset - part.length))))

/-- SET_CERTIFICATE (R548): a chain of at most 8 KiB whose leaf's subject public key, `leafKey` as x then y, is Q. -/
def execSetCertificate (b slot : Nat) (chain : List Byte) (leafKey : Nat) (s : State) : Host.Outcome State Fault Refusal :=
  s.onSpdm b (s.negotiated b (
    if slot ≠ 0 ∨ 8192 < chain.length ∨ leafKey ≠ s.plat.mgmt.pubKey then s.spdm b (.error .invalidRequest)
    else (s.setMgmt { s.plat.mgmt with chain }).spdm b .setCertificate))

/-- CHALLENGE (R546): slot 0, or slot 0xF; `msg` is the transcript the engine signs. -/
def execChallenge (b slot : Nat) (msg : List Byte) (s : State) : Host.Outcome State Fault Refusal :=
  s.onSpdm b (s.negotiated b (
    if (slot ≠ 0 ∨ s.plat.mgmt.chain = []) ∧ slot ≠ 0xF then s.spdm b (.error .invalidRequest)
    else
      let q := s.sign msg
      q.2.spdm b (.challengeAuth slot q.1.1 q.1.2)))

/-- GET_MEASUREMENTS (R549): index 1 to 5, or all (0xFF); signed over the transcript `msg` when requested. -/
def execGetMeasurements (b index : Nat) (signed : Bool) (msg : List Byte) (s : State) : Host.Outcome State Fault Refusal :=
  s.onSpdm b (s.negotiated b (
    if (index < 1 ∨ 5 < index) ∧ index ≠ 0xFF then s.spdm b (.error .invalidRequest)
    else
      let ids := if index = 0xFF then [1, 2, 3, 4, 5] else [index]
      let blocks := ids.map (fun i => (i, s.measurement i))
      if signed then
        let q := s.sign msg
        q.2.spdm b (.measurements blocks (some q.1))
      else s.spdm b (.measurements blocks none)))

/-- KEY_EXCHANGE (R546): a session of the at most 4. -/
def execKeyExchange (b : Nat) (msg : List Byte) (s : State) : Host.Outcome State Fault Refusal :=
  let m := s.plat.mgmt
  s.onSpdm b (s.negotiated b (
    if 4 ≤ m.sessions.length then s.spdm b (.error .sessionLimit)
    else
      let q := s.sign msg
      (q.2.setMgmt { q.2.plat.mgmt with
        sessions := m.sessions ++ [{ id := m.nextSession, binding := b }], nextSession := m.nextSession + 1 }).spdm b
        (.keyExchange m.nextSession q.1.1 q.1.2)))

/-- FINISH (R546): `verified` says whether the requester's verify data is right. -/
def execFinish (b id : Nat) (verified : Bool) (s : State) : Host.Outcome State Fault Refusal :=
  s.onSpdm b (match s.session? id with
    | some x =>
      if x.established ∨ x.binding ≠ b then s.spdm b (.error .unexpectedRequest)
      else if !verified then s.spdm b (.error .verification)
      else (s.setSession { x with established := true }).spdm b (.finish id)
    | none => s.spdm b (.error .invalidRequest))

/-- KEY_UPDATE (R546). -/
def execKeyUpdate (b id : Nat) (s : State) : Host.Outcome State Fault Refusal :=
  s.onSpdm b (match s.session? id with
    | some x => if x.established ∧ x.binding = b then (s.setSession { x with updates := x.updates + 1 }).spdm b (.keyUpdate id)
      else s.spdm b (.error .unexpectedRequest)
    | none => s.spdm b (.error .invalidRequest))

/-- END_SESSION (R546). -/
def execEndSession (b id : Nat) (s : State) : Host.Outcome State Fault Refusal :=
  s.onSpdm b (match s.session? id with
    | some x =>
      if x.established ∧ x.binding = b then
        (s.setMgmt { s.plat.mgmt with sessions := s.plat.mgmt.sessions.filter (fun y => y.id != id) }).spdm b (.endSession id)
      else s.spdm b (.error .unexpectedRequest)
    | none => s.spdm b (.error .invalidRequest))

/-! ## Revocation (R540, R541) -/

/-- The status of a revocation order: 0 OK, 2 BAD_SIGNER, 3 BAD_SIGNATURE. -/
def Fuses.orderStatus (f : Fuses) (o : List Byte) : Nat :=
  let slot := (o.getD 4 0).toNat
  let signer := (o.getD 5 0).toNat
  let pub := (o.drop 0x10).take 64
  if leNat (o.take 4) ≠ 0x4B565252 ∨ 3 < slot ∨ 3 < signer ∨ signer = slot then 2
  else if Store.get 0 f.keyDigest signer = 0 ∨ Store.get false f.keyRevoked signer ∨ sm3 pub ≠ Store.get 0 f.keyDigest signer then 2
  else if !sm2Verify (beNat (pub.take 32)) (beNat (pub.drop 32)) (o.take 0x50) (beNat ((o.drop 0x50).take 32))
      (beNat ((o.drop 0x70).take 32)) then 3
  else 0

/-- REVOCATION_ORDER (R540, R541, R550): a 144-byte order. -/
def execRevocationOrder (b : Nat) (o : List Byte) (s : State) : Host.Outcome State Fault Refusal :=
  let f := s.plat.fuses
  let st := f.orderStatus o
  s.onBinding b (
    if s.boot = 1 ∨ s.boot = 3 ∨ s.boot = 4 then s.sayMgmt (.revoke b 1)
    else if st ≠ 0 then s.sayMgmt (.revoke b st)
    else ((s.setFuses { f with keyRevoked := Store.set false f.keyRevoked (o.getD 4 0).toNat true }).measureHardware).sayMgmt (.revoke b 0))

/-! ## PLDM (R552 to R554) -/

/-- GetTID. -/
def execGetTid (b : Nat) (s : State) : Host.Outcome State Fault Refusal := s.onBinding b (s.pldm b (.tid s.plat.mgmt.tid))
/-- SetTID. -/
def execSetTid (b v : Nat) (s : State) : Host.Outcome State Fault Refusal :=
  s.onBinding b ((s.setMgmt { s.plat.mgmt with tid := v % 256 }).pldm b .done)
/-- GetPLDMVersion: which version is not stated. -/
def execGetPldmVersion (b type : Nat) (s : State) : Host.Outcome State Fault Refusal :=
  s.onBinding b (if type = 0 ∨ type = 2 then s.fresh.2.pldm b (.version type s.fresh.1) else s.pldm b .invalidData)
/-- GetPLDMTypes: base discovery (0) and platform monitoring and control (2). -/
def execGetPldmTypes (b : Nat) (s : State) : Host.Outcome State Fault Refusal := s.onBinding b (s.pldm b (.types [0, 2]))
/-- GetPLDMCommands. -/
def execGetPldmCommands (b type : Nat) (s : State) : Host.Outcome State Fault Refusal :=
  s.onBinding b (s.pldm b (if type = 0 then .commands [0x01, 0x02, 0x03, 0x04, 0x05]
    else if type = 2 then .commands [0x04, 0x0A, 0x11, 0x21, 0x31, 0x32, 0x39, 0x3A, 0x50, 0x51] else .invalidData))
/-- The sensors and effecters of the repository, in order (R553, R554). -/
def pdrIds : List Nat := (List.range 16).map (· + 1) ++ [32, 33, 34, 64, 65]
/-- What a record says of a sensor or effecter besides its number: thresholds, states or range. -/
def pdrLimits (id : Nat) : List Int :=
  if id = 32 then [1, 7] else if id = 33 then [0, 4] else if id = 34 then [0, 11]
  else if id = 64 then [400, 1600] else if id = 65 then [1, 2] else sensorLimits id
/-- GetPDRRepositoryInfo. -/
def execGetPdrRepositoryInfo (b : Nat) (s : State) : Host.Outcome State Fault Refusal := s.onBinding b (s.pldm b (.repository pdrIds.length))
/-- GetPDR of record `handle`, counted from 1. -/
def execGetPdr (b handle : Nat) (s : State) : Host.Outcome State Fault Refusal :=
  s.onBinding b (match pdrIds[handle - 1]? with
    | some id => if handle = 0 then s.pldm b .invalidId else s.pldm b (.pdr id (pdrLimits id))
    | none => s.pldm b .invalidId)
/-- GetSensorReading. -/
def execGetSensorReading (b id : Nat) (s : State) : Host.Outcome State Fault Refusal :=
  s.onBinding b (if 1 ≤ id ∧ id ≤ 16 then s.pldm b (.reading id (s.sensor id)) else s.pldm b .invalidId)
/-- GetStateSensorReadings. -/
def execGetStateSensorReadings (b id : Nat) (s : State) : Host.Outcome State Fault Refusal :=
  s.onBinding b (if 32 ≤ id ∧ id ≤ 34 then s.pldm b (.state id (s.stateSensor id)) else s.pldm b .invalidId)
/-- GetNumericEffecterValue of POWER_CAP. -/
def execGetNumericEffecterValue (b id : Nat) (s : State) : Host.Outcome State Fault Refusal :=
  s.onBinding b (if id = 64 then s.pldm b (.effecter 64 s.plat.mgmt.powerCap) else s.pldm b .invalidId)
/-- SetNumericEffecterValue: POWER_CAP outside 400 to 1,600 W is refused (R554). -/
def execSetNumericEffecterValue (b id v : Nat) (s : State) : Host.Outcome State Fault Refusal :=
  s.onBinding b (if id ≠ 64 then s.pldm b .invalidId
    else if v < 400 ∨ 1600 < v then s.pldm b .invalidData
    else ((s.setMgmt { s.plat.mgmt with powerCap := v }).applyLimit).pldm b .done)
/-- GetStateEffecterStates of DEVICE_RESET: 2 while a reset is on its way. -/
def execGetStateEffecterStates (b id : Nat) (s : State) : Host.Outcome State Fault Refusal :=
  s.onBinding b (if id = 65 then s.pldm b (.state 65 (if s.plat.boot.resetAt = 0 then 1 else 2)) else s.pldm b .invalidId)
/-- SetStateEffecterStates: DEVICE_RESET 2 acts as BOOT_CTRL.RESET; a reset already on its way starts no second (R554). -/
def execSetStateEffecterStates (b id v : Nat) (s : State) : Host.Outcome State Fault Refusal :=
  s.onBinding b (if id ≠ 65 then s.pldm b .invalidId
    else if v = 1 then s.pldm b .done
    else if v ≠ 2 then s.pldm b .invalidData
    else (if s.plat.boot.resetAt = 0 then s.setBoot { s.plat.boot with resetAt := s.now + 1000001 } else s).pldm b .done)
/-- SetEventReceiver. -/
def execSetEventReceiver (b eid : Nat) (s : State) : Host.Outcome State Fault Refusal :=
  s.onBinding b ((s.setMgmt { s.plat.mgmt with receiver := eid + 1, receiverBinding := b }).pldm b .done)

/-- The hottest stack, for T_HBM. -/
def State.hottestStack (s : State) : Int :=
  (List.range 8).foldl (fun m i => max m (Store.get 0 s.plat.power.stackTemp i)) (Store.get 0 s.plat.power.stackTemp 0)

/-- The register fields that follow a sampled reading (R553). -/
def State.sampleRegs (s : State) (id : Nat) (v : Int) : State :=
  match id with
  | 1 => s.setFld 0x2008 0 10 (intBits 10 v)
  | 2 => s.setFld 0x2008 10 10 (intBits 10 v)
  | 11 => s.setFld 0x2004 0 11 v.toNat
  | _ => if 3 ≤ id ∧ id ≤ 10 then s.setFld 0x2008 20 8 (intBits 8 s.hottestStack) else s

/-- SENSOR_SAMPLE (R553, R554): a sensor is sampled; a numeric reading that crosses a threshold sends one event, a state sensor
sends one on a change. Stack readings are those of R54, and the part's own values need no sample. -/
def execSensorSample (id : Nat) (v : Int) (s : State) : Host.Outcome State Fault Refusal :=
  if 32 ≤ id ∧ id ≤ 34 then .next (s.stateEvent id)
  else if id = 0 ∨ 16 < id then .next s
  else
    let old := Store.get 0 s.plat.mgmt.sensors id
    let new := if 3 ≤ id ∧ id ≤ 10 ∨ id = 12 ∨ id = 15 ∨ id = 16 then s.sensor id else v
    let s1 := (s.setMgmt { s.plat.mgmt with sensors := Store.set 0 s.plat.mgmt.sensors id new }).sampleRegs id new
    .next (if crosses id old new then s1.platformEvent id new else s1)

/-- STATE_EVENT_TIMER (R554): the 10 ms of a state sensor have passed; a change held meanwhile is sent. -/
def execStateEventTimer (id : Nat) (s : State) : Host.Outcome State Fault Refusal :=
  if 32 ≤ id ∧ id ≤ 34 then .next (s.stateEvent id) else .next s

end Sys2Proof.Machine
end

