-- ==== Sys2Proof/Machine/Power.lean ====
section
/-! DEFINITION. The commands of the power and thermal controllers (R554 to R562). -/

namespace Sys2Proof.Machine

open Sys2Proof

/-- POWER_CONTROL_TICK (R556 to R558): `p100` W over the last 100 µs, `p1ms` W over the last 1 ms, `mj` mJ drawn since the last
tick. Before READY and in DEVICE_FAILED only the readings move (R562). -/
def execPowerControlTick (p100 p1ms mj : Nat) (s : State) : Host.Outcome State Fault Refusal :=
  let s1 := (s.setFld 0x2004 0 11 p1ms).setReg64 0x2018 ((s.reg64 0x2018 + mj) % 2 ^ 64)
  if !s.ready then .next s1
  else
    let lim := s.limitW
    let p := s.plat.power
    let low := if 100 * p100 < 95 * lim then min 10 (p.low + 1) else 0
    let ladder := if lim < p100 then min ladderEnd (p.ladder + 1) else if low = 10 then p.ladder - 1 else p.ladder
    let above := if lim < p100 ∧ p.ladder = ladderEnd then min 10 (p.above + 1) else 0
    let under := if p100 ≤ lim then min 10 (p.under + 1) else 0
    let s2 := s1.applyLimit.setPower { p with ladder, low, above, under }
    let s3 := if above = 10 then s2.setUnmet true else if under = 10 then s2.setUnmet false else s2
    .next s3.applyPower

/-- THERMAL_CONTROL_TICK (R560): the hottest junction of a half, in quarters of a degree, and its hottest stack. -/
def execThermalControlTick (half : Nat) (tj stack : Int) (s : State) : Host.Outcome State Fault Refusal :=
  if 2 ≤ half ∨ !s.ready then .next s
  else
    let p := s.plat.power
    let steps := if half = 0 then p.thermW else p.thermE
    let cool := if half = 0 then p.coolW else p.coolE
    let hotJ := decide (400 ≤ tj)
    let hotH := decide (95 ≤ stack)
    let down := hotJ || hotH
    let cool1 := if tj < 388 ∧ stack < 92 then cool + 1 else 0
    let up := !down && cool1 == 10
    let steps1 := if down then min ladderEnd (steps + 1) else if up then steps - 1 else steps
    let cool2 := if up then 0 else cool1
    let bit := fun (m : Nat) (b : Bool) => putBits m half 1 (b2n b)
    let p1 := { p with
      thrJ := bit p.thrJ (steps1 != 0 && (bitOf p.thrJ half || hotJ))
      thrH := bit p.thrH (steps1 != 0 && (bitOf p.thrH half || hotH)) }
    let p2 := if half = 0 then { p1 with thermW := steps1, coolW := cool2 } else { p1 with thermE := steps1, coolE := cool2 }
    .next ((s.setFld 0x2008 (10 * half) 10 (intBits 10 tj)).setPower p2).applyPower

/-- FAST_CLAMP (R559): from step 2 of the boot onward, in every state. -/
def execFastClamp (s : State) : Host.Outcome State Fault Refusal :=
  if !s.plat.boot.running then .next s else .next (s.setPower { s.plat.power with clamp := true }).applyPower

/-- FAST_CLAMP_RELEASE (R559). -/
def execFastClampRelease (s : State) : Host.Outcome State Fault Refusal :=
  .next (s.setPower { s.plat.power with clamp := false }).applyPower

/-- THERMAL_TRIP (R561, R592): fatal source THERMAL, and THERMTRIP_N; it acts in every state from step 1. -/
def execThermalTrip (s : State) : Host.Outcome State Fault Refusal :=
  if !s.plat.boot.running ∧ s.boot = 1 then .next s
  else .next ((s.setPins { s.plat.pins with thermtrip := true }).fatal 9 0x0A 0 0)

/-- A ceiling field after a write: a reserved value keeps the previous one (R555). -/
def ceilingField (old new : Nat) : Nat := if 1 ≤ new ∧ new ≤ 8 then new else old

/-- CLK_LIMIT_WRITE (R555). -/
def execClkLimitWrite (v : W32) (s : State) : Host.Outcome State Fault Refusal :=
  if !s.ready then .next s
  else
    .next ((List.range 4).foldl (fun (t : State) i =>
      t.setFld 0x2010 (4 * i) 4 (ceilingField (t.fld 0x2010 (4 * i) 4) (bitsOf v.toNat (4 * i) 4))) s).applyPower

end Sys2Proof.Machine
end

