-- ==== Sys2Proof/Machine/Regs.lean ====
section
/-! DEFINITION. Host accesses: BAR0 writes, BAR2, the MSI-X table and configuration requests (R471 to R476, R508, R509, R527). -/

namespace Sys2Proof.Machine

open Sys2Proof

/-! ## The register map (R473) -/

/-- What a register word takes from a write: its RW bits, its W1C bits, and the bits the hardware sets; the rest is reserved. -/
structure RegRow where
  rw : Nat
  w1c : Nat := 0
  ro : Nat := 0
  deriving DecidableEq, Repr

/-- The words of a context block (R477). -/
def ctxRow : Nat → Option RegRow
  | 0x00 => some ⟨0xFFFFF000, 0, 0⟩ | 0x04 => some ⟨0x003FFFFF, 0, 0⟩
  | 0x08 => some ⟨0x001F1F1F, 0, 0⟩
  | 0x10 => some ⟨0xFFFFF000, 0, 0⟩ | 0x14 => some ⟨0x003FFFFF, 0, 0⟩
  | 0x18 => some ⟨0xFFFFFF00, 0, 0⟩ | 0x1C => some ⟨0x003FFFFF, 0, 0⟩
  | _ => none

/-- Register words at fixed offsets whose write only stores fields. -/
def fixedRow : Nat → Option RegRow
  | 0x84 => some ⟨0, 0x20000, 0xFF01FF0F⟩
  | 0x90 => some ⟨0x1FFF0000, 0, 0⟩ | 0x94 => some ⟨0, 0, 0⟩ | 0x98 => some ⟨0x1FFFFFFF, 0, 0⟩
  | 0x3C0 => some ⟨0xFFFF, 0, 0⟩ | 0x3C4 => some ⟨0xFFFFFF, 0, 0⟩
  | 0x408 => some ⟨0xFFFFFF, 0x7000000, 0⟩
  | 0x610 => some ⟨0x80003FFF, 0, 0⟩
  | 0x618 => some ⟨0xFFFFFFFF, 0, 0⟩ | 0x61C => some ⟨0x00FFFFFF, 0, 0⟩
  | 0x804 => some ⟨0, 0x100000, 0x6FFFFF⟩
  | 0x830 => some ⟨0xFFFFFFFF, 0, 0⟩ | 0x834 => some ⟨0xFFFF, 0, 0⟩
  | 0x860 => some ⟨0xFFFFF001, 0, 0⟩ | 0x864 => some ⟨0x003FFFFF, 0, 0⟩
  | 0x868 => some ⟨0xFFFF, 0, 0⟩ | 0x86C => some ⟨0xFFFFFFFF, 0, 0⟩
  | 0x1000 => some ⟨0x3F, 0, 0⟩
  | 0x1400 => some ⟨0xFFFFE001, 0, 0⟩ | 0x1404 => some ⟨0x003FFFFF, 0, 0⟩
  | 0x1408 => some ⟨0xFFFFFF, 0, 0⟩ | 0x1410 => some ⟨0x1FFF, 0, 0⟩
  | 0x1418 => some ⟨0xFFFFFFFF, 0, 0⟩ | 0x141C => some ⟨0x7FFFFFFF, 0, 0⟩
  | 0x1420 => some ⟨0xFFFFFFFF, 0, 0⟩
  | 0x1440 => some ⟨0xFFFFF001, 0, 0⟩ | 0x1444 => some ⟨0x003FFFFF, 0, 0⟩
  | 0x1448 => some ⟨0xF, 0, 0⟩ | 0x144C => some ⟨0xFFFFFFFF, 0, 0⟩
  | 0x1480 => some ⟨0x3FFF, 0, 0⟩
  | 0x2000 => some ⟨0x7FF, 0, 0⟩ | 0x2020 => some ⟨0x3FFC, 3, 0⟩
  | _ => none

/-- The row of a register word whose write only stores fields; none for words that are unlisted, read-only or have an operation of
their own. -/
def regRow (off : Nat) : Option RegRow :=
  if 0x100 ≤ off ∧ off < 0x300 then ctxRow (off % 0x40)
  else if 0x500 ≤ off ∧ off < 0x520 then some ⟨0x3FFF, 0, 0xFFFF0000⟩
  else if 0x540 ≤ off ∧ off < 0x560 then some ⟨0x13F3F, 0, 0⟩
  else if 0x6C0 ≤ off ∧ off < 0x700 then some ⟨0xFFFFFFFF, 0, 0⟩
  else if 0x700 ≤ off ∧ off < 0x740 then some (if off % 8 = 0 then ⟨0xFFFFF001, 0, 0⟩ else ⟨0x003FFFFF, 0, 0⟩)
  else if 0x880 ≤ off ∧ off < 0x8A0 then some ⟨0xFFFF, 0, 0⟩
  else fixedRow off

/-- Whether a 64-bit register that takes writes begins at an offset. -/
def isWide (off : Nat) : Bool :=
  off % 8 == 0 && (off == 0x90 || (decide (0x100 ≤ off ∧ off < 0x300) && [0, 0x10, 0x18].contains (off % 0x40)) ||
    decide (0x480 ≤ off ∧ off < 0x4C0) || decide (0x700 ≤ off ∧ off < 0x740) || decide (0x1200 ≤ off ∧ off < 0x1280) ||
    [0x618, 0x818, 0x830, 0x860, 0x1400, 0x1418, 0x1440].contains off)

/-- Whether BAR0 takes a write of a word: only some registers before READY and on a failed device (R509, R511, R527). -/
def State.takesWrite (s : State) (off : Nat) : Bool :=
  let b := s.boot
  if s.fld 0x88 0 8 < 4 then false
  else if off = 0x80 then true
  else if b = 5 then off != 0x90 && off != 0x94 && off != 0x98
  else if b = 7 then off == 0x804 || off == 0x818 || off == 0x81C || decide (0x860 ≤ off ∧ off < 0x878)
  else (off == 0x90 || off == 0x94 || off == 0x98) && (b == 2 || b == 6)

/-! ## Conditions and reserved values -/

/-- A value of a word that its field description reserves, among words whose write only stores fields. -/
def reservedValue (off v : Nat) : Bool :=
  let f := fun (lo n : Nat) => bitsOf v lo n
  if 0x500 ≤ off ∧ off < 0x520 then decide (10000 < f 0 14)
  else match off with
  | 0x834 => f 0 16 == 0
  | 0x868 => decide (f 0 4 < 4 ∨ 12 < f 0 4)
  | 0x1000 => f 0 6 == 63
  | 0x1408 => f 0 4 == 0 || decide (12 < f 0 4 ∨ f 4 20 < 10 ∨ 1000000 < f 4 20)
  | 0x1448 => decide (f 0 4 < 4)
  | 0x1480 => [f 0 5, f 5 5].any (fun l => l != 0 && decide (l < 4 ∨ 24 < l))
  | 0x2000 => decide (f 0 11 < 400 ∨ 1600 < f 0 11)
  | _ => false

/-- Whether a write of a word breaks the condition its rule sets (R177, R252, R388, R457, R477, R534, R569, R573). -/
def State.writeBarred (s : State) (off v : Nat) : Bool :=
  let n := off % 0x100 / 8
  if 0x100 ≤ off ∧ off < 0x300 then s.ctxState ((off - 0x100) / 0x40) != 0
  else if 0x500 ≤ off ∧ off < 0x520 then s.fld off 16 16 != 0
  else if 0x540 ≤ off ∧ off < 0x560 then !(s.ctx ((off - 0x540) / 4)).cmds.isEmpty
  else if off = 0x618 ∨ off = 0x61C then s.groupWork
  else if 0x700 ≤ off ∧ off < 0x740 then (s.ownedObjs n).any (fun i => (s.obj i).hsig)
  else if off = 0x860 then s.flag 0x860 0 && bitOf v 0 && v != s.reg 0x860
  else if off = 0x864 ∨ off = 0x868 then s.flag 0x860 0 && v != s.reg off
  else if off = 0x1400 then s.flag 0x1400 0 && bitOf v 0 && v != s.reg 0x1400
  else if off = 0x1404 ∨ off = 0x1408 ∨ off = 0x1418 ∨ off = 0x141C then s.flag 0x1400 0 && v != s.reg off
  else if off = 0x1440 then s.flag 0x1440 0 && bitOf v 0 && v != s.reg 0x1440
  else if off = 0x1444 ∨ off = 0x1448 then s.flag 0x1440 0 && v != s.reg off
  else false

/-! ## Effects -/

/-- What a stored field brings about: the cap in force, and the times of the Tape (R554, R570). -/
def State.afterWrite (s t : State) (off : Nat) : State :=
  if off = 0x2000 then t.applyLimit
  else if off = 0x1400 ∧ t.flag 0x1400 0 ∧ !s.flag 0x1400 0 then
    let iv := t.fld 0x1408 4 20 * 1000
    t.setPmu { t.plat.pmu with snap := 1, snapDue := (t.now / iv + 1) * iv + 1 }
  else if off = 0x1400 ∧ !t.flag 0x1400 0 then t.setPmu { t.plat.pmu with snapDue := 0 }
  else t

/-- Stores the fields of one word. -/
def State.storeWord (s : State) (off v : Nat) (r : RegRow) : State :=
  let old := s.reg off
  s.afterWrite (s.setReg off ((v &&& r.rw) ||| (old &&& r.ro) ||| (old &&& r.w1c &&& (0xFFFFFFFF ^^^ v)))) off

/-- Runs a step on the state another one gives. -/
def andNext (o : Host.Outcome State Fault Refusal) (f : State → Host.Outcome State Fault Refusal) : Host.Outcome State Fault Refusal :=
  match o with
  | .next t => f t
  | .fault e => .fault e
  | .refused r => .refused r

/-- Runs a step when a condition holds. -/
def nextIf (b : Bool) (s : State) (f : State → Host.Outcome State Fault Refusal) : Host.Outcome State Fault Refusal :=
  if b then f s else .next s

/-- A write of CTX_CTRL n (R477, R479, R501, R502). -/
def State.writeCtxCtrl (s : State) (n v : Nat) : Host.Outcome State Fault Refusal :=
  if bitsOf v 6 2 ≠ 0 ∨ bitsOf v 30 2 ≠ 0 then .fault .reservedBits
  else
    let s1 := ((s.setFlag (ctxCtrl n) 3 (bitOf v 3)).setFld (ctxCtrl n) 8 11 (bitsOf v 8 11)).setFld (ctxCtrl n) 19 11 (bitsOf v 19 11)
    andNext (if bitOf v 1 then execCtxPreempt n s1 else execCtxResume n s1) fun t =>
      andNext (if bitOf v 0 then execCtxEnable n t else execCtxDisable n t) fun u => nextIf (bitOf v 2) u (execCtxReset n)

/-- A write of DBG_CTRL (R131, R132): requests are ignored while BUSY. -/
def State.writeDbgCtrl (s : State) (v : Nat) : Host.Outcome State Fault Refusal :=
  let core := bitsOf v 0 10
  let block := bitsOf v 12 6
  if bitsOf v 22 10 ≠ 0 ∨ 576 ≤ core ∨ 36 ≤ block then .fault .reservedBits
  else
    let s1 := (s.setFld 0x390 0 10 core).setFld 0x390 12 6 block
    let s2 := (if bitOf v 21 then s1.setFlag 0x390 21 false else s1).showHalted
    andNext (nextIf (bitOf v 10) s2 (execDbgHalt core)) fun t =>
      andNext (nextIf (bitOf v 11) t (execDbgResume core)) fun u => nextIf (bitOf v 18) u (execBlockReset block)

/-- A write of FABRIC_CTRL (R384, R385): NODE and LANE_MODE only while ENABLE is 0. -/
def State.writeFabricCtrl (s : State) (v : Nat) : Host.Outcome State Fault Refusal :=
  if bitsOf v 19 13 ≠ 0 then .fault .reservedBits
  else
    let s1 := if s.flag 0x600 15 then s else s.setFld 0x600 0 15 (bitsOf v 0 15)
    let s2 := if bitOf v 18 then s1.setFlag 0x600 18 false else s1
    andNext (if bitOf v 15 then execFabricEnable s2 else execFabricDisable s2) fun t => nextIf (bitOf v 16) t execSealApply

/-- A write of BOOT_CTRL (R512). -/
def State.writeBootCtrl (s : State) (v : Nat) : Host.Outcome State Fault Refusal :=
  if bitsOf v 3 5 ≠ 0 ∨ v / 2 ^ 16 ≠ 0 then .fault .reservedBits
  else
    andNext (nextIf (bitOf v 0) s execGo) fun t =>
      andNext (nextIf (bitOf v 2) t execAdvance) fun u => nextIf (bitOf v 1) u (execBootReset (bitsOf v 8 8))

/-- A write of PMU_EVTSEL c of the selected unit (R564, R565). -/
def State.writeEvtSel (s : State) (c v : Nat) : Host.Outcome State Fault Refusal :=
  let u := s.fld 0x1000 0 6
  let l := bitsOf v 13 6
  if v / 2 ^ 31 ≠ 0 ∨ l < 8 ∨ 47 < l then .fault .reservedBits
  else
    let x := s.ctr u c
    let ovf := x.ovf && !bitOf v 12
    .next (s.setCtr u c { x with sel := BitVec.ofNat 32 (putBits v 12 1 (b2n ovf)) })

/-- A write of one 32-bit register word. -/
def State.writeWord (s : State) (off v : Nat) : Host.Outcome State Fault Refusal :=
  if 0x100 ≤ off ∧ off < 0x300 ∧ off % 0x40 = 0xC then s.writeCtxCtrl ((off - 0x100) / 0x40) v
  else if 0x1100 ≤ off ∧ off < 0x1140 then s.writeEvtSel ((off - 0x1100) / 4) v
  else if 0x640 ≤ off ∧ off < 0x6A0 then
    if bitsOf v 4 4 ≠ 0 ∨ bitOf v 11 ∨ bitsOf v 27 5 ≠ 0 then .fault .reservedBits
    else execPortCtrlWrite ((off - 0x640) / 4) (BitVec.ofNat 32 v) s
  else match off with
    | 0x80 => s.writeBootCtrl v
    | 0x390 => s.writeDbgCtrl v
    | 0x400 => if bitsOf v 5 3 ≠ 0 ∨ bitsOf v 13 3 ≠ 0 ∨ bitsOf v 21 3 ≠ 0 then .fault .reservedBits
               else execSquareSplitApply (BitVec.ofNat 32 v) s
    | 0x600 => s.writeFabricCtrl v
    | 0x614 => if v / 2 ^ 13 ≠ 0 then .fault .reservedBits else execRouteDataWrite (BitVec.ofNat 32 v) s
    | 0x620 => if bitsOf v 14 17 ≠ 0 then .fault .reservedBits else execFailClear (BitVec.ofNat 32 v) s
    | 0x840 => if bitsOf v 26 5 ≠ 0 then .fault .reservedBits else execErrSelClear (BitVec.ofNat 32 v) s
    | 0x1008 => if v / 2 ^ 3 ≠ 0 then .fault .reservedBits else execPmuClear (BitVec.ofNat 32 v) s
    | 0x2010 => if v / 2 ^ 16 ≠ 0 then .fault .reservedBits else execClkLimitWrite (BitVec.ofNat 32 v) s
    | _ => match regRow off with
      | none => .next s
      | some r =>
        if v &&& (0xFFFFFFFF ^^^ (r.rw ||| r.w1c ||| r.ro)) ≠ 0 ∨ reservedValue off v then .fault .reservedBits
        else if s.writeBarred off v then .fault .hostError
        else .next (s.storeWord off v r)

/-- A 64-bit register takes a whole value (R472). -/
def State.writeWide (s : State) (off v : Nat) : Host.Outcome State Fault Refusal :=
  if 0x480 ≤ off ∧ off < 0x4C0 then execCtxPtRootWrite ((off - 0x480) / 8) (BitVec.ofNat 64 v) s
  else if 0x1200 ≤ off ∧ off < 0x1280 then
    if v / 2 ^ 48 ≠ 0 then .fault .reservedBits else execPmuCountWrite ((off - 0x1200) / 8) (BitVec.ofNat 64 v) s
  else if off = 0x818 then
    if bitsOf v 1 7 ≠ 0 ∨ v / 2 ^ 54 ≠ 0 then .fault .reservedBits else execPmDump (BitVec.ofNat 64 v) s
  else andNext (s.writeWord (off + 4) (v / 2 ^ 32)) fun t => t.writeWord off (v % 2 ^ 32)

/-- Replaces the staged half of a 64-bit register: its value plus one, 0 for none. -/
def State.stage (s : State) (off v : Nat) : State := { s with staged := Store.set 0 s.staged off v }

/-- A 32-bit write of BAR0 (R472). -/
def State.write32 (s : State) (off v : Nat) : Host.Outcome State Fault Refusal :=
  if !s.takesWrite off then .next s
  else if isWide off then .next (s.stage off (v + 1))
  else if 4 ≤ off ∧ isWide (off - 4) then
    let lo := off - 4
    let k := Store.get 0 s.staged lo
    -- the lower half of a register outside `regs` stands where its unit keeps it
    let low := if 0x1200 ≤ lo ∧ lo < 0x1280 then (s.ctr (s.fld 0x1000 0 6) ((lo - 0x1200) / 8)).value % 2 ^ 32 else s.reg lo
    (s.stage lo 0).writeWide lo ((if k = 0 then low else k - 1) + 2 ^ 32 * v)
  else s.writeWord off v

/-- A 64-bit write of BAR0 (R472). -/
def State.write64 (s : State) (off v : Nat) : Host.Outcome State Fault Refusal :=
  if isWide off then (if s.takesWrite off then (s.stage off 0).writeWide off v else .next s)
  else andNext (s.write32 off (v % 2 ^ 32)) fun t => t.write32 (off + 4) (v / 2 ^ 32)

/-! ## Reads of BAR0 (R472, R473, R509) -/

/-- The low or, at an odd word, the high 32 bits of a value. -/
def halfOf (off v : Nat) : Nat := if off % 8 = 0 then v % 2 ^ 32 else v / 2 ^ 32 % 2 ^ 32

/-- A word of BAR0 once READY. Words of units that hold their own state read as they stand there (R69, R386, R387, R464, R564); a
write-only field and an unlisted offset hold nothing and read as zero. -/
def State.readWord (s : State) (off : Nat) : Nat :=
  if 0x640 ≤ off ∧ off < 0x6A0 then (if (off - 0x640) / 4 < s.portCount then s.reg off else 0)
  else if 0x1100 ≤ off ∧ off < 0x1140 then (s.ctr (s.fld 0x1000 0 6) ((off - 0x1100) / 4)).sel.toNat
  else if 0x1200 ≤ off ∧ off < 0x1280 then halfOf off (s.ctr (s.fld 0x1000 0 6) ((off - 0x1200) / 8)).value
  else match off with
    | 0x614 => (Store.get 0 s.fab.route (s.fld 0x610 0 14)).toNat
    | 0x740 => s.now % 2 ^ 32
    | 0x744 => s.plat.tsHigh
    | 0x848 => s.errView.1
    | 0x84C => s.errView.2.1
    | 0x850 => s.errView.2.2.1
    | 0x854 => s.errView.2.2.2.1
    | 0x858 | 0x85C => halfOf off s.errView.2.2.2.2
    | 0x1008 => s.reg 0x1008 % 2 + 4 * b2n s.ovfAny
    | _ => s.reg off

/-- A 32-bit read of BAR0: before READY the identification registers, valid from step 5, and the boot registers read as they stand, every
other one as its reset value (R509). -/
def State.bar0Read (s : State) (off : Nat) : Nat :=
  if s.boot = 5 ∨ s.boot = 7 ∨ off < 0x100 then s.readWord off else State.reset.reg off

/-! ## MSI-X (R476) -/

/-- Sends the message a vector holds pending, when neither mask holds it back. -/
def State.release (s : State) (v : Nat) : State :=
  if s.msixEnable ∧ Store.get false s.msixPending v ∧ !s.msixMasked v then s.sendMsix v else s

/-- Sends every pending message that is no longer masked, in vector order. -/
def State.releaseAll (s : State) : State := (s.msixPending.map (·.1)).foldl (fun (t : State) v => t.release v) s

/-- A write of one word of the MSI-X table; bit 0 of Vector Control is held inverted (assumption 18). -/
def State.tableWrite (s : State) (off v : Nat) : State :=
  let w := off / 4
  let d := if w % 4 = 3 then 1 - v % 2 else if w % 4 = 0 then v - v % 4 else v
  ({ s with msixTable := Store.set 0 s.msixTable w (BitVec.ofNat 32 d) }).release (w / 4)

/-- A write of BAR4; the pending-bit array is read-only. -/
def State.bar4Write (s : State) (off size v : Nat) : State :=
  if 0x8000 ≤ off then s
  else if size = 4 then s.tableWrite off (v % 2 ^ 32)
  else (s.tableWrite off (v % 2 ^ 32)).tableWrite (off + 4) (v / 2 ^ 32)

/-- Whether BAR4 answers: the link is up (step 5 of R508). -/
def State.answers (s : State) : Bool := decide (4 ≤ s.fld 0x88 0 8)

/-! ## The commands -/

/-- REGISTER_WRITE (R472, R473, R476, R509, R527): a write of `size` bytes to BAR0 or BAR4. Other sizes and alignments are
unpredictable. -/
def execRegisterWrite (bar off size : Nat) (v : W64) (s : State) : Host.Outcome State Fault Refusal :=
  if 0x10000 ≤ off ∨ !s.answers then .next s
  else if (size ≠ 4 ∧ size ≠ 8) ∨ off % size ≠ 0 then .fault .hostError
  else if bar = 0 then (if size = 4 then s.write32 off (v.toNat % 2 ^ 32) else s.write64 off v.toNat)
  else if bar = 4 then .next (s.bar4Write off size v.toNat)
  else .next s

/-- MSIX_VECTOR_UNMASK (R476): the Mask bit of a vector is cleared; a message held pending is sent. -/
def execMsixVectorUnmask (v : Nat) (s : State) : Host.Outcome State Fault Refusal :=
  if 2048 ≤ v ∨ !s.answers then .next s else .next (s.tableWrite (16 * v + 12) 0)

/-- PCIE_CONFIG_REQUEST (R476, R508): answered with retry status before step 5, else applied; `msix` is a write of MSI-X Enable and
Function Mask. -/
def execPcieConfigRequest (msix : Option (Bool × Bool)) (s : State) : Host.Outcome State Fault Refusal :=
  let say := fun (t : State) (a : HostAnswer) => t.setPlat { t.plat with answers := t.plat.answers ++ [a] }
  if !s.answers then .next (say s .cfgRetry)
  else match msix with
    | none => .next (say s .cfgDone)
    | some m => .next (say ({ s with msixEnable := m.1, msixMask := m.2 }).releaseAll .cfgDone)

/-- Byte `x` of BAR2 as a read returns it: its value, and whether it is beyond W_ACTIVE's staging or poisoned (R475). -/
def State.bar2Byte (s : State) (x : Nat) : Byte × Bool :=
  let a := 0x18000000000 + x
  if s.isStaging a then (Memory.byte s.dev a, s.isPoisoned a) else (0xFF, true)

/-- Writes bytes of BAR2; a byte beyond staging is discarded (R35, R475). -/
def State.bar2Write (s : State) (x : Nat) (bs : List Byte) : State :=
  let room := s.stagingUnits 0 * 0x4000000 - x
  (s.countPartial (0x18000000000 + x) (min bs.length room)).devWrite (0x18000000000 + x) (bs.take room)

/-- BAR2_ACCESS (R475, R516, R527): a write of `data` at an offset, or a read of `len` bytes. From GO until READY or FAILED writes are
discarded and reads return all-ones data; on a failed device with EP set. -/
def execBar2Access (x len : Nat) (data : Option (List Byte)) (s : State) : Host.Outcome State Fault Refusal :=
  let n := match data with | some bs => bs.length | none => len
  let say := fun (bs : List Byte) (ep : Bool) => s.setPlat { s.plat with answers := s.plat.answers ++ [.bar2 bs ep] }
  let shut := s.plat.boot.goHeld || s.boot == 3 || s.boot == 4
  if !s.answers ∨ 0x20000000 < x + n then .next s
  else match data with
    | some bs => if shut ∨ s.boot = 7 then .next s else .next (s.bar2Write x bs)
    | none =>
      if s.boot = 7 then .next (say (List.replicate len 0xFF) true)
      else if shut then .next (say (List.replicate len 0xFF) false)
      else
        let l := (List.range len).map (fun i => s.bar2Byte (x + i))
        .next ((say (l.map (·.1)) (l.any (·.2))).countFound (0x18000000000 + x) (min len (s.stagingUnits 0 * 0x4000000 - x)))

end Sys2Proof.Machine
end

