-- ==== Sys2Proof/Machine/Stream.lean ====
section
/-! DEFINITION. The stream instructions (R89, R133, R134, R138, R209, R210). -/

namespace Sys2Proof.Machine

open Sys2Proof

/-- The stream of a descriptor given as its 32 bytes (R133). -/
def streamOf (x : Nat) : Stream :=
  { declared := true, base := BitVec.ofNat 64 (bitsOf x 0 64), stride := BitVec.ofNat 64 (bitsOf x 64 64),
    runItems := bitsOf x 128 32, runs := bitsOf x 160 32, depth := bitsOf x 192 8, stpDepth := bitsOf x 200 8,
    item256 := bitOf x 208 }

/-- A descriptor with a reserved value (R133). -/
def streamReserved (x : Nat) : Bool :=
  bitsOf x 128 32 == 0 || bitsOf x 160 32 == 0 || decide (64 < bitsOf x 192 8) || decide (128 < bitsOf x 200 8) ||
    bitsOf x 209 47 != 0

/-- SDECL (R133, R134, R209). It waits for the queued tile loads of its stream (assumption 13) and for a drain to the
descriptor's words (R87). -/
def execSdecl (c : Nat) (b : Body) (s : State) : Host.Outcome State Fault Refusal :=
  issueO c b 0x60 0xFFFFFFFF00000 s (fun w =>
    let k := s.core c
    let n := stN w
    let off := stOff w
    if off % 32 ≠ 0 then .next (s.misaligned c off w)
    else if k.queue.any (fun e => e.op == 0x42 && tmStream e.word.toNat == n) || k.holdsLocal off 32 then .next s
    else
      let d := s.csRead c off 32
      let x := streamOf d
      if x.base.toNat % x.itemSize ≠ 0 then .next (s.misaligned c x.base.toNat w)
      else if x.stride.toNat % x.itemSize ≠ 0 then .next (s.misaligned c x.stride.toNat w)
      else match s.csPoison c off 32 (fun _ => true) with
        | some o => .next (s.localPoisonAt c off 32 o)
        | none =>
          if streamReserved d then .fault .reservedBits
          else .next (s.retire c (fun k => (k.sfence (2 ^ n)).setStream n x)))

/-- SFENCE (R89, R209). -/
def execSfence (c : Nat) (b : Body) (s : State) : Host.Outcome State Fault Refusal :=
  issue c b 0x61 0xFFFFFFFF00000 s (fun w =>
    s.retire c (fun k => k.sfence (if stAll w then 0xFF else 2 ^ stN w)))

/-- What a stream's vector load finds for its line: the line held, or one filled by the load from local or host space; none for a line
of remote space that no line holds or that has a parity error (R96, R117 to R119). -/
def State.streamLine (s : State) (c n pa : Nat) (stp : Bool) : Option Line × State :=
  let hit := match (s.core c).heldLine? (some n) pa with
    | some l => let r := s.lineHit c l; (if r.1 then some l else none, r.2)
    | none => (none, s)
  let k := hit.2.core c
  match hit.1 with
  | some l => (some l, hit.2.setCore c (k.useLine l l))
  | none =>
    if s.isRemote pa then (none, hit.2)
    else
      let r := hit.2.fillLine c 8 pa stp
      let k1 := r.2.core c
      let fills := k1.fills.filter (fun f => !(f.ctx == k.ctx && f.pa == pa && f.owner == n))
      (some r.1, r.2.setCore c ({ k1 with fills }.putDemand r.1))

/-- VLDS (R138, R196, R210): one item of 256 bytes, consumed whatever the predicate holds. -/
def execVlds (c : Nat) (b : Body) (s : State) : Host.Outcome State Fault Refusal :=
  issue c b 0x2C 0xFF00000000 s (fun w =>
    let k := s.core c
    let n := vmStream w
    let x := k.stream n
    let pg := k.preg (vmPg w)
    if !x.declared || !x.item256 || decide (x.total < x.issued + 1) then s.shapeFault c w
    else if k.biasHolds (fD w) then s
    else
      let va := x.item x.issued
      match s.xlateRange k.ctx va 256 false with
      | .error f => s.accFault c f false false
      | .ok ps =>
        match s.hostCheck k.ctx ps with
        | some (f, bus) => s.hostReadFault c f bus
        | none =>
          let pa := s.norm ((ps.headD (0, 0, 0)).2.1)
          if s.holdsWord c [(pa, 256)] then s
          else
            let s1 := (s.keepXlat k.ctx va).touchStream c n x.issued [va]
            let r := s1.streamLine c n pa (s1.stpAt k.ctx ps pa)
            match r.1 with
            | none =>
              (r.2.retire c (fun k => k.setStream n { k.stream n with issued := x.issued + 1 })).remoteRead c va
                (.vload (fD w) pg (n + 1) (x.issued + 1)) [(pa, 256)] [pa] [] []
            | some l =>
              let bad := (List.range 32).any (fun i => bitOf l.poison.toNat i && wordUsed (laneUsed pg) (8 * i))
              if bad then r.2.accFault c { cause := 5, va } false false
              else r.2.retire c (fun k => (k.streamUsed n (x.issued + 1)).setLanes (fD w) pg (lanesOf (l.bytes 0 256))))

end Sys2Proof.Machine
end

