-- ==== Sys2Proof/Machine/Tile.lean ====
section
/-! DEFINITION. The tile-queue instructions and the steps of the tile queue, the arrays, the drain path and the line cache
(R105 to R131, R154 to R172, R199 to R208). -/

namespace Sys2Proof.Machine

open Sys2Proof

/-! ## Issue into the tile queue -/

/-- TLD (R121, R199 to R201). -/
def execTld (c : Nat) (b : Body) (s : State) : Host.Outcome State Fault Refusal :=
  issue c b 0x40 0x3FFC0000F0 s (fun w =>
    let k := s.core c
    if tmemShapeBad false w then s.shapeFault c w
    else s.enqueue c w 0 [k.sreg (tmA w), k.sreg (tmB w)] id)

/-- TST (R123, R199 to R201). -/
def execTst (c : Nat) (b : Body) (s : State) : Host.Outcome State Fault Refusal :=
  issue c b 0x41 0x3FFC0000F0 s (fun w =>
    let k := s.core c
    if tmemShapeBad false w then s.shapeFault c w
    else s.enqueue c w 0 [k.sreg (tmA w), k.sreg (tmB w)] id)

/-- TLDS (R138, R202, R210): the stream unit checks the use when it enters the queue and takes its items. -/
def execTlds (c : Nat) (b : Body) (s : State) : Host.Outcome State Fault Refusal :=
  issue c b 0x42 0x3FFC000000 s (fun w =>
    let k := s.core c
    let n := tmStream w
    let x := k.stream n
    if tmemShapeBad true w then s.shapeFault c w
    else if 8 ≤ k.queue.length then s
    else if !x.declared || x.item256 || decide (x.total < x.issued + shRows w) then s.shapeFault c w
    else s.enqueue c w x.issued [] (fun k => k.setStream n { x with issued := x.issued + shRows w }))

/-- TREL (R112, R202). -/
def execTrel (c : Nat) (b : Body) (s : State) : Host.Outcome State Fault Refusal :=
  issue c b 0x43 0x9FFFFFFFFF0000 s (fun w => s.enqueue c w 0 [] id)

/-- MMA (R203, R204): shape and stitch code are checked in D, disabled members too (R6). -/
def execMma (c : Nat) (b : Body) (s : State) : Host.Outcome State Fault Refusal :=
  issue c b 0x50 0x1FFC000000 s (fun w =>
    if mmaShapeBad w || s.stitchBad (shStitch w) c then s.shapeFault c w
    else s.enqueue c w 0 [] id)

/-- DRAIN (R207). -/
def execDrain (c : Nat) (b : Body) (s : State) : Host.Outcome State Fault Refusal :=
  issue c b 0x58 0 s (fun w =>
    let k := s.core c
    if drainShapeBad w then s.shapeFault c w
    else s.enqueue c w 0 [k.sreg (tdA w), k.sreg (tdM w), k.sreg (tdC w)] id)

/-- DCFG (R205, R206). -/
def execDcfg (c : Nat) (b : Body) (s : State) : Host.Outcome State Fault Refusal :=
  issue c b 0x59 0xFFFFFFFFF s (fun w => if dcfgIllegal w then s.illegal c w else s.enqueue c w 0 [] id)

/-! ## Dispatch -/

/-- A list in an order free values choose, each picked from those left; `k` is the first free value used. -/
def shuffled {α : Type} : Nat → Nat → List α → List α
  | 0, _, xs => xs
  | fuel + 1, k, xs =>
    let i := Config.freeNat k % xs.length
    match xs[i]? with
    | none => xs
    | some x => x :: shuffled fuel (k + 1) (xs.eraseIdx i)

/-- Whether two of a list of groups of ranges have a byte in common. -/
def overlaps : List (List (Nat × Nat)) → Bool
  | [] => false
  | x :: rest =>
    rest.any (fun y => x.any (fun p => y.any (fun q => decide (p.1 < q.1 + q.2 ∧ q.1 < p.1 + p.2)))) || overlaps rest

/-- Stores the rows of a tile store; rows that overlap are written in a free order (R123). -/
def State.storeRows (s : State) (c : Nat) (e : QEntry) (rows : List (Nat × Nat × List (Nat × Nat × Nat))) : State :=
  let k := s.core c
  let w := e.word.toNat
  let n := rowBytes w (shA w)
  let above := overlaps (rows.map (fun x => x.2.2.map (fun p => (s.norm p.2.1, p.2.2))))
  let s1 := if above then { s with free := s.free + rows.length } else s
  let order := if above then shuffled rows.length s.free rows else rows
  order.foldl (fun (t : State) x => t.storeAll c (t.storePieces x.2.2 (natLE n (movedRow w (k.trow (tmT w)) x.1)))) s1

/-- Keeps the translations of the pages of a list of row addresses. -/
def State.keepRows (s : State) (ctx n : Nat) (vas : List Nat) : State :=
  vas.foldl (fun (t : State) va => t.keepPieces ctx (pagePieces va n)) s

/-- A tile store reaches the load/store unit (R123). -/
def State.dispatchStore (s : State) (c i : Nat) (e : QEntry) : State :=
  let k := s.core c
  let n := rowBytes e.word.toNat (shA e.word.toNat)
  match rowMisaligned e with
  | some a => s.entryFault c 0xA (a % 2 ^ 32) e
  | none =>
    match s.xlateRows k.ctx n true 0 (k.rowAddrs e) with
    | .error f => s.accFault c f true false
    | .ok rows =>
      let ps := rows.flatMap (fun x => x.2.2)
      match s.unreachable ps with
      | some node => s.coreTimeout c node 0
      | none =>
        if k.remote.any (fun r => anyShared r.parts (ps.map (fun p => (s.norm p.2.1, p.2.2)))) then s
        else
          let s1 := (s.keepRows k.ctx n (k.rowAddrs e)).storeRows c e rows
          s1.setCore c ((s1.core c).dropEntry i s.now)

/-- A tile load reaches the load/store unit: translation of every row, then its lines are asked for (R121, R210). -/
def State.dispatchLoad (s : State) (c i : Nat) (e : QEntry) : State :=
  let k := s.core c
  let w := e.word.toNat
  let n := rowBytes w (shA w)
  let stream := if e.op = 0x42 then some (tmStream w) else none
  match rowMisaligned e with
  | some a => s.entryFault c 0xA (a % 2 ^ 32) e
  | none =>
    match s.xlateRows k.ctx n false 0 (k.rowAddrs e) with
    | .error f => s.accFault c f false false
    | .ok rows =>
      let ps := rows.flatMap (fun x => x.2.2)
      match s.hostCheck k.ctx ps, s.unreachable ps with
      | some (f, bus), _ => s.hostReadFault c f bus
      | none, some node => s.coreTimeout c node 0
      | none, none =>
        if k.remote.any (fun r => anyShared r.parts (ps.map (fun p => (s.norm p.2.1, p.2.2)))) then s
        else
          let s1 := s.keepRows k.ctx n (k.rowAddrs e)
          let s2 := match stream with | some m => s1.touchStream c m e.first (k.rowAddrs e) | none => s1
          let parts := s2.rowParts rows
          let k2 := ((s2.core c).setEntry i { e with st := .started, parts }).wakeBank (tmT w)
          let r := (s2.setCore c k2).servePartsHeld c i stream (s2.stpAt k.ctx ps) (partLines parts)
          match r.1 with
          | some va => r.2.accFault c { cause := 5, va } false false
          | none => (r.2.remoteFill c ((k.rowAddrs e).headD 0) (r.2.unasked c)).finishLoads c

/-- A group instruction arrives at the rendezvous (R165, R170). -/
def State.dispatchGroup (s : State) (c i : Nat) (e : QEntry) : State :=
  let code := e.stitch
  let s1 := s.setCore c ((s.core c).setEntry i { e with st := .arrived })
  match s1.clashes code c with
  | [] =>
    if !s1.allArrived code c then s1
    else if !s1.groupAgrees code c then s1.mismatch [(code, stitchLead code c)]
    else if s1.groupChained code c then s1.startGroup code c
    else s1
  | ds => s1.mismatch ((code, stitchLead code c) :: ds)

/-- Whether an array instruction dispatched before entry `i` waits in the array: at a rendezvous or behind one (R166). -/
def Core.arrayWaits (k : Core) (i : Nat) : Bool := (k.queue.take i).any (fun e => e.st == .arrived || e.st == .behind)

/-- An array instruction reaches the array: it waits behind a group instruction that waits there (R166), starts, or arrives at its
rendezvous. -/
def State.dispatchArray (s : State) (c i : Nat) (e : QEntry) : State :=
  let k := s.core c
  if k.arrayWaits i then s.setCore c (k.setEntry i { e with st := .behind })
  else if e.stitch = 0 then s.setCore c ((k.setEntry i { e with st := .started, chained := k.chainsAt i e.word.toNat }).feed c)
  else s.dispatchGroup c i e

/-- The destinations of the drains that have started become live once their banks can be written (R112, R113). -/
def State.livenDrains (s : State) (c : Nat) : State :=
  (s.core c).queue.foldl (fun (t : State) e =>
    let dests := drainDests e.cfg e.word.toNat (e.vals.getD 1 0)
    if e.op = 0x58 ∧ e.st = .started ∧ dests.all (t.core c).bankReady then dests.foldl (fun (u : State) r => u.livenTile c r) t else t) s

/-- A drain reaches the drain path (R208). -/
def State.dispatchDrain (s : State) (c i : Nat) (e : QEntry) : State :=
  let k := s.core c
  let w := e.word.toNat
  let mask := e.vals.getD 1 0
  let base := (e.vals.getD 0 0).toNat % 0x100000
  if drainUnitBad k.dcfg w mask then s.entryFault c 1 0 e
  else if tdDest w && base % 16 != 0 then s.entryFault c 0xA base e
  else
    let k1 := k.setEntry i { e with st := .started, cfg := k.dcfg }
    (s.setCore c ((drainDests k.dcfg w mask).foldl Core.wakeBank k1)).livenDrains c

/-- Starts entry `i` of core `c`, whose hazards have cleared, on its unit. -/
def State.dispatchEntry (s : State) (c i : Nat) (e : QEntry) : State :=
  let k := s.core c
  let w := e.word.toNat
  let first := k.firstOf e.unit == some i
  match e.op with
  | 0x40 | 0x42 => s.dispatchLoad c i e
  | 0x41 => if first then s.dispatchStore c i e else s
  | 0x43 =>
    if first then
      let m := BitVec.ofNat 16 (ctMask w)
      s.setCore c ({ k with live := k.live &&& ~~~m, dirty := k.dirty ||| (k.live &&& m) }.dropEntry i s.now)
    else s
  | 0x50 => s.dispatchArray c i e
  | 0x58 => s.dispatchDrain c i e
  | _ => if first then s.setCore c ({ k with dcfg := tcCfg w }.dropEntry i s.now) else s

/-- TILE_QUEUE_DISPATCH (R105, R106, R166): an array instruction that waited behind a group instruction which has started goes on in
the array; else the first entry not yet dispatched starts when its hazards have cleared. -/
def execTileQueueDispatch (c : Nat) (s : State) : Host.Outcome State Fault Refusal :=
  let k := s.core c
  match (k.queue.findIdx? (fun e => e.st == .behind)).filter (fun i => !k.arrayWaits i) with
  | some i => .next (s.dispatchArray c i (k.queue.getD i {}))
  | none =>
    match k.queue.findIdx? (fun e => e.st == .queued) with
    | none => .next s
    | some i =>
      let e := k.queue.getD i {}
      .next (if k.hazardFree c i e then s.dispatchEntry c i e else s)

/-- GROUP_START (R165): the group instruction that every member of core `c`'s placement has dispatched starts. -/
def execGroupStart (c : Nat) (s : State) : Host.Outcome State Fault Refusal :=
  match ((s.core c).queue.find? (fun e => e.st == .arrived)).map QEntry.stitch with
  | none => .next s
  | some code => .next (if s.allArrived code c && s.groupAgrees code c then s.startGroup code c else s)

/-! ## Completion -/

/-- The array instruction core `c` would complete next: its index and entry, when it has started. -/
def Core.arrayHead (k : Core) : Option (Nat × QEntry) :=
  match k.firstOf 1 with
  | none => none
  | some i =>
    let e := k.queue.getD i {}
    if e.st = .started then some (i, e) else none

/-- The feeders of A and of B for a group: (core, its state, scale tile, rows) by group row and by group column. -/
def State.feeders (s : State) (code c : Nat) : List (Nat × Core × Nat × Nat) × List (Nat × Core × Nat × Nat) :=
  let hw := stitchShape code
  let l := stitchLead code c
  let word := fun m => match (s.core m).arrayHead with | some (_, e) => e.word.toNat | none => 0
  ((List.range hw.1).map (fun i => let m := l + 4 * i; (m, s.core m, taSa (word m), shRows (word m))),
   (List.range hw.2).map (fun j => let m := l + j; (m, s.core m, taSb (word m), 64)))

/-- One member after its array instruction completes (R143, R163, R204, R256). -/
def State.mmaMember (s : State) (code c m : Nat) : Core :=
  let k := s.core m
  match k.arrayHead with
  | none => k
  | some (i, e) =>
    let hw := stitchShape code
    let l := stitchLead code c
    let fa := l + 4 * (coreRow m - coreRow l)
    let fb := l + (coreCol m - coreCol l) % hw.2
    let word := fun m => match (s.core m).arrayHead with | some (_, e) => e.word.toNat | none => 0
    let w := e.word.toNat
    let acc := mmaBank k (s.core fa) (s.core fb) w (word fa) (word fb) (shRows (word fa))
    let k1 := { k with acc, tagCtr := Store.set 0 k.tagCtr (taBank w) (tagAfter k w) }
    (k1.dropEntry i s.now).feed m

/-- MMA_COMPLETE (R157, R163, R204, R256, R257): the oldest array instruction of core `c` completes, for a stitch group
with `c` its lead in every member; a skewed block ends the work of the core that fed it. -/
def execMmaComplete (c : Nat) (s : State) : Host.Outcome State Fault Refusal :=
  match (s.core c).arrayHead with
  | none => .next s
  | some (_, e) =>
    let code := e.stitch
    let ms := stitchMembers code c
    if stitchLead code c ≠ c ∨ !(ms.all (fun m => match (s.core m).arrayHead with | some (_, f) => f.stitch == code | none => false))
    then .next s
    else
      let w := e.word.toNat
      let fs := s.feeders code c
      match skewOf w (tagStart (s.core c) w) fs.1 fs.2 with
      | some x =>
        match (s.core x.core).arrayHead with
        | some (_, f) => .next (s.instrFault x.core 4 f.pc x.info f.word)
        | none => .next s
      | none => .next (ms.foldl (fun (t : State) m => t.setCore m (s.mmaMember code c m)) s)

/-- Writes one row of a drain to the core store in parts of 16 bytes (R207, R208). -/
def State.drainStore (s : State) (c off : Nat) (bs : List Byte) : State :=
  (List.range (ceilDiv bs.length 16)).foldl (fun (t : State) i =>
    t.localStore c ((off + 16 * i) % 0x100000) ((bs.drop (16 * i)).take 16)) s

/-- Completes a drain: its rows, then statistics and generator states (R158, R160, R207, R244, R246). -/
def State.completeDrain (s : State) (c i : Nat) (e : QEntry) : State :=
  let k := s.core c
  let w := e.word.toNat
  let mask := e.vals.getD 1 0
  let sc := if tdC w = 0 then none else some (e.vals.getD 2 0)
  let n := rowBytes w (shA w)
  let out := drainRows k e.cfg w mask sc (shRows w) 0 ⟨k.gens, k.stats⟩
  let s1 := (drainDests e.cfg w mask).foldl (fun (t : State) r => t.livenTile c r) s
  let k1 := out.1.zipIdx.foldl (fun (k : Core) x => k.writeDrained e.cfg w mask x.2 x.1) (s1.core c)
  let stats := { out.2.stats with drains := satAdd (2 ^ 64 - 1) out.2.stats.drains 1 }
  let s2 := s1.setCore c ({ k1 with gens := out.2.gens, stats }.dropEntry i s.now)
  if tdDest w then
    out.1.zipIdx.foldl (fun (t : State) x =>
      t.drainStore c ((e.vals.getD 0 0).toNat + x.2 * (if shBlocked w then n else 128)) (natLE n x.1.main)) s2
  else s2

/-- Whether the bias vector register of a drain still waits for a remote vector load (R103). -/
def Core.biasAwaited (k : Core) (cfg : DrainCfg) : Bool :=
  cfg.bias && k.remote.any (fun r => match r.kind with | .vload v _ _ _ => v == cfg.vb | _ => false)

/-- DRAIN_COMPLETE (R160): the oldest drain of core `c` completes once its banks can be written (R113). -/
def execDrainComplete (c : Nat) (s : State) : Host.Outcome State Fault Refusal :=
  let k := s.core c
  match k.firstOf 2 with
  | none => .next s
  | some i =>
    let e := k.queue.getD i {}
    let dests := drainDests e.cfg e.word.toNat (e.vals.getD 1 0)
    if e.op ≠ 0x58 ∨ e.st ≠ .started ∨ k.biasAwaited e.cfg then .next s
    else if !dests.all k.bankReady then .next (s.setCore c (dests.foldl Core.wakeBank k))
    else .next (s.completeDrain c i e)

/-! ## Line cache, banks and parity -/

/-- LINE_FILL_ARRIVAL (R118, R119): fill `i` of core `c`, of local or host space, arrives with what memory holds now, the
core's own stores included. -/
def execLineFillArrival (c : Nat) (i : Nat) (s : State) : Host.Outcome State Fault Refusal :=
  match (s.core c).fills[i]? with
  | none => .next s
  | some f =>
    if s.isRemote f.pa then .next s
    else
      let r := s.fillLine c f.owner f.pa f.stp
      .next (r.2.lineArrives c f { r.1 with ctx := f.ctx, lastItem := f.lastItem, stale := f.stale })

/-- RUNAHEAD_FETCH_ISSUE (R136, R137): stream `n` of core `c` issues its next run-ahead fetch; none while the core stops (R128). -/
def execRunaheadFetchIssue (c : Nat) (n : Nat) (s : State) : Host.Outcome State Fault Refusal :=
  let k := s.core c
  if (k.run != .running && k.run != .asleep) || k.halted || k.stopping then .next s
  else match s.aheadWants c n with
    | none => .next s
    | some i => .next (s.aheadTurn c n i)

/-- The tile registers of bank `b` as a mask. -/
def bankMask (b : Nat) : BitVec 16 := BitVec.ofNat 16 (0xF * 2 ^ (4 * b))

/-- BANK_GATE (R113): a bank with no live register is gated and loses its data. -/
def execBankGate (c : Nat) (b : Nat) (s : State) : Host.Outcome State Fault Refusal :=
  let k := s.core c
  if b < 4 ∧ k.bank b = .awake ∧ k.live &&& bankMask b = 0 then
    .next (s.setCore c { k with
      power := Store.set .gated k.power b .gated, dirty := k.dirty &&& ~~~ bankMask b
      t := Store.keep (fun i => i / 256 != b) k.t })
  else .next s

/-- BANK_WAKE_DONE (R113): the wake of a bank completes and the loads that wait go on. -/
def execBankWakeDone (c : Nat) (b : Nat) (s : State) : Host.Outcome State Fault Refusal :=
  let k := s.core c
  if b < 4 ∧ k.bank b = .waking then
    .next (((s.setCore c { k with power := Store.set .gated k.power b .awake }).finishLoads c).livenDrains c)
  else .next s

/-- A parity error found by an instruction of core `c` for the third time (R129). -/
def State.parityFault (s : State) (c : Nat) : State := s.accFault c { cause := 5 } false false

/-- A parity error in a tile-register read of the row move at the core's pc: it replays (R129). -/
def State.rowMoveParity (s : State) (c : Nat) : State :=
  let k := s.core c
  let w := s.csRead c k.pc 8
  if !s.runs c || bitsOf w 56 8 != 0x2D || s.isPoisoned (csAddr c k.pc) || queueUses c (vwT w) k.dcfg k.queue then s
  else if 2 ≤ k.rowRetries then s.parityFault c
  else s.setCore c { k with rowRetries := k.rowRetries + 1 }

/-- A parity error in a tile-register read of the tile store at entry `i`, which its unit has begun: some of its rows may be in memory
already, how many a free value says (R125, R129). -/
def State.storeParity (s : State) (c i : Nat) (e : QEntry) : State :=
  let k := s.core c
  let n := rowBytes e.word.toNat (shA e.word.toNat)
  if k.queue.findIdx? (fun e => e.st == .queued) != some i || k.firstOf 0 != some i || !k.hazardFree c i e || (rowMisaligned e).isSome then s
  else match s.xlateRows k.ctx n true 0 (k.rowAddrs e) with
    | .error _ => s
    | .ok rows =>
      if (s.unreachable (rows.flatMap (fun x => x.2.2))).isSome then s
      else if 2 ≤ e.retries then s.parityFault c
      else
        let s1 := { s with free := s.free + 1 + rows.length }.storeRows c e
          ((shuffled rows.length (s.free + 1) rows).take (Config.freeNat s.free % rows.length))
        s1.setCore c ((s1.core c).setEntry i { e with retries := e.retries + 1 })

/-- PARITY_ERROR (R129, R130, R169): a parity error found by the array instruction, drain or tile store at entry `i` of core `c`, or
beyond the queue by the row move at its pc: the instruction and every later entry that has started replay, a group instruction at every
member; a third error ends the work. -/
def execParityError (c : Nat) (i : Nat) (s : State) : Host.Outcome State Fault Refusal :=
  match (s.core c).queue[i]? with
  | none => .next (s.rowMoveParity c)
  | some e =>
    if e.op = 0x41 then .next (s.storeParity c i e)
    else if e.st ≠ .started ∨ (e.op ≠ 0x50 ∧ e.op ≠ 0x58) then .next s
    else if 2 ≤ e.retries then .next (s.parityFault c)
    else
      let s1 := ((c, i) :: s.groupPeers c i).foldl (fun (t : State) p =>
        let k := t.core p.1
        let f := k.queue.getD p.2 {}
        t.setCore p.1 (k.setEntry p.2 { f with retries := f.retries + 1 })) s
      .next (State.abandonFrom 64 [(c, i)] s1)

end Sys2Proof.Machine
end

