-- ==== Sys2Proof/Machine/Dispatch.lean ====
section
/-! DEFINITION. One arm per command: each calls the meaning of its row of the operation table. -/

namespace Sys2Proof.Machine

open Sys2Proof

def exec (i : Instr) (s : State) : Host.Outcome State Fault Refusal :=
  match i with
  | .nop c w => Sys2Proof.Machine.execNop c w s
  | .endWork c b => Sys2Proof.Machine.execEndWork c b s
  | .alu c b => Sys2Proof.Machine.execAlu c b s
  | .alui c b => Sys2Proof.Machine.execAlui c b s
  | .movi c b => Sys2Proof.Machine.execMovi c b s
  | .movhi c b => Sys2Proof.Machine.execMovhi c b s
  | .rdsys c b => Sys2Proof.Machine.execRdsys c b s
  | .br c b => Sys2Proof.Machine.execBr c b s
  | .brp c b => Sys2Proof.Machine.execBrp c b s
  | .jal c b => Sys2Proof.Machine.execJal c b s
  | .jalr c b => Sys2Proof.Machine.execJalr c b s
  | .ldl c b => Sys2Proof.Machine.execLdl c b s
  | .stl c b => Sys2Proof.Machine.execStl c b s
  | .ld c b => Sys2Proof.Machine.execLd c b s
  | .st c b => Sys2Proof.Machine.execSt c b s
  | .vop c b => Sys2Proof.Machine.execVop c b s
  | .vcmp c b => Sys2Proof.Machine.execVcmp c b s
  | .vred c b => Sys2Proof.Machine.execVred c b s
  | .plog c b => Sys2Proof.Machine.execPlog c b s
  | .vld c b => Sys2Proof.Machine.execVld c b s
  | .vst c b => Sys2Proof.Machine.execVst c b s
  | .vldl c b => Sys2Proof.Machine.execVldl c b s
  | .vstl c b => Sys2Proof.Machine.execVstl c b s
  | .vlds c b => Sys2Proof.Machine.execVlds c b s
  | .trowr c b => Sys2Proof.Machine.execTrowr c b s
  | .troww c b => Sys2Proof.Machine.execTroww c b s
  | .tld c b => Sys2Proof.Machine.execTld c b s
  | .tst c b => Sys2Proof.Machine.execTst c b s
  | .tlds c b => Sys2Proof.Machine.execTlds c b s
  | .trel c b => Sys2Proof.Machine.execTrel c b s
  | .mma c b => Sys2Proof.Machine.execMma c b s
  | .drain c b => Sys2Proof.Machine.execDrain c b s
  | .dcfg c b => Sys2Proof.Machine.execDcfg c b s
  | .sdecl c b => Sys2Proof.Machine.execSdecl c b s
  | .sfence c b => Sys2Proof.Machine.execSfence c b s
  | .sig c b => Sys2Proof.Machine.execSig c b s
  | .wait c b => Sys2Proof.Machine.execWait c b s
  | .spoll c b => Sys2Proof.Machine.execSpoll c b s
  | .mfence c b => Sys2Proof.Machine.execMfence c b s
  | .tileQueueDispatch c => Sys2Proof.Machine.execTileQueueDispatch c s
  | .groupStart c => Sys2Proof.Machine.execGroupStart c s
  | .mmaComplete c => Sys2Proof.Machine.execMmaComplete c s
  | .drainComplete c => Sys2Proof.Machine.execDrainComplete c s
  | .lineFillArrival c idx => Sys2Proof.Machine.execLineFillArrival c idx s
  | .runaheadFetchIssue c n => Sys2Proof.Machine.execRunaheadFetchIssue c n s
  | .bankGate c b => Sys2Proof.Machine.execBankGate c b s
  | .bankWakeDone c b => Sys2Proof.Machine.execBankWakeDone c b s
  | .parityError c idx => Sys2Proof.Machine.execParityError c idx s
  | .coreStop c => Sys2Proof.Machine.execCoreStop c s
  | .coreResume c => Sys2Proof.Machine.execCoreResume c s
  | .wakeFlitArrival b => Sys2Proof.Machine.execWakeFlitArrival b s
  | .waitDeadline c => Sys2Proof.Machine.execWaitDeadline c s
  | .coreWatchdog c => Sys2Proof.Machine.execCoreWatchdog c s
  | .doorbellPoll n => Sys2Proof.Machine.execDoorbellPoll n s
  | .commandDispatch n => Sys2Proof.Machine.execCommandDispatch n s
  | .compute n tag => Sys2Proof.Machine.execCompute n tag s
  | .fillTimeout n key => Sys2Proof.Machine.execFillTimeout n key s
  | .dma n tag => Sys2Proof.Machine.execDma n tag s
  | .dmaUnitComplete n tag u => Sys2Proof.Machine.execDmaUnitComplete n tag u s
  | .flush n tag => Sys2Proof.Machine.execFlush n tag s
  | .xlateInv n tag => Sys2Proof.Machine.execXlateInv n tag s
  | .press n tag => Sys2Proof.Machine.execPress n tag s
  | .pressUnitHandout p => Sys2Proof.Machine.execPressUnitHandout p s
  | .pressSpanComplete p => Sys2Proof.Machine.execPressSpanComplete p s
  | .pressParityRestart p => Sys2Proof.Machine.execPressParityRestart p s
  | .gate n tag => Sys2Proof.Machine.execGate n tag s
  | .gateStart n tag => Sys2Proof.Machine.execGateStart n tag s
  | .gateResolve n tag => Sys2Proof.Machine.execGateResolve n tag s
  | .gateTimeout n tag => Sys2Proof.Machine.execGateTimeout n tag s
  | .ingest n tag => Sys2Proof.Machine.execIngest n tag s
  | .sampleStart share => Sys2Proof.Machine.execSampleStart share s
  | .sampleComplete n tag pos d => Sys2Proof.Machine.execSampleComplete n tag pos d s
  | .freeTake n tag => Sys2Proof.Machine.execFreeTake n tag s
  | .mreduce n tag k => Sys2Proof.Machine.execMreduce n tag k s
  | .mmcast n tag k => Sys2Proof.Machine.execMmcast n tag k s
  | .gather n tag idx => Sys2Proof.Machine.execGather n tag idx s
  | .scatter n tag idx => Sys2Proof.Machine.execScatter n tag idx s
  | .coll n tag => Sys2Proof.Machine.execColl n tag s
  | .fmcast n tag => Sys2Proof.Machine.execFmcast n tag s
  | .syncInit n tag => Sys2Proof.Machine.execSyncInit n tag s
  | .syncInitHoldEnd n tag => Sys2Proof.Machine.execSyncInitHoldEnd n tag s
  | .syncRetire n tag => Sys2Proof.Machine.execSyncRetire n tag s
  | .syncSignal n tag => Sys2Proof.Machine.execSyncSignal n tag s
  | .syncWait n tag => Sys2Proof.Machine.execSyncWait n tag s
  | .syncDump n tag => Sys2Proof.Machine.execSyncDump n tag s
  | .commandComplete n tag => Sys2Proof.Machine.execCommandComplete n tag s
  | .completionRecordWrite n => Sys2Proof.Machine.execCompletionRecordWrite n s
  | .progressWrite n tag => Sys2Proof.Machine.execProgressWrite n tag s
  | .ctxEnable n => Sys2Proof.Machine.execCtxEnable n s
  | .ctxDisable n => Sys2Proof.Machine.execCtxDisable n s
  | .ctxPreempt n => Sys2Proof.Machine.execCtxPreempt n s
  | .ctxResume n => Sys2Proof.Machine.execCtxResume n s
  | .ctxReset n => Sys2Proof.Machine.execCtxReset n s
  | .ctxPtRootWrite n v => Sys2Proof.Machine.execCtxPtRootWrite n v s
  | .dbgHalt c => Sys2Proof.Machine.execDbgHalt c s
  | .dbgResume c => Sys2Proof.Machine.execDbgResume c s
  | .blockReset b => Sys2Proof.Machine.execBlockReset b s
  | .squareSplitApply v => Sys2Proof.Machine.execSquareSplitApply v s
  | .squareSplitComplete => Sys2Proof.Machine.execSquareSplitComplete s
  | .squareBankRequest half bank clk new flips => Sys2Proof.Machine.execSquareBankRequest half bank clk new flips s
  | .cacheFillComplete half set way => Sys2Proof.Machine.execCacheFillComplete half set way s
  | .memoryLineAccess line write data poison flips fails => Sys2Proof.Machine.execMemoryLineAccess line write data poison flips fails s
  | .patrolScrubRead half kind flip => Sys2Proof.Machine.execPatrolScrubRead half kind flip s
  | .hbmTempSample stack temp => Sys2Proof.Machine.execHbmTempSample stack temp s
  | .hbmRefresh stack => Sys2Proof.Machine.execHbmRefresh stack s
  | .lpddrRefreshRateRead idx rate => Sys2Proof.Machine.execLpddrRefreshRateRead idx rate s
  | .wckTracking idx inRange => Sys2Proof.Machine.execWckTracking idx inRange s
  | .meshFlitArrival x port pkt => Sys2Proof.Machine.execMeshFlitArrival x port pkt s
  | .meshCrcReplay x port fails => Sys2Proof.Machine.execMeshCrcReplay x port fails s
  | .reductionPacketArrival x port => Sys2Proof.Machine.execReductionPacketArrival x port s
  | .reductionHoldTimeout x => Sys2Proof.Machine.execReductionHoldTimeout x s
  | .meshMcastResend n tag => Sys2Proof.Machine.execMeshMcastResend n tag s
  | .meshMcastDeadline n tag => Sys2Proof.Machine.execMeshMcastDeadline n tag s
  | .fabricEnable => Sys2Proof.Machine.execFabricEnable s
  | .fabricDisable => Sys2Proof.Machine.execFabricDisable s
  | .sealApply => Sys2Proof.Machine.execSealApply s
  | .sealComplete => Sys2Proof.Machine.execSealComplete s
  | .routeDataWrite v => Sys2Proof.Machine.execRouteDataWrite v s
  | .failClear v => Sys2Proof.Machine.execFailClear v s
  | .helloTimer p => Sys2Proof.Machine.execHelloTimer p s
  | .hello p node port leaf lane fec ack grant => Sys2Proof.Machine.execHello p node port leaf lane fec ack grant s
  | .dataFrameReceive p lseq lack credit f eth => Sys2Proof.Machine.execDataFrameReceive p lseq lack credit f eth s
  | .control p lack credit => Sys2Proof.Machine.execControl p lack credit s
  | .replayReq p lack credit => Sys2Proof.Machine.execReplayReq p lack credit s
  | .fenced p => Sys2Proof.Machine.execFenced p s
  | .frameTransmit p vc cls => Sys2Proof.Machine.execFrameTransmit p vc cls s
  | .lackReportTimer p => Sys2Proof.Machine.execLackReportTimer p s
  | .replayTimeout p => Sys2Proof.Machine.execReplayTimeout p s
  | .linkIdleTimer p => Sys2Proof.Machine.execLinkIdleTimer p s
  | .rxSilenceTimeout p => Sys2Proof.Machine.execRxSilenceTimeout p s
  | .write => Sys2Proof.Machine.execWrite s
  | .readReq => Sys2Proof.Machine.execReadReq s
  | .readResp => Sys2Proof.Machine.execReadResp s
  | .ack => Sys2Proof.Machine.execAck s
  | .sync => Sys2Proof.Machine.execSync s
  | .mcast busy => Sys2Proof.Machine.execMcast busy s
  | .collFrame => Sys2Proof.Machine.execCollFrame s
  | .heartbeat => Sys2Proof.Machine.execHeartbeat s
  | .collAbort => Sys2Proof.Machine.execCollAbort s
  | .gateContrib => Sys2Proof.Machine.execGateContrib s
  | .gateResult => Sys2Proof.Machine.execGateResult s
  | .rsData => Sys2Proof.Machine.execRsData s
  | .rsDone => Sys2Proof.Machine.execRsDone s
  | .fail => Sys2Proof.Machine.execFail s
  | .e2eTimeout xid => Sys2Proof.Machine.execE2eTimeout xid s
  | .heartbeatTimer n tag => Sys2Proof.Machine.execHeartbeatTimer n tag s
  | .collSilenceTimeout n tag => Sys2Proof.Machine.execCollSilenceTimeout n tag s
  | .fabMcastResend n tag => Sys2Proof.Machine.execFabMcastResend n tag s
  | .fabMcastDeadline n tag => Sys2Proof.Machine.execFabMcastDeadline n tag s
  | .fencedTimer p => Sys2Proof.Machine.execFencedTimer p s
  | .deviceReset => Sys2Proof.Machine.execDeviceReset s
  | .powerOn => Sys2Proof.Machine.execPowerOn s
  | .perstNAssert ns => Sys2Proof.Machine.execPerstNAssert ns s
  | .perstNDeassert fuseError => Sys2Proof.Machine.execPerstNDeassert fuseError s
  | .pwrokRise mgmtAddr testEn => Sys2Proof.Machine.execPwrokRise mgmtAddr testEn s
  | .pwrokFall => Sys2Proof.Machine.execPwrokFall s
  | .pcieHotReset => Sys2Proof.Machine.execPcieHotReset s
  | .pcieLinkDown => Sys2Proof.Machine.execPcieLinkDown s
  | .railOutOfRange => Sys2Proof.Machine.execRailOutOfRange s
  | .pllLossOfLock => Sys2Proof.Machine.execPllLossOfLock s
  | .memoryTrainingComplete trained failed => Sys2Proof.Machine.execMemoryTrainingComplete trained failed s
  | .go => Sys2Proof.Machine.execGo s
  | .verify => Sys2Proof.Machine.execVerify s
  | .fwInitComplete ok sub => Sys2Proof.Machine.execFwInitComplete ok sub s
  | .fwTimeout => Sys2Proof.Machine.execFwTimeout s
  | .bootReset key => Sys2Proof.Machine.execBootReset key s
  | .advance => Sys2Proof.Machine.execAdvance s
  | .advanceFuseBlown => Sys2Proof.Machine.execAdvanceFuseBlown s
  | .fatalError source cls unit info => Sys2Proof.Machine.execFatalError source cls unit info s
  | .pmDump v => Sys2Proof.Machine.execPmDump v s
  | .errSelClear v => Sys2Proof.Machine.execErrSelClear v s
  | .errThresholdWindow => Sys2Proof.Machine.execErrThresholdWindow s
  | .powerControlTick p100 p1ms mj => Sys2Proof.Machine.execPowerControlTick p100 p1ms mj s
  | .thermalControlTick half tj stack => Sys2Proof.Machine.execThermalControlTick half tj stack s
  | .fastClamp => Sys2Proof.Machine.execFastClamp s
  | .fastClampRelease => Sys2Proof.Machine.execFastClampRelease s
  | .thermalTrip => Sys2Proof.Machine.execThermalTrip s
  | .clkLimitWrite v => Sys2Proof.Machine.execClkLimitWrite v s
  | .pmuClear v => Sys2Proof.Machine.execPmuClear v s
  | .pmuCountWrite c v => Sys2Proof.Machine.execPmuCountWrite c v s
  | .counterTick u evs => Sys2Proof.Machine.execCounterTick u evs s
  | .tagRecord index a b stages => Sys2Proof.Machine.execTagRecord index a b stages s
  | .tapeSnapshot => Sys2Proof.Machine.execTapeSnapshot s
  | .timestampRead part => Sys2Proof.Machine.execTimestampRead part s
  | .bar2Access x len data => Sys2Proof.Machine.execBar2Access x len data s
  | .registerWrite bar off size v => Sys2Proof.Machine.execRegisterWrite bar off size v s
  | .setEndpointId b eid => Sys2Proof.Machine.execSetEndpointId b eid s
  | .entdaa addr => Sys2Proof.Machine.execEntdaa addr s
  | .setdasa static addr => Sys2Proof.Machine.execSetdasa static addr s
  | .rstdaa => Sys2Proof.Machine.execRstdaa s
  | .enec events => Sys2Proof.Machine.execEnec events s
  | .disec events => Sys2Proof.Machine.execDisec events s
  | .getpid => Sys2Proof.Machine.execGetpid s
  | .getbcr => Sys2Proof.Machine.execGetbcr s
  | .getdcr => Sys2Proof.Machine.execGetdcr s
  | .getstatus => Sys2Proof.Machine.execGetstatus s
  | .getmrl => Sys2Proof.Machine.execGetmrl s
  | .setmrl v => Sys2Proof.Machine.execSetmrl v s
  | .getmwl => Sys2Proof.Machine.execGetmwl s
  | .setmwl v => Sys2Proof.Machine.execSetmwl v s
  | .getVersion b => Sys2Proof.Machine.execGetVersion b s
  | .getCapabilities b => Sys2Proof.Machine.execGetCapabilities b s
  | .negotiateAlgorithms b offered => Sys2Proof.Machine.execNegotiateAlgorithms b offered s
  | .getDigests b => Sys2Proof.Machine.execGetDigests b s
  | .getCertificate b slot offset length => Sys2Proof.Machine.execGetCertificate b slot offset length s
  | .setCertificate b slot chain leafKey => Sys2Proof.Machine.execSetCertificate b slot chain leafKey s
  | .challenge b slot msg => Sys2Proof.Machine.execChallenge b slot msg s
  | .getMeasurements b index signed msg => Sys2Proof.Machine.execGetMeasurements b index signed msg s
  | .keyExchange b msg => Sys2Proof.Machine.execKeyExchange b msg s
  | .finish b id verified => Sys2Proof.Machine.execFinish b id verified s
  | .keyUpdate b id => Sys2Proof.Machine.execKeyUpdate b id s
  | .endSession b id => Sys2Proof.Machine.execEndSession b id s
  | .revocationOrder b o => Sys2Proof.Machine.execRevocationOrder b o s
  | .getTid b => Sys2Proof.Machine.execGetTid b s
  | .setTid b v => Sys2Proof.Machine.execSetTid b v s
  | .getPldmVersion b type => Sys2Proof.Machine.execGetPldmVersion b type s
  | .getPldmTypes b => Sys2Proof.Machine.execGetPldmTypes b s
  | .getPldmCommands b type => Sys2Proof.Machine.execGetPldmCommands b type s
  | .getPdrRepositoryInfo b => Sys2Proof.Machine.execGetPdrRepositoryInfo b s
  | .getPdr b handle => Sys2Proof.Machine.execGetPdr b handle s
  | .getSensorReading b id => Sys2Proof.Machine.execGetSensorReading b id s
  | .getStateSensorReadings b id => Sys2Proof.Machine.execGetStateSensorReadings b id s
  | .getNumericEffecterValue b id => Sys2Proof.Machine.execGetNumericEffecterValue b id s
  | .setNumericEffecterValue b id v => Sys2Proof.Machine.execSetNumericEffecterValue b id v s
  | .getStateEffecterStates b id => Sys2Proof.Machine.execGetStateEffecterStates b id s
  | .setStateEffecterStates b id v => Sys2Proof.Machine.execSetStateEffecterStates b id v s
  | .setEventReceiver b eid => Sys2Proof.Machine.execSetEventReceiver b eid s
  | .sensorSample id v => Sys2Proof.Machine.execSensorSample id v s
  | .stateEventTimer id => Sys2Proof.Machine.execStateEventTimer id s
  | .extest pins cells => Sys2Proof.Machine.execExtest pins cells s
  | .samplePreload pins cells => Sys2Proof.Machine.execSamplePreload pins cells s
  | .extestPulse pins cells => Sys2Proof.Machine.execExtestPulse pins cells s
  | .extestTrain pins cells => Sys2Proof.Machine.execExtestTrain pins cells s
  | .syncWaitTimeLimit n tag => Sys2Proof.Machine.execSyncWaitTimeLimit n tag s
  | .readServiceDeadline xid => Sys2Proof.Machine.execReadServiceDeadline xid s
  | .lpddrRefresh idx => Sys2Proof.Machine.execLpddrRefresh idx s
  | .zqCalibration idx inRange => Sys2Proof.Machine.execZqCalibration idx inRange s
  | .sramInitComplete ok => Sys2Proof.Machine.execSramInitComplete ok s
  | .pcieConfigRequest msix => Sys2Proof.Machine.execPcieConfigRequest msix s
  | .msixVectorUnmask v => Sys2Proof.Machine.execMsixVectorUnmask v s
  | .portCtrlWrite p v => Sys2Proof.Machine.execPortCtrlWrite p v s
  | .portTrainingComplete p => Sys2Proof.Machine.execPortTrainingComplete p s
  | .pcieCompletionTimeout w => Sys2Proof.Machine.execPcieCompletionTimeout w s
  | .tapReset => Sys2Proof.Machine.execTapReset s
  | .idcode => Sys2Proof.Machine.execIdcode s
  | .clamp => Sys2Proof.Machine.execClamp s
  | .highz => Sys2Proof.Machine.execHighz s
  | .bypass => Sys2Proof.Machine.execBypass s
  | .railInRange => Sys2Proof.Machine.execRailInRange s
  | .pcieLinkUp => Sys2Proof.Machine.execPcieLinkUp s

end Sys2Proof.Machine
end

