-- ==== Sys2Proof/Safety.lean ====
section
/-! DEFINITION. What claims about runs speak of: a step that completes, and the canonical form of the machine's stores. -/

namespace Sys2Proof.Machine

open Sys2Proof

/-- The step of a state with a command in front completes: it neither faults nor is refused. -/
def completes (c : Instr) (s : State) : Prop := ∃ t, exec c s = .next t

/-- The memories and the register file are in canonical form: addresses rising, no entry that reads as an unlisted one. -/
abbrev State.canonical (s : State) : Prop :=
  Memory.wf s.dev = true ∧ Memory.wf s.host = true ∧ Store.wf (0 : W32) s.regs = true

/-- From fuses `f` to fuses `g` nothing blown is unblown: MIN_VERSION does not fall and a revoked key slot stays revoked (R519,
R541); the other fuses are as the factory left them (R513, R537). -/
def Fuses.blownFrom (f g : Fuses) : Prop :=
  f.minVersion ≤ g.minVersion ∧ (∀ k, Store.get false f.keyRevoked k = true → Store.get false g.keyRevoked k = true) ∧
    g.keyDigest = f.keyDigest ∧ g.groupKey = f.groupKey ∧ g.lot = f.lot

/-- Command `c` completes on `s`, with a next state of which `P` holds. -/
def Gives (c : Instr) (s : State) (P : State → Prop) : Prop := ∃ t, exec c s = .next t ∧ P t

/-- Core `c` issues the instruction of major opcode `op` with bits `b`: the core is enabled, runs, and no register the word names
waits (R101, R103, R131), the fetched word is clean (R110), and its reserved bits `reserved` are zero (R16). -/
abbrev State.issues (s : State) (c : Nat) (b : Body) (op reserved : Nat) : Prop :=
  s.canIssue c op (wordOf op b) = true ∧ s.isPoisoned (csAddr c (s.core c).pc) = false ∧ b.toNat &&& reserved = 0

/-- A core but for its tagging generator, which every issued instruction advances (R575). -/
def Core.untagged (k : Core) : Core := { k with tagGen := 0, tagItem := none }

/-- From `s` to `t` core `c` has become `k`, its tagging aside, and the other cores are as they were. -/
def State.coreIs (s : State) (c : Nat) (k : Core) (t : State) : Prop :=
  (t.core c).untagged = k.untagged ∧ ∀ d, d ≠ c → t.core d = s.core d

/-- From `s` to `t` nothing but core `c` has changed, and that core is now `k`, its tagging aside. -/
def State.onlyCore (s : State) (c : Nat) (k : Core) (t : State) : Prop :=
  s.coreIs c k t ∧ { t with cores := s.cores } = s

/-- `t` is `u` but for the tagging of core `c`. -/
def State.upToTags (u : State) (c : Nat) (t : State) : Prop :=
  u.coreIs c (u.core c) t ∧ { t with cores := u.cores } = u

/-- From `s` to `t` the local space holds `bs` from address `a`, and every other byte of it reads as before; so does every byte of
host memory. -/
def State.stores (s : State) (a : Nat) (bs : List Byte) (t : State) : Prop :=
  (∀ x, Memory.byte t.dev x = if a ≤ x ∧ x < a + bs.length then bs.getD (x - a) 0 else Memory.byte s.dev x) ∧
    ∀ x, Memory.byte t.host x = Memory.byte s.host x

/-- Every byte of the local space and of host memory reads in `t` as in `s`. -/
def State.sameBytes (s t : State) : Prop :=
  (∀ x, Memory.byte t.dev x = Memory.byte s.dev x) ∧ ∀ x, Memory.byte t.host x = Memory.byte s.host x

/-- Whether the 64-bit word that holds a physical address is free of poison (R66, R503). -/
def State.cleanAt (s : State) (pa : Nat) : Bool :=
  match s.space pa with | .loc a => !s.isPoisoned a | .host bus => !Store.get false s.hostEp (bus / 8) | _ => true

/-- The bytes that translated pieces of local or host memory hold, in order. -/
def State.bytesAt (s : State) (ps : List (Nat × Nat × Nat)) : List Byte :=
  ps.flatMap (fun p => match s.space p.2.1 with
    | .loc a => Memory.bytes s.dev a p.2.2 | .host bus => Memory.bytes s.host bus p.2.2 | _ => [])

/-- The local space and host memory with bytes written at translated pieces, in order. -/
def State.writeAt (s : State) : List (Nat × Nat × Nat) → List Byte → Memory × Memory
  | [], _ => (s.dev, s.host)
  | (_, pa, n) :: rest, bs => match s.space pa with
    | .loc a => { s with dev := Memory.setBytes s.dev a (bs.take n) }.writeAt rest (bs.drop n)
    | .host bus => { s with host := Memory.setBytes s.host bus (bs.take n) }.writeAt rest (bs.drop n)
    | _ => s.writeAt rest (bs.drop n)

/-- No way of the cache regions stands in for a word that memory has lost: no eviction changes a word of the local space (R46, R65). -/
abbrev State.lostFree (s : State) : Prop := ∀ p ∈ s.mem.sets, ∀ q ∈ p.2.ways, q.2.lost = []

/-- From `s` to `t` nothing has changed but the cores, the contexts and the two memories with their poison, the model's counter of free
values, and what an access of memory leaves behind it: the tags of the cache regions, the counts of poisoned words found, and the bytes
its path carried. -/
abbrev State.onlyAccessed (s t : State) : Prop :=
  { t with
    cores := s.cores, ctxs := s.ctxs, dev := s.dev, poison := s.poison, host := s.host, hostEp := s.hostEp, free := s.free
    mem := { t.mem with sets := s.mem.sets }, err := { t.err with units := s.err.units }
    mesh := { t.mesh with carried := s.mesh.carried } } = s

/-- Context `n` runs: the device is READY, the context is enabled, running and not pre-empted, and it owns no frozen entry. -/
abbrev State.ctxRuns (s : State) (n : Nat) : Prop :=
  s.ready = true ∧ s.ctxEnabled n = true ∧ s.ctxState n = 1 ∧ s.ctxPreempt n = false ∧ s.anyFrozen n = false

/-- Context `n` holds command `c`, the only one with its tag, of opcode `op` and at `phase`. -/
abbrev State.holds (s : State) (n : Nat) (c : Cmd) (op : Nat) (phase : CmdPhase) : Prop :=
  (s.ctx n).cmds.filter (fun d => d.tag == c.tag) = [c] ∧ c.op = op ∧ c.phase = phase

/-- In `t` the command of context `n` with a tag has settled with a status and a cause. -/
def State.settledAs (t : State) (n tag status cause : Nat) : Prop :=
  ∃ d, t.cmd? n tag = some d ∧ d.phase = .settled ∧ d.status = status ∧ d.cause = cause

/-- Every byte of host memory outside `len` bytes from `lo` reads in `t` as in `s`. -/
def State.hostBut (s : State) (lo len : Nat) (t : State) : Prop :=
  ∀ x, ¬(lo ≤ x ∧ x < lo + len) → Memory.byte t.host x = Memory.byte s.host x

/-- `len` bytes at virtual address `va` of context `n` are one clean piece of the local space, from `a`. -/
abbrev State.localAt (s : State) (n va len a : Nat) (write : Bool) : Prop :=
  s.engXlate n va len write = .ok [(va, a, len)] ∧ s.space a = .loc a ∧ ∀ i < len, s.isPoisoned (a + i) = false

/-- From `s` to `t` the local space holds `bs` from `a` and is otherwise as it was. -/
def State.puts (s : State) (a : Nat) (bs : List Byte) (t : State) : Prop :=
  ∀ x, Memory.byte t.dev x = if a ≤ x ∧ x < a + bs.length then bs.getD (x - a) 0 else Memory.byte s.dev x

/-- From `s` to `t` no core and no byte of the local space changed. -/
def State.coresAndDevKept (s t : State) : Prop := t.cores = s.cores ∧ t.dev = s.dev ∧ t.poison = s.poison

/-- From `s` to `t` nothing changed but what Town Hall holds for context `n`. -/
def State.onlyCtx (s : State) (n : Nat) (t : State) : Prop :=
  (∀ m, m ≠ n → t.ctx m = s.ctx m) ∧ { t with ctxs := s.ctxs } = s

/-- Host bus address of the progress slot of a tag of context `n` (R496). -/
def State.slotOf (s : State) (n tag : Nat) : Nat := s.progressBase n + 16 * (tag % 2 ^ s.cmdLog n)

/-- Node `i` at level `l` of the fixed tree over the values `xs`: level 0 holds the values, and each node above combines its pair
(R194). -/
def treeNode (f : W32 → W32 → W32) (xs : Nat → W32) : Nat → Nat → W32
  | 0, i => xs i
  | l + 1, i => f (treeNode f xs l (2 * i)) (treeNode f xs l (2 * i + 1))

end Sys2Proof.Machine
end

