-- ==== Sys2Proof/Certificates/Slice0/Obligations.lean ====
section
/-! DEFINITION. The statements for the provers: what the rules of the spec say the machine does, family by family. -/

open Sys2Proof Sys2Proof.Machine

/-! ## The queue, reset and the invariants of the machine -/

/-- A step with a command in front runs that command on the state with the queue's rest, whatever the command and the state. -/
def Obligations.StepRunsFrontCommand : Prop :=
  ∀ (c : Instr) (rest : List Instr) (s : State), s.pending = c :: rest → step s = exec c { s with pending := rest }

/-- With no command waiting a step lets one nanosecond pass: it changes no byte of the local space, no core, no context and no queue,
and where no error record waits to be written it changes nothing but the timestamp counter. That a step with no command passes time is
the model's choice, assumption 3. -/
def Obligations.IdleStepCountsOneNanosecond : Prop :=
  ∀ s : State, s.pending = [] →
    ∃ t, step s = .next t ∧ t.now = s.now + 1 ∧ t.dev = s.dev ∧ t.poison = s.poison ∧ t.cores = s.cores ∧ t.ctxs = s.ctxs ∧
      t.pending = [] ∧ (s.err.units = [] → s.err.hostReads = [] → t = { s with now := s.now + 1 })

/-- What the device reset leaves, at the values the spec gives: no command waits, BOOT_STATUS is INIT (R511, R590), the registers
of identity, of the contexts, of the Square, of the fabric, of the errors, of the Tape and of power hold their reset values, GRADE and
BLOCK_MAP describe a part of one of the three grades (R3; that it is SAR-S1-576 is the model's choice, assumption 75), every core is idle with its banks gated (R113), every context is disabled, and no message has been sent. -/
def Obligations.ResetLeavesTheStatedValues : Prop :=
  let s := State.reset
  s.pending = [] ∧ s.now = 0 ∧ s.boot = 1 ∧ s.gradeOk = true ∧ s.reg 0x0000 = 0x00015352 ∧ s.reg 0x0004 = 0x00240240 ∧
    (∀ n < 8, s.reg (0x0108 + 0x40 * n) = 0x00080908 ∧ s.ctxEnabled n = false ∧ s.ctxState n = 0 ∧ s.ptRoot n = 0) ∧
    s.reg 0x0400 = 0x10101010 ∧ s.reg 0x0408 = 0x00181801 ∧ s.reg 0x0600 = 0 ∧ (∀ p < 24, s.reg (0x0640 + 4 * p) = 4) ∧
    s.reg 0x0834 = 0xE10 ∧ s.reg 0x1408 = 0x00003E88 ∧ s.reg 0x1418 = 0xFFFFFFFF ∧ s.reg 0x141C = 0x7FFFFFFF ∧
    s.reg 0x2000 = 0x640 ∧ s.reg 0x200C = 0x88888888 ∧ s.reg 0x2010 = 0x8888 ∧
    (∀ c, (s.core c).run = .idle ∧ (∀ b, (s.core c).bank b = .gated) ∧ (∀ n, (s.core c).sreg n = 0) ∧ (s.core c).queue = []) ∧
    s.msixEnable = false ∧ s.msixSent = []

/-- The memories and the register file are in canonical form after the device reset. -/
def Obligations.ResetIsCanonical : Prop := State.reset.canonical

/-- Every step keeps the memories and the register file in canonical form, so that equal memories are equal data. -/
def Obligations.StepKeepsStoresCanonical : Prop :=
  ∀ s t : State, s.canonical → step s = .next t → t.canonical

/-- No step of the machine unblows a fuse: MIN_VERSION never falls, a revoked key slot stays revoked, and the factory's fuses stay as
they are (R513, R519, R537, R541). -/
def Obligations.StepNeverUnblowsAFuse : Prop :=
  ∀ s t : State, step s = .next t → s.plat.fuses.blownFrom t.plat.fuses

/-- Only the blowing of a fuse by BOOT_CTRL.ADVANCE raises MIN_VERSION: every other command, each of the management path included,
leaves it as it is (R519, R541). -/
def Obligations.OnlyAdvanceRaisesMinVersion : Prop :=
  ∀ (c : Instr) (s t : State), c ≠ .advanceFuseBlown → exec c s = .next t →
    t.plat.fuses.minVersion = s.plat.fuses.minVersion

/-- No command takes from the queue of waiting commands or adds to it: only the step does. -/
def Obligations.CommandsLeaveTheQueueAlone : Prop :=
  ∀ (c : Instr) (s t : State), exec c s = .next t → t.pending = s.pending

/-! ## Core registers and scalar instructions -/

/-- s0 reads as zero and p0 as all ones whatever is written to them, and every other scalar and predicate register reads as last
written, the others unchanged (R99). -/
def Obligations.HardwiredRegistersDiscardWrites : Prop :=
  ∀ (k : Core) (n : Nat) (x : W64),
    k.sreg 0 = 0 ∧ (∀ i < 64, (k.preg 0).getLsbD i = true) ∧ k.setS 0 x = k ∧ k.setP 0 x = k ∧
      (∀ m, (k.setS n x).sreg m = if m = n ∧ n ≠ 0 then x else k.sreg m) ∧
      (∀ m, (k.setP n x).preg m = if m = n ∧ n ≠ 0 then x else k.preg m)

/-- The scalar functions of ALU by FN, in numbers: additions, subtractions and products modulo 2^64, shifts by the low six bits,
signed and unsigned comparisons, minima and maxima, high halves and bitwise logic (R184). -/
def Obligations.ScalarFunctionsComputeTheTable : Prop :=
  ∀ a b : W64, ∃ v : Nat → W64, (∀ fn, fn ≤ 0x0D ∨ 0x10 ≤ fn ∧ fn ≤ 0x12 → aluFn fn a b = some (v fn)) ∧
    (v 0x00).toNat = (a.toNat + b.toNat) % 2 ^ 64 ∧ (v 0x01).toNat = (a.toNat + (2 ^ 64 - b.toNat)) % 2 ^ 64 ∧
    (∀ i < 64, (v 0x02).getLsbD i = (a.getLsbD i && b.getLsbD i) ∧ (v 0x03).getLsbD i = (a.getLsbD i || b.getLsbD i) ∧
      (v 0x04).getLsbD i = (a.getLsbD i ^^ b.getLsbD i)) ∧
    (v 0x05).toNat = a.toNat * 2 ^ (b.toNat % 64) % 2 ^ 64 ∧ (v 0x06).toNat = a.toNat / 2 ^ (b.toNat % 64) ∧
    (v 0x07).toInt = a.toInt / 2 ^ (b.toNat % 64) ∧
    (v 0x08).toNat = (if a.toInt < b.toInt then 1 else 0) ∧ (v 0x09).toNat = (if a.toNat < b.toNat then 1 else 0) ∧
    (v 0x0A).toInt = min a.toInt b.toInt ∧ (v 0x0B).toInt = max a.toInt b.toInt ∧
    (v 0x0C).toNat = min a.toNat b.toNat ∧ (v 0x0D).toNat = max a.toNat b.toNat ∧
    (v 0x10).toNat = a.toNat * b.toNat % 2 ^ 64 ∧ (v 0x11).toInt = a.toInt * b.toInt / 2 ^ 64 ∧
    (v 0x12).toNat = a.toNat * b.toNat / 2 ^ 64

/-- Division never faults: every divisor gives a quotient and a remainder; a divisor of zero gives a quotient with every bit 1 and
a remainder equal to sa; DIV of −2^63 by −1 gives −2^63 and REM gives 0; every other quotient is rounded toward zero and every
remainder has the sign of sa (R185, R184). -/
def Obligations.DivisionNeverFaults : Prop :=
  (∀ (s : State) (c : Nat) (b : Body), s.issues c b 0x04 0x7FFFFFFFF → 0x18 ≤ fnSreg (wordOf 0x04 b) → fnSreg (wordOf 0x04 b) ≤ 0x1B →
    ∃ v, aluFn (fnSreg (wordOf 0x04 b)) ((s.core c).sreg (fA (wordOf 0x04 b))) ((s.core c).sreg (fB (wordOf 0x04 b))) = some v ∧
      Gives (.alu c b) s (s.onlyCore c (((s.core c).setS (fD (wordOf 0x04 b)) v).advance s.now))) ∧
    ∀ a b : W64, ∃ q qu r ru : W64, aluFn 0x18 a b = some q ∧ aluFn 0x19 a b = some qu ∧ aluFn 0x1A a b = some r ∧
      aluFn 0x1B a b = some ru ∧
      (b = 0 → (∀ i < 64, q.getLsbD i = true ∧ qu.getLsbD i = true) ∧ r = a ∧ ru = a) ∧
      (a.toInt = -2 ^ 63 ∧ b.toInt = -1 → q.toInt = -2 ^ 63 ∧ r.toInt = 0) ∧
      (b ≠ 0 → ¬(a.toInt = -2 ^ 63 ∧ b.toInt = -1) → q.toInt = a.toInt.tdiv b.toInt ∧ r.toInt = a.toInt.tmod b.toInt) ∧
      (b ≠ 0 → qu.toNat = a.toNat / b.toNat ∧ ru.toNat = a.toNat % b.toNat)

/-- MOVI sets sd to its sign-extended immediate whatever SA is, MOVHI to sa with bits [63:40] replaced by IMM[23:0]; a word of either
with FN not 0 ends the work with ILLEGAL_OPCODE, a MOVHI word with IMM[39:24] not zero is reserved, and MOVI then MOVHI with SA equal
to SD makes any 64-bit constant (R186). Nothing but sd, the pc and the time of the last completion changes. -/
def Obligations.MoviMovhiBuildAnyConstant : Prop :=
  (∀ (s : State) (c : Nat) (b : Body), s.issues c b 0x06 0 → fnSimm (wordOf 0x06 b) = 0 →
    ∃ v : W64, v.toInt = (BitVec.ofNat 40 b.toNat).toInt ∧
      Gives (.movi c b) s (s.onlyCore c (((s.core c).setS (fD (wordOf 0x06 b)) v).advance s.now))) ∧
  (∀ (s : State) (c : Nat) (b : Body), s.issues c b 0x07 0xFFFF000000 → fnSimm (wordOf 0x07 b) = 0 →
    ∃ v : W64, (∀ i < 64, v.getLsbD i = if 40 ≤ i then b.getLsbD (i - 40) else ((s.core c).sreg (fA (wordOf 0x07 b))).getLsbD i) ∧
      Gives (.movhi c b) s (s.onlyCore c (((s.core c).setS (fD (wordOf 0x07 b)) v).advance s.now))) ∧
  (∀ (s : State) (c : Nat) (b : Body), fnSimm (wordOf 0x06 b) ≠ 0 →
    (s.issues c b 0x06 0 → Gives (.movi c b) s ((s.instrFault c 7 (s.core c).pc 0 (BitVec.ofNat 64 (wordOf 0x06 b))).upToTags c)) ∧
    (s.issues c b 0x07 0xFFFF000000 →
      Gives (.movhi c b) s ((s.instrFault c 7 (s.core c).pc 0 (BitVec.ofNat 64 (wordOf 0x07 b))).upToTags c))) ∧
  (∀ (s : State) (c : Nat) (b : Body), s.canIssue c 0x07 (wordOf 0x07 b) = true → s.isPoisoned (csAddr c (s.core c).pc) = false →
    b.toNat &&& 0xFFFF000000 ≠ 0 → exec (.movhi c b) s = .fault .reservedBits) ∧
  ∀ (x : W64) (d : Nat), 0 < d → d < 32 → ∃ b1 b2 : Body,
    fnSimm (wordOf 0x06 b1) = 0 ∧ fD (wordOf 0x06 b1) = d ∧
    fnSimm (wordOf 0x07 b2) = 0 ∧ fD (wordOf 0x07 b2) = d ∧ fA (wordOf 0x07 b2) = d ∧ b2.toNat &&& 0xFFFF000000 = 0 ∧
    (∀ (s : State) (c : Nat), s.issues c b1 0x06 0 → Gives (.movi c b1) s (fun t =>
      ∀ u : State, (u.core c).sreg d = (t.core c).sreg d → u.issues c b2 0x07 0xFFFF000000 →
        Gives (.movhi c b2) u (fun v => (v.core c).sreg d = x)))

/-- NOP, ALU, ALUI and RDSYS complete: the result of the function goes to sd (a write of s0 is discarded), the pc moves on by one
word, and nothing else changes (R184, R187, R219). RDSYS FN 0x04 needs the queue to hold no drain. -/
def Obligations.ScalarInstructionsWriteOnlySd : Prop :=
  ∀ (s : State) (c : Nat) (b : Body),
    (∀ word : W64, word.toNat / 2 ^ 56 = 1 → s.issues c (word.setWidth 56) 0x01 0xFFFFFFFFFFFFFF →
      Gives (.nop c word) s (s.onlyCore c ((s.core c).advance s.now))) ∧
    (∀ v, s.issues c b 0x04 0x7FFFFFFFF →
      aluFn (fnSreg (wordOf 0x04 b)) ((s.core c).sreg (fA (wordOf 0x04 b))) ((s.core c).sreg (fB (wordOf 0x04 b))) = some v →
      Gives (.alu c b) s (s.onlyCore c (((s.core c).setS (fD (wordOf 0x04 b)) v).advance s.now))) ∧
    (∀ v, s.issues c b 0x05 0 → fnSimm (wordOf 0x05 b) ∈ [0, 2, 3, 4, 5, 6, 7, 8, 9, 0xA, 0xB, 0xC, 0xD, 0x10] →
      aluFn (fnSimm (wordOf 0x05 b)) ((s.core c).sreg (fA (wordOf 0x05 b))) ((BitVec.ofNat 40 b.toNat).signExtend 64) = some v →
      Gives (.alui c b) s (s.onlyCore c (((s.core c).setS (fD (wordOf 0x05 b)) v).advance s.now))) ∧
    (s.issues c b 0x08 0x7FFFFFFFF →
      (∀ v : W64, (fnSreg (wordOf 0x08 b) = 0 ∧ v = BitVec.ofNat 64 s.now ∨ fnSreg (wordOf 0x08 b) = 1 ∧ v = BitVec.ofNat 64 c ∨
          fnSreg (wordOf 0x08 b) = 2 ∧ v = BitVec.ofNat 64 (s.core c).ctx ∨
          fnSreg (wordOf 0x08 b) = 3 ∧ v = BitVec.ofNat 64 (s.fld 0x200C (4 * (c / 288)) 4) ∨
          fnSreg (wordOf 0x08 b) = 4 ∧ (s.core c).hasDrain = false ∧
            v = (s.core c).stats.read (((s.core c).sreg (fA (wordOf 0x08 b))).toNat % 32)) →
        Gives (.rdsys c b) s (s.onlyCore c (((s.core c).setS (fD (wordOf 0x08 b)) v).advance s.now))))

/-- The branch instructions: a taken branch goes to (PC + 8 × OFF) modulo 2^20, JALR to (sa + 8 × OFF) modulo 2^20, one not taken to
the next word; JAL and JALR write PC + 8 to sd; nothing else changes. A JALR target whose bits [2:0] are not zero ends the work with
STREAM_MISALIGNED and sd keeps its value (R190, R191). -/
def Obligations.BranchesReachTheirTargets : Prop :=
  ∀ (s : State) (c : Nat) (b : Body),
    let k := s.core c
    let off : Int := (BitVec.ofNat 20 b.toNat).toInt
    let w := b.toNat
    (∀ taken : Bool, s.issues c b 0x10 0x3FFF00000 → (taken = true ↔
        (brCond w = 0 ∧ k.sreg (brA w) = k.sreg (brB w) ∨ brCond w = 1 ∧ k.sreg (brA w) ≠ k.sreg (brB w) ∨
        brCond w = 2 ∧ (k.sreg (brA w)).toInt < (k.sreg (brB w)).toInt ∨ brCond w = 3 ∧ (k.sreg (brB w)).toInt ≤ (k.sreg (brA w)).toInt ∨
        brCond w = 4 ∧ (k.sreg (brA w)).toNat < (k.sreg (brB w)).toNat ∨ brCond w = 5 ∧ (k.sreg (brB w)).toNat ≤ (k.sreg (brA w)).toNat)) →
      brCond w ≤ 5 → ∃ pc : Nat, (pc : Int) = ((k.pc : Int) + if taken then 8 * off else 8) % 0x100000 ∧
        Gives (.br c b) s (s.onlyCore c { k with pc, lastDone := s.now })) ∧
    (∀ taken : Bool, s.issues c b 0x11 0x3FFF00000 → (taken = true ↔
        (brCond w = 0 ∧ (∃ i < 64, (k.preg (brP w)).getLsbD i = true) ∨ brCond w = 1 ∧ (∀ i < 64, (k.preg (brP w)).getLsbD i = true) ∨
        brCond w = 2 ∧ (∀ i < 64, (k.preg (brP w)).getLsbD i = false) ∨ brCond w = 3 ∧ (∃ i < 64, (k.preg (brP w)).getLsbD i = false))) →
      brCond w ≤ 3 → ∃ pc : Nat, (pc : Int) = ((k.pc : Int) + if taken then 8 * off else 8) % 0x100000 ∧
        Gives (.brp c b) s (s.onlyCore c { k with pc, lastDone := s.now })) ∧
    (s.issues c b 0x12 0x3FFF00000 → brCond w = 0 → ∃ pc : Nat, (pc : Int) = ((k.pc : Int) + 8 * off) % 0x100000 ∧
      Gives (.jal c b) s (s.onlyCore c { k.setS (brD w) (BitVec.ofNat 64 (k.pc + 8)) with pc, lastDone := s.now })) ∧
    (∀ pc : Nat, s.issues c b 0x13 0x3FFF00000 → brCond w = 0 → (pc : Int) = ((k.sreg (brA w)).toInt + 8 * off) % 0x100000 →
      (pc % 8 = 0 → Gives (.jalr c b) s
        (s.onlyCore c { k.setS (brD w) (BitVec.ofNat 64 (k.pc + 8)) with pc, lastDone := s.now })) ∧
      (pc % 8 ≠ 0 → Gives (.jalr c b) s
        ((s.instrFault c 0xA k.pc pc (BitVec.ofNat 64 (wordOf 0x13 b))).upToTags c)))

/-- A reserved major opcode, or a reserved code of an FN, COND or MODE field, or of DCFG, ends the work with ILLEGAL_OPCODE: the instruction takes the fault of R221
at its own pc with INFO 0, whatever its other fields are (R179, R183, R184, R186, R187, R190, R192 to R195, R205, R206, R212). And the record
of such a fault: an illegal word of a core in no group, whose context runs and whose event ring has room, puts the 32 bytes of R221 at
the ring's next slot (cause, core and context, pc, INFO, the word, the tag and the time), raises the producer index in the doorbell
page by one, ends the core's work, and starts no other work where none waits (R104, R220, R221, R482, R484). -/
def Obligations.ReservedCodesTakeTheInstructionFault : Prop :=
  (∀ (s : State) (c : Nat) (b : Body),
     let bad := fun (op : Nat) => (s.instrFault c 7 (s.core c).pc 0 (BitVec.ofNat 64 (wordOf op b))).upToTags c
     let w := b.toNat
     (s.issues c b 0x04 0x7FFFFFFFF → fnSreg w ∉ [0, 1, 2, 3, 4, 5, 6, 7, 8, 9, 0xA, 0xB, 0xC, 0xD, 0x10, 0x11, 0x12, 0x18, 0x19, 0x1A, 0x1B] →
       Gives (.alu c b) s (bad 0x04)) ∧
     (s.issues c b 0x05 0 → fnSimm w ∉ [0, 2, 3, 4, 5, 6, 7, 8, 9, 0xA, 0xB, 0xC, 0xD, 0x10] → Gives (.alui c b) s (bad 0x05)) ∧
     (s.issues c b 0x08 0x7FFFFFFFF → 5 ≤ fnSreg w → Gives (.rdsys c b) s (bad 0x08)) ∧
     (∀ word : W64, majorOpcode (word.toNat / 2 ^ 56) = false → s.issues c (word.setWidth 56) (word.toNat / 2 ^ 56) 0 →
       Gives (.nop c word) s ((s.instrFault c 7 (s.core c).pc 0 word).upToTags c)) ∧
     (s.issues c b 0x10 0x3FFF00000 → 6 ≤ brCond w → Gives (.br c b) s (bad 0x10)) ∧
     (s.issues c b 0x11 0x3FFF00000 → 4 ≤ brCond w → Gives (.brp c b) s (bad 0x11)) ∧
     (s.issues c b 0x12 0x3FFF00000 → brCond w ≠ 0 → Gives (.jal c b) s (bad 0x12)) ∧
     (s.issues c b 0x13 0x3FFF00000 → brCond w ≠ 0 → Gives (.jalr c b) s (bad 0x13)) ∧
     (s.issues c b 0x20 0x3FFFFFF → ¬(vrFn w ≤ 0x0D ∨ 0x10 ≤ vrFn w ∧ vrFn w ≤ 0x19 ∨ vrFn w = 0x1E) → Gives (.vop c b) s (bad 0x20)) ∧
     (s.issues c b 0x21 0xC0000003FFFFFF → ¬(vrFn w ≤ 5 ∨ vrFn w = 8 ∨ vrFn w = 9) → Gives (.vcmp c b) s (bad 0x21)) ∧
     (s.issues c b 0x22 0x3FFFFFF → 4 ≤ vrFn w → Gives (.vred c b) s (bad 0x22)) ∧
     (s.issues c b 0x59 0xFFFFFFFFF →
       (6 ≤ bitsOf w 50 6 ∧ bitsOf w 50 6 < 0x20 ∨ 0x27 ≤ bitsOf w 50 6 ∨ 2 ≤ bitsOf w 38 2) → Gives (.dcfg c b) s (bad 0x59)) ∧
     (s.issues c b 0x70 0x3FFFFFFFF → syMode w = 3 → Gives (.sig c b) s (bad 0x70)) ∧
     (s.issues c b 0x71 0x3FFFFFFFF → syMode w = 3 → Gives (.wait c b) s (bad 0x71)) ∧
     (s.issues c b 0x72 0x3FFFFFFFF → syMode w ≠ 0 → Gives (.spoll c b) s (bad 0x72))) ∧
  (∀ (s : State) (c : Nat) (b : Body), s.issues c b 0x12 0x3FFF00000 → brCond b.toNat ≠ 0 →
     let k := s.core c
     let x := s.ctx k.ctx
     let a := s.evtBase k.ctx + 32 * (x.evtTail % 2 ^ s.evtLog k.ctx)
     let d := s.doorbell k.ctx + 0x808
     s.groupsOf c = [] → s.ctxState k.ctx ≠ 3 → k.works = [] → k.pc < 2 ^ 20 → k.ctx < 2 ^ 8 → k.tag < 2 ^ 32 →
     x.evtTail < 2 ^ 32 → wrapSub x.evtTail x.evtHead < 2 ^ s.evtLog k.ctx → (d + 4 ≤ a ∨ a + 32 ≤ d) →
     Gives (.jal c b) s (fun t =>
       Memory.readLE t.host a 4 = 7 ∧ Memory.readLE t.host (a + 4) 4 = c + k.ctx * 2 ^ 16 ∧
       Memory.readLE t.host (a + 8) 4 = k.pc ∧ Memory.readLE t.host (a + 12) 4 = 0 ∧
       Memory.readLE t.host (a + 16) 8 = wordOf 0x12 b ∧ Memory.readLE t.host (a + 24) 4 = k.tag ∧
       Memory.readLE t.host (a + 28) 4 = s.now % 2 ^ 32 ∧ Memory.readLE t.host d 4 = (x.evtTail + 1) % 2 ^ 32 ∧
       (∀ y, ¬(a ≤ y ∧ y < a + 32) → ¬(d ≤ y ∧ y < d + 4) → Memory.byte t.host y = Memory.byte s.host y) ∧ t.dev = s.dev ∧
       (t.core c).run = .idle ∧ (t.core c).queue = [] ∧ (t.core c).live = 0))



/-! ## Vector and predicate instructions -/

/-- VOP, VCMP and VRED complete. VOP writes the lane function of each lane whose PG bit is 1, the second operand being sb's low half
in every lane with BS; VCMP replaces the bits of pd that PG enables; VRED writes the fixed tree over the lanes, an excluded lane
standing for the operation's neutral value, zero-extended; ISUM is thus the sum of the enabled lanes modulo 2^32. Every other
register, lane and bit, and everything else, is unchanged (R139, R192, R193, R194, R198). -/
def Obligations.VectorInstructionsWriteEnabledLanes : Prop :=
  ∀ (s : State) (c : Nat) (b : Body),
    let k := s.core c
    let w := b.toNat
    let second := fun i => if vrBs w then (k.sreg (fB w)).setWidth 32 else k.vlane (fB w) i
    let pg := k.preg (vrPg w)
    (∀ r : Nat → W32, s.issues c b 0x20 0x3FFFFFF → k.biasHolds (fD w) = false →
      (∀ i < 64, laneFn (vrFn w) (k.vlane (fA w) i) (second i) (k.vlane (fC w) i) ((k.preg (fC w % 8)).getLsbD i) i = some (r i)) →
      ∃ k' : Core, (∀ n i, i < 64 → k'.vlane n i = if n = fD w ∧ pg.getLsbD i = true then r i else k.vlane n i) ∧
        { k' with v := k.v } = k ∧ Gives (.vop c b) s (s.onlyCore c (k'.advance s.now))) ∧
    (∀ r : Nat → Bool, s.issues c b 0x21 0xC0000003FFFFFF →
      (∀ i < 64, cmpFn (vrFn w) (k.vlane (fA w) i) (second i) = some (r i)) →
      ∃ x : W64, (∀ i < 64, x.getLsbD i = if pg.getLsbD i then r i else (k.preg (fD w)).getLsbD i) ∧
        Gives (.vcmp c b) s (s.onlyCore c ((k.setP (fD w) x).advance s.now))) ∧
    (∀ (f : W32 → W32 → W32) (e : W32), s.issues c b 0x22 0x3FFFFFF →
      (vrFn w = 0 ∧ f = f32add ∧ e = 0 ∨ vrFn w = 1 ∧ f = f32max ∧ e = 0xFF800000 ∨ vrFn w = 2 ∧ f = f32min ∧ e = 0x7F800000 ∨
        vrFn w = 3 ∧ f = (· + ·) ∧ e = 0) →
      Gives (.vred c b) s (s.onlyCore c ((k.setS (fD w)
        ((treeNode f (fun i => if pg.getLsbD i then k.vlane (fA w) i else e) 6 0).setWidth 64)).advance s.now))) ∧
    (s.issues c b 0x22 0x3FFFFFF → vrFn w = 3 → ∃ v : W64,
      v.toNat = ((List.range 64).map (fun i => if pg.getLsbD i then (k.vlane (fA w) i).toNat else 0)).sum % 2 ^ 32 ∧
      Gives (.vred c b) s (s.onlyCore c ((k.setS (fD w) v).advance s.now)))

/-- PLOG, whole: FN 0 to 4 are AND, OR, XOR, pa AND NOT pb and NOT pa on the predicates the low three bits name, FN 5 moves a scalar
register to pd and FN 6 a predicate to a scalar register; a word whose upper predicate bits are not zero is reserved, every other FN
is ILLEGAL_OPCODE, and PG plays no part (R195). Nothing but the destination and the pc changes. -/
def Obligations.PredicateLogicFollowsItsTable : Prop :=
  ∀ (s : State) (c : Nat) (b : Body),
    let k := s.core c
    let w := b.toNat
    let fn := vrFn w
    let pa := k.preg (bitsOf w 46 3)
    let pb := k.preg (bitsOf w 41 3)
    let upper := bitsOf w 44 2 ≠ 0 ∨ (fn ≠ 6 ∧ bitsOf w 54 2 ≠ 0) ∨ (fn ≠ 5 ∧ bitsOf w 49 2 ≠ 0)
    s.canIssue c 0x23 (wordOf 0x23 b) = true → s.isPoisoned (csAddr c k.pc) = false →
      (upper → exec (.plog c b) s = .fault .reservedBits) ∧
      (¬upper → bitsOf w 0 26 = 0 →
        (fn ≤ 4 → ∃ v : W64, (∀ i < 64, v.getLsbD i = (if fn = 0 then pa.getLsbD i && pb.getLsbD i else if fn = 1 then pa.getLsbD i || pb.getLsbD i
            else if fn = 2 then pa.getLsbD i ^^ pb.getLsbD i else if fn = 3 then pa.getLsbD i && !pb.getLsbD i else !pa.getLsbD i)) ∧
          Gives (.plog c b) s (s.onlyCore c ((k.setP (bitsOf w 51 3) v).advance s.now))) ∧
        (fn = 5 → Gives (.plog c b) s (s.onlyCore c ((k.setP (bitsOf w 51 3) (k.sreg (bitsOf w 46 5))).advance s.now))) ∧
        (fn = 6 → Gives (.plog c b) s (s.onlyCore c ((k.setS (bitsOf w 51 5) pa).advance s.now))) ∧
        (7 ≤ fn → Gives (.plog c b) s ((s.instrFault c 7 k.pc 0 (BitVec.ofNat 64 (wordOf 0x23 b))).upToTags c)))

/-! ## Local loads and stores -/

/-- LDL and VLDL read the core's own store: LDL writes sd with the SIZE bytes at (sa + IMM) modulo 2^20, little-endian, extended
under SX; VLDL writes the lanes whose PG bit is 1 with the 256-byte line there. Neither changes a byte of memory nor any other register.
STL and VSTL write it and no other byte: STL the SIZE low bytes of sd, VSTL the lanes whose PG bit is 1 of the line; with no lane
enabled VSTL writes no byte; no register changes, and only the core's held copies of the lines, the pc and the time of the last
completion follow, and the count of poisoned words where a store covers one in part. An offset that is no multiple of the access ends the work with STREAM_MISALIGNED; a poisoned word that a load uses
ends it with POISON_CONSUMED (R66, R69, R88, R108, R119, R188, R196). -/
def Obligations.LocalAccessesUseTheCoreStore : Prop :=
  (∀ (s : State) (c : Nat) (b : Body),
     let k := s.core c
     let w := b.toNat
     let n := 2 ^ bitsOf w 44 2
     let off := (k.sreg (fA w) + (BitVec.ofNat 32 w).signExtend 64).toNat % 2 ^ 20
     let base := coreStoreBase + c * 2 ^ 20
     let used := fun (i : Nat) => (k.preg (vmPg w)).getLsbD (2 * i) = true ∨ (k.preg (vmPg w)).getLsbD (2 * i + 1) = true
     (∀ v : W64, s.issues c b 0x18 0x7FF00000000 → off % n = 0 → k.holdsLocal off n = false → s.isPoisoned (base + off) = false →
       (v.toNat = Memory.readLE s.dev (base + off) n ∧ (bitOf w 43 = false ∨ n = 8) ∨
         v.toInt = (BitVec.ofNat (8 * n) (Memory.readLE s.dev (base + off) n)).toInt ∧ bitOf w 43 = true) →
       Gives (.ldl c b) s (s.onlyCore c ((k.setS (fD w) v).advance s.now))) ∧
     (s.issues c b 0x18 0x7FF00000000 → off % n = 0 → k.holdsLocal off n = false → s.isPoisoned (base + off) = true →
       Gives (.ldl c b) s (((s.countLocal c (off - off % 8) 8).accFault c { cause := 5, va := off - off % 8 } false true).upToTags c)) ∧
     (s.issues c b 0x18 0x7FF00000000 → off % n ≠ 0 →
       Gives (.ldl c b) s ((s.instrFault c 0xA k.pc off (BitVec.ofNat 64 (wordOf 0x18 b))).upToTags c)) ∧
     (s.issues c b 0x2A 0xFF00000000 → off % 256 = 0 → k.biasHolds (fD w) = false → k.holdsLocal off 256 = false →
       (∀ i < 32, used i → s.isPoisoned (base + off + 8 * i) = false) →
       ∃ k' : Core, (∀ m i, i < 64 → k'.vlane m i = if m = fD w ∧ (k.preg (vmPg w)).getLsbD i = true
           then BitVec.ofNat 32 (Memory.readLE s.dev (base + off + 4 * i) 4) else k.vlane m i) ∧
         { k' with v := k.v } = k ∧ Gives (.vldl c b) s ((s.countLocal c off 256).onlyCore c (k'.advance s.now)) ∧
         ((∀ i < 32, s.isPoisoned (base + off + 8 * i) = false) → s.countLocal c off 256 = s)) ∧
     (∀ i < 32, s.issues c b 0x2A 0xFF00000000 → off % 256 = 0 → k.biasHolds (fD w) = false → k.holdsLocal off 256 = false →
       used i → s.isPoisoned (base + off + 8 * i) = true → (∀ j < i, used j → s.isPoisoned (base + off + 8 * j) = false) →
       Gives (.vldl c b) s (((s.countLocal c off 256).accFault c { cause := 5, va := off + 8 * i } false true).upToTags c)) ∧
     (s.issues c b 0x2A 0xFF00000000 → off % 256 ≠ 0 →
       Gives (.vldl c b) s ((s.instrFault c 0xA k.pc off (BitVec.ofNat 64 (wordOf 0x2A b))).upToTags c))) ∧
  (∀ (s : State) (c : Nat) (b : Body),
     let k := s.core c
     let w := b.toNat
     let n := 2 ^ bitsOf w 44 2
     let off := (k.sreg (fA w) + (BitVec.ofNat 32 w).signExtend 64).toNat % 2 ^ 20
     let base := coreStoreBase + c * 2 ^ 20
     let regsKept := fun (t : State) =>
       { (t.core c).untagged with lines := k.lines, fills := k.fills, remote := k.remote } = (k.advance s.now).untagged ∧
       (∀ d, d ≠ c → t.core d = s.core d) ∧ s.onlyAccessed t ∧ t.mem = s.mem ∧ t.mesh = s.mesh ∧ t.free = s.free ∧
       ((∀ i < 256, s.isPoisoned (base + off + i) = false) → t.err = s.err)
     (s.issues c b 0x19 0x7FF00000000 → off % n = 0 → k.holdsLocal off n = false →
       Gives (.stl c b) s (fun t => s.stores (base + off) (natLE n (k.sreg (fD w)).toNat) t ∧ regsKept t)) ∧
     (s.issues c b 0x19 0x7FF00000000 → off % n ≠ 0 →
       Gives (.stl c b) s ((s.instrFault c 0xA k.pc off (BitVec.ofNat 64 (wordOf 0x19 b))).upToTags c)) ∧
     (s.issues c b 0x2B 0xFF00000000 → off % 256 = 0 → k.holdsLocal off 256 = false →
       Gives (.vstl c b) s (fun t => (∀ x, Memory.byte t.dev x =
           if base + off ≤ x ∧ x < base + off + 256 ∧ (k.preg (vmPg w)).getLsbD ((x - (base + off)) / 4) = true
           then BitVec.ofNat 8 ((k.vlane (fD w) ((x - (base + off)) / 4)).toNat / 2 ^ (8 * ((x - (base + off)) % 4)))
           else Memory.byte s.dev x) ∧ regsKept t)) ∧
     (s.issues c b 0x2B 0xFF00000000 → off % 256 ≠ 0 →
       Gives (.vstl c b) s ((s.instrFault c 0xA k.pc off (BitVec.ofNat 64 (wordOf 0x2B b))).upToTags c)))


/-! ## Loads and stores through virtual addresses -/

/-- LD, VLD, ST and VST through virtual addresses, while no way of the cache regions stands in for a lost word. Where the range translates
to readable local or host memory, no access of the core to it is outstanding, the core's held lines agree with memory and no used word is
poisoned, LD writes sd with the SIZE bytes there, extended under SX, and VLD the lanes whose PG bit is 1; no byte of memory and no other
register changes, and beside them only what an access leaves: the line cache and its parity count, the tags of the cache regions, the
counts of poisoned words found, the bytes carried. Where it translates to writable
local or host memory, ST writes the SIZE low bytes of sd and VST the lanes whose PG bit is 1, at the translated addresses, and every
other byte reads as before; no register changes. Where the translation faults, no byte is written and the work ends with its fault; a
failed host read ends it with TRANSLATION_FAULT; where a load's range lies on another node and no line of it is held, it waits for its replies (R66, R82, R85, R88,
R188, R196, R408, R503). -/
def Obligations.VirtualAccessesUseTranslatedMemory : Prop :=
  (∀ (s : State) (c : Nat) (b : Body) (ps : List (Nat × Nat × Nat)),
     let k := s.core c
     let w := b.toNat
     let n := 2 ^ bitsOf w 44 2
     let pg := k.preg (vmPg w)
     let va := (k.sreg (fA w) + (BitVec.ofNat 32 w).signExtend 64).toNat
     let near := (∀ p ∈ ps, s.isRemote p.2.1 = false) ∧ s.hostCheck k.ctx ps = none ∧ s.lostFree ∧
       s.holdsWord c (ps.map (fun p => (s.norm p.2.1, p.2.2))) = false ∧
       (∀ l ∈ k.lines, l.owner = 8 → l.ctx = k.ctx → s.isRemote l.pa = false → l = s.memLine l.ctx 8 l.pa)
     let rest := fun (k' : Core) (t : State) => { (t.core c).untagged with lines := k'.lines, lineParity := k'.lineParity } = k'.untagged ∧
       (∀ d, d ≠ c → t.core d = s.core d) ∧ t.dev = s.dev ∧ t.poison = s.poison ∧ t.host = s.host ∧ t.hostEp = s.hostEp ∧
       (∀ m, { t.ctx m with tlb := (s.ctx m).tlb } = s.ctx m) ∧ s.onlyAccessed t
     (∀ v : W64, s.issues c b 0x1A 0x7FF00000000 → s.xlateRange k.ctx va n false = .ok ps → near →
       (∀ p ∈ ps, ∀ i < p.2.2, s.cleanAt (p.2.1 + i) = true) →
       (v.toNat = leNat (s.bytesAt ps) ∧ (bitOf w 43 = false ∨ n = 8) ∨
         v.toInt = (BitVec.ofNat (8 * n) (leNat (s.bytesAt ps))).toInt ∧ bitOf w 43 = true) →
       Gives (.ld c b) s (rest ((k.setS (fD w) v).advance s.now))) ∧
     (∀ f, s.issues c b 0x1A 0x7FF00000000 → s.xlateRange k.ctx va n false = .error f →
       Gives (.ld c b) s ((s.accFault c f false false).upToTags c)) ∧
     (∀ f bus, s.issues c b 0x1A 0x7FF00000000 → s.xlateRange k.ctx va n false = .ok ps → s.hostCheck k.ctx ps = some (f, bus) →
       Gives (.ld c b) s (((s.hostReadError k.ctx bus).accFault c f false false).upToTags c)) ∧
     (∀ pa node off, s.issues c b 0x1A 0x7FF00000000 → s.xlateRange k.ctx va n false = .ok [(va, pa, n)] → s.space pa = .remote node off →
       s.holdsWord c [(pa, n)] = false → (∀ l ∈ k.lines, l.owner = 8 → s.isRemote l.pa = false) → s.nodeFailed node = false → (s.route 2 s.node node).isSome = true →
       Gives (.ld c b) s (fun t => (∃ r, (t.core c).remote = k.remote ++ [r] ∧ r.kind = .load (fD w) n (bitOf w 43) ∧ r.parts ≠ []) ∧
         (t.core c).pc = (k.pc + 8) % 0x100000 ∧ (∀ m, (t.core c).sreg m = k.sreg m) ∧ s.sameBytes t)) ∧
     (s.issues c b 0x28 0xFF00000000 → va % 256 = 0 → k.biasHolds (fD w) = false → s.xlateRange k.ctx va 256 false = .ok ps → near →
       (∀ p ∈ ps, ∀ i < 64, pg.getLsbD i = true → s.cleanAt (p.2.1 + 4 * i) = true) →
       ∃ k' : Core, (∀ m i, i < 64 → k'.vlane m i = if m = fD w ∧ pg.getLsbD i = true
           then BitVec.ofNat 32 (leNat ((s.bytesAt ps).drop (4 * i) |>.take 4)) else k.vlane m i) ∧
         { k' with v := k.v } = k ∧ Gives (.vld c b) s (rest (k'.advance s.now))) ∧
     (s.issues c b 0x28 0xFF00000000 → va % 256 ≠ 0 →
       Gives (.vld c b) s ((s.instrFault c 0xA k.pc (va % 2 ^ 32) (BitVec.ofNat 64 (wordOf 0x28 b))).upToTags c)) ∧
     (∀ f, s.issues c b 0x28 0xFF00000000 → va % 256 = 0 → k.biasHolds (fD w) = false → s.xlateRange k.ctx va 256 false = .error f →
       Gives (.vld c b) s ((s.accFault c f false false).upToTags c))) ∧
  (∀ (s : State) (c : Nat) (b : Body) (ps : List (Nat × Nat × Nat)),
     let k := s.core c
     let w := b.toNat
     let n := 2 ^ bitsOf w 44 2
     let pg := k.preg (vmPg w)
     let va := (k.sreg (fA w) + (BitVec.ofNat 32 w).signExtend 64).toNat
     let near := (∀ p ∈ ps, s.isRemote p.2.1 = false) ∧ s.lostFree ∧ s.holdsWord c (ps.map (fun p => (s.norm p.2.1, p.2.2))) = false
     let kept := fun (t : State) =>
       { (t.core c).untagged with lines := k.lines, fills := k.fills, remote := k.remote } = (k.advance s.now).untagged ∧
       (∀ d, d ≠ c → t.core d = s.core d) ∧ (∀ m, { t.ctx m with tlb := (s.ctx m).tlb } = s.ctx m) ∧
       s.onlyAccessed t ∧ t.free = s.free
     (s.issues c b 0x1B 0x7FF00000000 → s.xlateRange k.ctx va n true = .ok ps → near →
       Gives (.st c b) s (fun t =>
         (∀ x, Memory.byte t.dev x = Memory.byte (s.writeAt ps (natLE n (k.sreg (fD w)).toNat)).1 x ∧
           Memory.byte t.host x = Memory.byte (s.writeAt ps (natLE n (k.sreg (fD w)).toNat)).2 x) ∧ kept t)) ∧
     (∀ f, s.issues c b 0x1B 0x7FF00000000 → s.xlateRange k.ctx va n true = .error f →
       Gives (.st c b) s ((s.accFault c f true false).upToTags c)) ∧
     (∀ a pa, s.issues c b 0x29 0xFF00000000 → va % 256 = 0 → s.xlateRange k.ctx va 256 true = .ok ps → ps = [(va, pa, 256)] →
       s.space pa = .loc a → near →
       Gives (.vst c b) s (fun t => (∀ x, Memory.byte t.dev x = if a ≤ x ∧ x < a + 256 ∧ pg.getLsbD ((x - a) / 4) = true
           then BitVec.ofNat 8 ((k.vlane (fD w) ((x - a) / 4)).toNat / 2 ^ (8 * ((x - a) % 4))) else Memory.byte s.dev x) ∧
         (∀ x, Memory.byte t.host x = Memory.byte s.host x) ∧ kept t)) ∧
     (∀ a pa, s.issues c b 0x29 0xFF00000000 → va % 256 = 0 → s.xlateRange k.ctx va 256 true = .ok ps → ps = [(va, pa, 256)] →
       s.space pa = .host a → near →
       Gives (.vst c b) s (fun t => (∀ x, Memory.byte t.host x = if a ≤ x ∧ x < a + 256 ∧ pg.getLsbD ((x - a) / 4) = true
           then BitVec.ofNat 8 ((k.vlane (fD w) ((x - a) / 4)).toNat / 2 ^ (8 * ((x - a) % 4))) else Memory.byte s.host x) ∧
         (∀ x, Memory.byte t.dev x = Memory.byte s.dev x) ∧ kept t)) ∧
     (s.issues c b 0x29 0xFF00000000 → va % 256 ≠ 0 →
       Gives (.vst c b) s ((s.instrFault c 0xA k.pc (va % 2 ^ 32) (BitVec.ofNat 64 (wordOf 0x29 b))).upToTags c)) ∧
     (∀ f, s.issues c b 0x29 0xFF00000000 → va % 256 = 0 → s.xlateRange k.ctx va 256 true = .error f →
       Gives (.vst c b) s ((s.accFault c f true false).upToTags c)))


/-! ## Row moves, streams and the tile queue -/

/-- TROWR and TROWW. TROWR writes, in the lanes whose PG bit is 1, element 64 × QTR + i of the row in its format, or zero beyond the
row's capacity. TROWW, its bank awake, makes the register live and replaces the elements the enabled lanes name, each converted to
the format; every other element of a live register's row, every other row and every other register keep their values; with its bank
gated it only asks for the bank. Neither changes a byte of memory (R112, R113, R115, R197). -/
def Obligations.RowMovesConvertOneQuarterRow : Prop :=
  ∀ (s : State) (c : Nat) (b : Body),
    let k := s.core c
    let w := b.toNat
    let f := vwFormat w
    let pg := k.preg (vwPg w)
    let row := k.trow (vwT w) (vwRow w)
    vwFmt w < 12 → 64 * vwQtr w < rowCapacity (vwFmt w) →
    (s.issues c b 0x2D 0xFFFFFFFF → queueUses c (vwT w) k.dcfg k.queue = false → k.biasHolds (fD w) = false →
      ∃ k' : Core, (∀ m i, i < 64 → k'.vlane m i = if m = fD w ∧ pg.getLsbD i = true
          then (if 64 * vwQtr w + i < rowCapacity (vwFmt w) then rowToLane f row (64 * vwQtr w + i) else 0) else k.vlane m i) ∧
        { k' with v := k.v } = k ∧ Gives (.trowr c b) s (s.onlyCore c (k'.advance s.now))) ∧
    (s.issues c b 0x2E 0xFFFFFFFF → queueUses c (vwT w) k.dcfg k.queue = false → k.bank (vwT w / 4) = .awake →
      Gives (.troww c b) s (fun t =>
        (t.core c).isLive (vwT w) = true ∧ (∀ m, m ≠ vwT w → m < 16 → (t.core c).isLive m = k.isLive m) ∧
        (∀ i < 64, pg.getLsbD i = true → 64 * vwQtr w + i < rowCapacity (vwFmt w) →
          rowElem ((t.core c).trow (vwT w) (vwRow w)) f.bits (64 * vwQtr w + i) = laneToCode f (k.vlane (fD w) i) % 2 ^ f.bits) ∧
        (k.isLive (vwT w) = true → ∀ n < rowCapacity (vwFmt w),
          ¬(64 * vwQtr w ≤ n ∧ n < 64 * vwQtr w + 64 ∧ pg.getLsbD (n - 64 * vwQtr w) = true) →
          rowElem ((t.core c).trow (vwT w) (vwRow w)) f.bits n = rowElem row f.bits n) ∧
        (∀ m r, m < 16 → r < 64 → m ≠ vwT w → (t.core c).trow m r = k.trow m r) ∧
        (k.isLive (vwT w) = true → ∀ r < 64, r ≠ vwRow w → (t.core c).trow (vwT w) r = k.trow (vwT w) r) ∧
        { (t.core c).untagged with t := k.t, live := k.live, dirty := k.dirty } = (k.advance s.now).untagged ∧
        (∀ d, d ≠ c → t.core d = s.core d) ∧ { t with cores := s.cores, free := s.free } = s)) ∧
    (s.issues c b 0x2E 0xFFFFFFFF → queueUses c (vwT w) k.dcfg k.queue = false → k.bank (vwT w / 4) = .gated →
      Gives (.troww c b) s (fun t => (t.core c).bank (vwT w / 4) = .waking ∧ (t.core c).pc = k.pc ∧
        (∀ m r, (t.core c).trow m r = k.trow m r) ∧ { t with cores := s.cores } = s))

/-- The stream instructions. SDECL declares its stream from the 32-byte descriptor in the core store, from item 0 and with no pause;
SFENCE discards the run-ahead lines of its stream, or of every stream with ALL, and keeps the others; VLDS, with its line in local
memory, which no way of the cache regions stands in for, and not held, writes the enabled lanes with its item and takes it whatever PG holds. None changes a scalar register, a
predicate, a tile register or a byte of memory. A misaligned descriptor is STREAM_MISALIGNED, a reserved one is unpredictable, and a
use of a stream that is undeclared, of the other item size or at its end is SHAPE_FAULT (R89, R133, R134, R138, R209, R210). -/
def Obligations.StreamInstructionsDeclareFenceAndUse : Prop :=
  ∀ (s : State) (c : Nat) (b : Body),
    let k := s.core c
    let w := b.toNat
    let a := coreStoreBase + c * 2 ^ 20 + stOff w
    let item := if bitOf (Memory.readLE s.dev (a + 26) 1) 0 then 256 else 128
    let kept := fun (t : State) => (∀ m, (t.core c).sreg m = k.sreg m) ∧ (t.core c).p = k.p ∧ (t.core c).t = k.t ∧
      (t.core c).live = k.live ∧ s.sameBytes t ∧ s.onlyAccessed t
    let clean := ∀ i < 4, s.isPoisoned (a + 8 * i) = false
    let ready := s.issues c b 0x60 0xFFFFFFFF00000 ∧ stOff w % 32 = 0 ∧
      k.queue.any (fun e => e.op == 0x42 && tmStream e.word.toNat == stN w) = false ∧ k.holdsLocal (stOff w) 32 = false
    (ready → clean → Memory.readLE s.dev a 8 % item = 0 → Memory.readLE s.dev (a + 8) 8 % item = 0 →
      0 < Memory.readLE s.dev (a + 16) 4 → 0 < Memory.readLE s.dev (a + 20) 4 → Memory.readLE s.dev (a + 24) 1 ≤ 64 →
      Memory.readLE s.dev (a + 25) 1 ≤ 128 → Memory.readLE s.dev (a + 26) 6 < 2 →
      Gives (.sdecl c b) s (fun t =>
        (t.core c).stream (stN w) = {
          declared := true, base := BitVec.ofNat 64 (Memory.readLE s.dev a 8),
          stride := BitVec.ofNat 64 (Memory.readLE s.dev (a + 8) 8), runItems := Memory.readLE s.dev (a + 16) 4,
          runs := Memory.readLE s.dev (a + 20) 4, depth := Memory.readLE s.dev (a + 24) 1, stpDepth := Memory.readLE s.dev (a + 25) 1,
          item256 := bitOf (Memory.readLE s.dev (a + 26) 1) 0 } ∧
        (∀ m, m ≠ stN w → (t.core c).stream m = k.stream m) ∧ (∀ l ∈ (t.core c).lines, l.owner = 8 ∨ l.owner ≠ stN w) ∧
        (t.core c).pc = (k.pc + 8) % 2 ^ 20 ∧ kept t)) ∧
    (ready → (Memory.readLE s.dev a 8 % item ≠ 0 ∨ Memory.readLE s.dev (a + 8) 8 % item ≠ 0) → ∃ v,
      Gives (.sdecl c b) s ((s.instrFault c 0xA k.pc v (BitVec.ofNat 64 (wordOf 0x60 b))).upToTags c)) ∧
    (ready → clean → Memory.readLE s.dev a 8 % item = 0 → Memory.readLE s.dev (a + 8) 8 % item = 0 →
      (Memory.readLE s.dev (a + 16) 4 = 0 ∨ Memory.readLE s.dev (a + 20) 4 = 0 ∨ 64 < Memory.readLE s.dev (a + 24) 1 ∨
        128 < Memory.readLE s.dev (a + 25) 1 ∨ 2 ≤ Memory.readLE s.dev (a + 26) 6) → exec (.sdecl c b) s = .fault .reservedBits) ∧
    (s.issues c b 0x60 0xFFFFFFFF00000 → stOff w % 32 ≠ 0 →
      Gives (.sdecl c b) s ((s.instrFault c 0xA k.pc (stOff w) (BitVec.ofNat 64 (wordOf 0x60 b))).upToTags c)) ∧
    (s.issues c b 0x61 0xFFFFFFFF00000 → Gives (.sfence c b) s (fun t =>
        (∀ l, l ∈ (t.core c).lines ↔ l ∈ k.lines ∧ (l.owner = 8 ∨ if stAll w then 8 ≤ l.owner else l.owner ≠ stN w)) ∧
        (∀ m, { (t.core c).stream m with ahead := (k.stream m).ahead } = k.stream m) ∧
        (t.core c).pc = (k.pc + 8) % 2 ^ 20 ∧ kept t)) ∧
    (∀ pa x, s.issues c b 0x2C 0xFF00000000 → k.stream (vmStream w) = x → x.declared = true → x.item256 = true →
      x.issued + 1 ≤ x.total → k.biasHolds (fD w) = false →
      s.xlateRange k.ctx (x.item x.issued) 256 false = .ok [(x.item x.issued, pa, 256)] → s.space pa = .loc pa →
      s.holdsWord c [(pa, 256)] = false → k.heldLine? (some (vmStream w)) pa = none → pa % 256 = 0 →
      (∀ i < 64, (k.preg (vmPg w)).getLsbD i = true → s.isPoisoned (pa + 4 * i) = false) → s.lostFree →
      Gives (.vlds c b) s (fun t =>
        (∀ m i, i < 64 → (t.core c).vlane m i = if m = fD w ∧ (k.preg (vmPg w)).getLsbD i = true
          then BitVec.ofNat 32 (Memory.readLE s.dev (pa + 4 * i) 4) else k.vlane m i) ∧
        ((t.core c).stream (vmStream w)).issued = x.issued + 1 ∧ (t.core c).pc = (k.pc + 8) % 2 ^ 20 ∧ kept t)) ∧
    (s.issues c b 0x2C 0xFF00000000 → ((k.stream (vmStream w)).declared = false ∨ (k.stream (vmStream w)).item256 = false ∨
        (k.stream (vmStream w)).total ≤ (k.stream (vmStream w)).issued) →
      Gives (.vlds c b) s ((s.instrFault c 1 k.pc 0 (BitVec.ofNat 64 (wordOf 0x2C b))).upToTags c))

/-- The tile instructions enter the queue. With fewer than eight entries waiting, TLD, TST, TLDS, TREL, MMA, DRAIN and DCFG of a valid
shape put their word, their offset and the values of the scalar registers they name at the queue's end and issue goes on; TLDS takes
its items from its stream; with eight entries issue stalls and nothing changes; a bad shape ends the work with SHAPE_FAULT before any
destination changes (R105, R116, R199 to R207, R210). -/
def Obligations.TileInstructionsEnterTheQueue : Prop :=
  ∀ (s : State) (c : Nat) (b : Body),
    let k := s.core c
    let entered := fun (op first : Nat) (vals : List W64) (k1 : Core) =>
      s.onlyCore c { k1 with
        queue := k.queue ++ [{ word := BitVec.ofNat 64 (wordOf op b), pc := k.pc, vals, first }], pc := (k.pc + 8) % 0x100000 }
    let bad := fun (op : Nat) => (s.instrFault c 1 k.pc 0 (BitVec.ofNat 64 (wordOf op b))).upToTags c
    let w := b.toNat
    let x := k.stream (tmStream w)
    let takes := x.declared = true ∧ x.item256 = false ∧ x.issued + shRows w ≤ x.total
    (k.queue.length < 8 →
      (s.issues c b 0x40 0x3FFC0000F0 → tmemShapeBad false w = false →
        Gives (.tld c b) s (entered 0x40 0 [k.sreg (tmA w), k.sreg (tmB w)] k)) ∧
      (s.issues c b 0x41 0x3FFC0000F0 → tmemShapeBad false w = false →
        Gives (.tst c b) s (entered 0x41 0 [k.sreg (tmA w), k.sreg (tmB w)] k)) ∧
      (s.issues c b 0x42 0x3FFC000000 → tmemShapeBad true w = false → takes →
        Gives (.tlds c b) s (entered 0x42 x.issued [] (k.setStream (tmStream w) { x with issued := x.issued + shRows w }))) ∧
      (s.issues c b 0x42 0x3FFC000000 → tmemShapeBad true w = false → ¬takes → Gives (.tlds c b) s (bad 0x42)) ∧
      (s.issues c b 0x43 0x9FFFFFFFFF0000 → Gives (.trel c b) s (entered 0x43 0 [] k)) ∧
      (s.issues c b 0x50 0x1FFC000000 → mmaShapeBad w = false → s.stitchBad (shStitch w) c = false →
        Gives (.mma c b) s (entered 0x50 0 [] k)) ∧
      (s.issues c b 0x58 0 → drainShapeBad w = false →
        Gives (.drain c b) s (entered 0x58 0 [k.sreg (tdA w), k.sreg (tdM w), k.sreg (tdC w)] k)) ∧
      (s.issues c b 0x59 0xFFFFFFFFF → dcfgIllegal w = false → Gives (.dcfg c b) s (entered 0x59 0 [] k))) ∧
    (8 ≤ k.queue.length →
      (s.issues c b 0x40 0x3FFC0000F0 → tmemShapeBad false w = false → exec (.tld c b) s = .next s) ∧
      (s.issues c b 0x43 0x9FFFFFFFFF0000 → exec (.trel c b) s = .next s)) ∧
    (s.issues c b 0x40 0x3FFC0000F0 → tmemShapeBad false w = true → Gives (.tld c b) s (bad 0x40)) ∧
    (s.issues c b 0x41 0x3FFC0000F0 → tmemShapeBad false w = true → Gives (.tst c b) s (bad 0x41)) ∧
    (s.issues c b 0x42 0x3FFC000000 → tmemShapeBad true w = true → Gives (.tlds c b) s (bad 0x42)) ∧
    (s.issues c b 0x50 0x1FFC000000 → mmaShapeBad w = true ∨ s.stitchBad (shStitch w) c = true → Gives (.mma c b) s (bad 0x50)) ∧
    (s.issues c b 0x58 0 → drainShapeBad w = true → Gives (.drain c b) s (bad 0x58))

/-- The shapes D refuses, by the conditions of the rules: a row of more than 1,024 bits or of a broken byte, a reserved format, a
blocked layout without 64 rows or with rows not a multiple of 16 bytes, a stitch code on any instruction but MMA, TR outside a
blocked 64-column block, and for MMA formats of different classes, a block scale on a format without one or a block that the columns
do not fill (R116, R144, R146, R148, R199 to R203). -/
def Obligations.ShapeFaultsFollowTheRules : Prop :=
  ∀ w : Nat,
    let cols := bitsOf w 12 8 + 1
    let rows := bitsOf w 20 6 + 1
    let blocked := bitOf w 3 = true
    let unfit := fun (fmt : Nat) => 12 ≤ fmt ∨ 1024 < cols * fmtBits fmt ∨ cols * fmtBits fmt % 8 ≠ 0
    (tmemShapeBad false w = true ↔ unfit (bitsOf w 8 4) ∨ blocked ∧ rows ≠ 64 ∨ bitsOf w 0 3 ≠ 0 ∨
      blocked ∧ cols * fmtBits (bitsOf w 8 4) / 8 % 16 ≠ 0 ∨ bitOf w 41 = true ∧ ¬(blocked ∧ cols = 64)) ∧
    (tmemShapeBad true w = true ↔ unfit (bitsOf w 8 4) ∨ bitsOf w 0 3 ≠ 0 ∨ blocked ∨ bitOf w 41 = true ∨ 12 ≤ bitsOf w 4 4) ∧
    (mmaShapeBad w = true ↔ unfit (bitsOf w 8 4) ∨ unfit (bitsOf w 4 4) ∨ blocked ∨ bitsOf w 0 3 = 7 ∨
      arrayClass (bitsOf w 8 4) = 0 ∨ arrayClass (bitsOf w 8 4) ≠ arrayClass (bitsOf w 4 4) ∨
      (bitOf w 53 = true ∧ (¬(mxFormat (bitsOf w 8 4) = true ∨ bitsOf w 8 4 = 11) ∨ ¬(mxFormat (bitsOf w 4 4) = true ∨ bitsOf w 4 4 = 11) ∨
        cols % (if bitsOf w 8 4 = 11 then 16 else 32) ≠ 0)) ∨ (bitOf w 53 = false ∧ bitsOf w 8 4 = 11))

/-- The steps of the tile queue, the arrays and the drain path complete. TILE_QUEUE_DISPATCH, with no array instruction waiting behind a
rendezvous and no hazard, takes TREL and DCFG whole (TREL makes dead the registers of its mask and no others; DCFG sets the drain
configuration), starts an unstitched MMA, or lets it wait behind a rendezvous of its core, starts a drain under the drain configuration
then in force, starts a tile load with a part for each line of each row, and stores a TST's rows at their translated addresses and
nothing else. GROUP_START starts the group instruction of every member. MMA_COMPLETE, of an unstitched instruction or of a whole group
at its lead, takes the instruction from every member's queue, each cell of its rows holding the start sum and the products of the rows of A and
B that the members in its row and column feed, INT8 exactly modulo 2^32, and every other accumulator word unchanged. DRAIN_COMPLETE
takes the drain from the queue, counts it, writes each row of its tile register or of the core store, and keeps generators and
statistics of its rows. No core changes but the one named and a group's members (R105, R106, R112, R121, R123, R143, R158, R160, R163,
R165, R166, R203, R205, R208). -/
def Obligations.TileUnitsDoTheirWork : Prop :=
  ∀ (s : State) (c i : Nat) (e : QEntry),
    let k := s.core c
    let w := e.word.toNat
    let alone := fun (t : State) => ∀ d, d ≠ c → t.core d = s.core d
    let members := stitchMembers e.stitch c
    (k.queue.findIdx? (fun e => e.st == .queued) = some i → k.queue.getD i {} = e → k.hazardFree c i e = true →
      (∀ f ∈ k.queue, f.st ≠ .behind) →
      (e.op = 0x43 → k.firstOf 0 = some i → Gives (.tileQueueDispatch c) s (s.onlyCore c { k with
        live := k.live &&& ~~~ BitVec.ofNat 16 (bitsOf w 0 16), dirty := k.dirty ||| (k.live &&& BitVec.ofNat 16 (bitsOf w 0 16)),
        queue := k.queue.eraseIdx i, lastDone := s.now })) ∧
      (e.op = 0x59 → k.firstOf 2 = some i → Gives (.tileQueueDispatch c) s (s.onlyCore c { k with
        dcfg := tcCfg w, queue := k.queue.eraseIdx i, lastDone := s.now })) ∧
      (e.op = 0x50 → e.stitch = 0 → (∀ f ∈ k.queue.take i, f.st ≠ .arrived) → Gives (.tileQueueDispatch c) s (fun t =>
        ((t.core c).queue.getD i {}).st = .started ∧ (∀ j, j ≠ i → (t.core c).queue[j]? = k.queue[j]?) ∧
        { t.core c with queue := k.queue, bobbins := k.bobbins } = k ∧ alone t ∧ { t with cores := s.cores } = s)) ∧
      (e.op = 0x50 → (∃ f ∈ k.queue.take i, f.st = .arrived) → Gives (.tileQueueDispatch c) s (s.onlyCore c { k with
        queue := k.queue.set i { e with st := .behind } })) ∧
      (e.op = 0x58 → drainUnitBad k.dcfg w (e.vals.getD 1 0) = false → (tdDest w = true → (e.vals.getD 0 0).toNat % 16 = 0) →
        Gives (.tileQueueDispatch c) s (fun t => (t.core c).queue = k.queue.set i { e with st := .started, cfg := k.dcfg } ∧
          { t.core c with queue := k.queue, power := k.power, live := k.live, dirty := k.dirty, t := k.t } = k ∧ alone t ∧
          { t with cores := s.cores, free := s.free } = s)) ∧
      (∀ rows, e.op = 0x40 → tmemShapeBad false w = false → rowMisaligned e = none →
        s.xlateRows k.ctx (rowBytes w (shA w)) false 0 (k.rowAddrs e) = .ok rows →
        s.hostCheck k.ctx (rows.flatMap (fun x => x.2.2)) = none → (∀ x ∈ rows, ∀ p ∈ x.2.2, s.isRemote p.2.1 = false) →
        k.remote = [] → k.lines = [] → k.fills = [] → (∀ f ∈ k.queue, f.st = .started → f.isLoad = false) →
        Gives (.tileQueueDispatch c) s (fun t => (t.core c).queue = k.queue.set i { e with st := .started, parts := s.rowParts rows } ∧
          (t.core c).fills.map (·.pa) = partLines (s.rowParts rows) ∧
          (∀ f ∈ (t.core c).fills, f.owner = 8 ∧ f.ctx = k.ctx ∧ f.stale = false ∧ f.req = 0) ∧
          { t.core c with queue := k.queue, fills := k.fills, power := k.power } = k ∧ alone t ∧ s.sameBytes t ∧ s.onlyAccessed t)) ∧
      (∀ rows, e.op = 0x41 → k.firstOf 0 = some i → rowMisaligned e = none →
        s.xlateRows k.ctx (rowBytes w (shA w)) true 0 (k.rowAddrs e) = .ok rows →
        (∀ x ∈ rows, ∀ p ∈ x.2.2, s.isRemote p.2.1 = false) → k.remote = [] → s.lostFree →
        overlaps (rows.map (fun x => x.2.2.map (fun p => (s.norm p.2.1, p.2.2)))) = false →
        Gives (.tileQueueDispatch c) s (fun t =>
          (∀ x, Memory.byte t.dev x = Memory.byte (s.writeAt (rows.flatMap (fun r => r.2.2))
              (rows.flatMap (fun r => natLE (rowBytes w (shA w)) (movedRow w (k.trow (tmT w)) r.1)))).1 x ∧
            Memory.byte t.host x = Memory.byte (s.writeAt (rows.flatMap (fun r => r.2.2))
              (rows.flatMap (fun r => natLE (rowBytes w (shA w)) (movedRow w (k.trow (tmT w)) r.1)))).2 x) ∧
          (t.core c).queue = k.queue.eraseIdx i ∧
          { t.core c with queue := k.queue, lines := k.lines, fills := k.fills, lastDone := k.lastDone } = k ∧ alone t ∧
          s.onlyAccessed t))) ∧
    (k.queue.find? (fun e => e.st == .arrived) = some e → s.allArrived e.stitch c = true → s.groupAgrees e.stitch c = true →
      Gives (.groupStart c) s (fun t => { t with cores := s.cores } = s ∧ (∀ m, m ∉ members → t.core m = s.core m) ∧
        (∀ m ∈ members, ∀ j, (s.core m).arrivedAt e.stitch = some j →
          (t.core m).queue = (s.core m).queue.set j { (s.core m).queue.getD j {} with
            st := .started, chained := (s.core m).chainsAt j ((s.core m).queue.getD j {}).word.toNat } ∧
          { t.core m with queue := (s.core m).queue, bobbins := (s.core m).bobbins } = s.core m))) ∧
    (k.arrayHead = some (i, e) → stitchLead e.stitch c = c →
      (∀ m ∈ members, (s.core m).arrayHead.map (fun x => x.2.stitch) = some e.stitch) →
      skewOf w (tagStart k w) (s.feeders e.stitch c).1 (s.feeders e.stitch c).2 = none →
      Gives (.mmaComplete c) s (fun t => (∀ m, m ∉ members → t.core m = s.core m) ∧ { t with cores := s.cores } = s ∧
        ∀ m ∈ members, ∀ j f ja fa jb fb,
          let km := s.core m
          let v := f.word.toNat
          let va := fa.word.toNat
          let vb := fb.word.toNat
          let ka := s.core (c + 4 * (coreRow m - coreRow c))
          let kb := s.core (c + (coreCol m - coreCol c) % (stitchShape e.stitch).2)
          km.arrayHead = some (j, f) → ka.arrayHead = some (ja, fa) → kb.arrayHead = some (jb, fb) →
          (t.core m).queue = km.queue.eraseIdx j ∧
          (∀ x y, x < shRows va → y < 64 → (t.core m).accAt (taBank v) x y =
            cellSum v (if taClr v then 0 else km.accAt (taBank v) x y) (ka.trow (taA va) x) (kb.trow (taB vb) y)
              (ka.trow (taSa va) x) (kb.trow (taSb vb) y)) ∧
          (∀ x y, x < shRows va → y < 64 → shA v = 8 → shB v = 8 → taScl v = false → (t.core m).accAt (taBank v) x y =
            (if taClr v then 0 else km.accAt (taBank v) x y) + BitVec.ofInt 32 ((List.range (shCols v)).map (fun z =>
              (BitVec.ofNat 8 (rowElem (ka.trow (taA va) x) 8 z)).toInt * (BitVec.ofNat 8 (rowElem (kb.trow (taB vb) y) 8 z)).toInt)).sum) ∧
          (∀ b x y, b < 2 → x < 64 → y < 64 → b ≠ taBank v ∨ shRows va ≤ x → (t.core m).accAt b x y = km.accAt b x y) ∧
          { t.core m with acc := km.acc, tagCtr := km.tagCtr, queue := km.queue, lastDone := km.lastDone, bobbins := km.bobbins } = km)) ∧
    (k.firstOf 2 = some i → k.queue.getD i {} = e → e.op = 0x58 → e.st = .started → k.biasAwaited e.cfg = false →
      drainUnitBad e.cfg w (e.vals.getD 1 0) = false → (drainDests e.cfg w (e.vals.getD 1 0)).all k.bankReady = true →
      let n := rowBytes w (shA w)
      let step := if shBlocked w then n else 128
      let base := (e.vals.getD 0 0).toNat
      let at0 := coreStoreBase + c * 2 ^ 20 + base
      let out := drainRows k e.cfg w (e.vals.getD 1 0) (if tdC w = 0 then none else some (e.vals.getD 2 0)) (shRows w) 0 ⟨k.gens, k.stats⟩
      let done := fun (t : State) => (t.core c).queue = k.queue.eraseIdx i ∧ (t.core c).gens = out.2.gens ∧
        (t.core c).stats = { out.2.stats with drains := min (out.2.stats.drains + 1) (2 ^ 64 - 1) } ∧
        (t.core c).s = k.s ∧ (t.core c).v = k.v ∧ (t.core c).p = k.p ∧ (t.core c).acc = k.acc ∧ (t.core c).dcfg = k.dcfg ∧ alone t
      (tdDest w = false → 8 * n ≤ 1024 → Gives (.drainComplete c) s (fun t => done t ∧ (t.core c).isLive (tdT w) = true ∧
        (∀ r x, out.1[r]? = some x → bitsOf ((t.core c).trow (tdT w) r) 0 (8 * n) = x.main % 2 ^ (8 * n)) ∧
        { t with cores := s.cores, free := s.free } = s)) ∧
      (tdDest w = true → base % 16 = 0 → base + shRows w * 128 ≤ 2 ^ 20 → n ≤ 128 → Gives (.drainComplete c) s (fun t => done t ∧
        (∀ r x j, out.1[r]? = some x → j < n → Memory.byte t.dev (at0 + r * step + j) = BitVec.ofNat 8 (x.main / 2 ^ (8 * j))) ∧
        (∀ a, (∀ r j, r < shRows w → j < n → a ≠ at0 + r * step + j) → Memory.byte t.dev a = Memory.byte s.dev a) ∧
        (∀ a, Memory.byte t.host a = Memory.byte s.host a) ∧ s.onlyAccessed t)))

/-- Banks, lines and parity. A bank of tile registers is gated only when awake with no live register, and loses its rows; a wake that
completes makes it awake; a line of the local space that arrives is held with what memory holds and no byte of memory changes; run-ahead, which takes
its turn for a free line of the line cache, changes no register and no byte of memory, and with no line free the stream only waits its
turn; a third parity error ends the work with POISON_CONSUMED and an earlier one puts the entry back in the queue (R93, R113, R119,
R129, R136, R137). -/
def Obligations.BanksLinesAndParity : Prop :=
  ∀ (s : State) (c n : Nat),
    let k := s.core c
    let waiting := k.aheadWait.filter (fun m => (s.aheadWants c m).isSome)
    let ahead := fun (i : Nat) => (k.run = .running ∨ k.run = .asleep) ∧ k.halted = false ∧ k.stopping = false ∧ s.aheadWants c n = some i
    let turn := k.aheadRoom = true ∧ (waiting = [] ∨ waiting.head? = some n)
    let quiet := fun (t : State) => (t.core c).s = k.s ∧ (t.core c).p = k.p ∧ (t.core c).v = k.v ∧ (t.core c).t = k.t ∧
      (t.core c).queue = k.queue ∧ (t.core c).pc = k.pc ∧ ∀ d, d ≠ c → t.core d = s.core d
    (n < 4 → k.bank n = .awake → k.live &&& BitVec.ofNat 16 (0xF * 2 ^ (4 * n)) = 0 →
      Gives (.bankGate c n) s (fun t => (∀ m, (t.core c).bank m = if m = n then .gated else k.bank m) ∧
        (∀ r, r / 256 = n → Store.get 0 (t.core c).t r = 0) ∧ (∀ r, r / 256 ≠ n → Store.get 0 (t.core c).t r = Store.get 0 k.t r) ∧
        { t.core c with power := k.power, dirty := k.dirty, t := k.t } = k ∧ (∀ d, d ≠ c → t.core d = s.core d) ∧
        { t with cores := s.cores } = s)) ∧
    (n < 4 → ¬(k.bank n = .awake ∧ k.live &&& BitVec.ofNat 16 (0xF * 2 ^ (4 * n)) = 0) → exec (.bankGate c n) s = .next s) ∧
    (n < 4 → k.bank n = .waking → (∀ e ∈ k.queue, e.st = .started → e.op = 0x50) → Gives (.bankWakeDone c n) s (fun t =>
        (∀ m, (t.core c).bank m = if m = n then .awake else k.bank m) ∧ { t.core c with power := k.power } = k ∧
        (∀ d, d ≠ c → t.core d = s.core d) ∧ { t with cores := s.cores } = s)) ∧
    (∀ f a, k.fills[n]? = some f → s.space f.pa = .loc a → f.stale = false → s.lostFree →
      (∀ e ∈ k.queue, e.st = .started → ∀ p ∈ e.parts, p.pa - p.pa % 256 ≠ f.pa) →
      Gives (.lineFillArrival c n) s (fun t => (∃ l ∈ (t.core c).lines, l.pa = f.pa ∧ l.ctx = f.ctx ∧ l.owner = f.owner ∧
          ∀ j < 256, BitVec.ofNat 8 (l.data.toNat / 2 ^ (8 * j)) = Memory.byte s.dev (a + j)) ∧
        { t.core c with lines := k.lines, fills := k.fills } = k ∧ (t.core c).fills = k.fills.erase f ∧
        (∀ d, d ≠ c → t.core d = s.core d) ∧ s.sameBytes t ∧ s.onlyAccessed t)) ∧
    (∀ i f, ahead i → turn → s.translate k.ctx (lineAddr ((k.stream n).item i)) false = .fault f →
      Gives (.runaheadFetchIssue c n) s (fun t => (t.core c).dropped = k.dropped + 1 ∧ quiet t ∧
        ((t.core c).stream n).paused = lineAddr ((k.stream n).item i) / 2 ^ f.pageBits * 2 ^ f.pageBits + 1 ∧
        ((t.core c).stream n).pausedBits = f.pageBits ∧ { t with cores := s.cores } = s)) ∧
    (∀ i pa stp, ahead i → turn → s.translate k.ctx (lineAddr ((k.stream n).item i)) false = .ok pa false stp →
      s.isRemote pa = false → (∀ l ∈ k.lines ++ k.fills, ¬(l.ctx = k.ctx ∧ l.pa = s.norm pa ∧ l.owner = n)) →
      Gives (.runaheadFetchIssue c n) s (fun t =>
        (∃ f, (t.core c).fills = k.fills ++ [f] ∧ f.pa = s.norm pa ∧ f.owner = n ∧ f.ctx = k.ctx ∧ f.stp = stp) ∧
        ((t.core c).stream n).ahead = i + 1 ∧ quiet t ∧ s.sameBytes t ∧ s.onlyAccessed t)) ∧
    (∀ i, ahead i → ¬turn → Gives (.runaheadFetchIssue c n) s (fun t => n ∈ (t.core c).aheadWait ∧
        { t.core c with aheadWait := k.aheadWait } = k ∧ (∀ d, d ≠ c → t.core d = s.core d) ∧ { t with cores := s.cores } = s)) ∧
    (∀ e, k.queue[n]? = some e → e.st = .started → e.op = 0x50 ∨ e.op = 0x58 → e.stitch = 0 → e.retries < 2 →
      Gives (.parityError c n) s (fun t => ((t.core c).queue.getD n {}).st = .queued ∧ ((t.core c).queue.getD n {}).retries = e.retries + 1 ∧
        ((∀ f ∈ k.queue, f.stitch = 0) → ∀ j < n, (t.core c).queue[j]? = k.queue[j]?) ∧ (t.core c).acc = k.acc ∧ (t.core c).t = k.t ∧ s.sameBytes t)) ∧
    (∀ e, k.queue[n]? = some e → e.st = .started → e.op = 0x50 ∨ e.op = 0x58 → 2 ≤ e.retries →
      Gives (.parityError c n) s (fun t => t = s.accFault c { cause := 5 } false false)) ∧
    (k.queue[n]? = none → s.runs c = true → bitsOf (s.csRead c k.pc 8) 56 8 = 0x2D → s.isPoisoned (csAddr c k.pc) = false →
      queueUses c (vwT (s.csRead c k.pc 8)) k.dcfg k.queue = false →
      Gives (.parityError c n) s (fun t => if 2 ≤ k.rowRetries then t = s.accFault c { cause := 5 } false false
        else t = s.setCore c { k with rowRetries := k.rowRetries + 1 }))

/-! ## Sync instructions, fences and core control -/

/-- SIG on a local object. Its handle's generation being the object's, ADD adds to a semaphore or an event with saturation at
2^48 − 1, SET sets an event, and ARRIVE counts an arrival of a barrier's current round and, when it is the last, opens the next round;
sd gets 0, or the round for ARRIVE. A change sends one wake flit to each Block in the waiter summary, in Block order. No other object
and no byte of device memory changes, nor of host memory where the object has no host signal. A stale handle changes no object, is
counted, and gives sd status 1 (R212, R213, R446, R447, R452). -/
def Obligations.SignalsChangeOneObject : Prop :=
  ∀ (s : State) (c : Nat) (b : Body), s.issues c b 0x70 0x3FFFFFFFF →
    let k := s.core c
    let w := b.toNat
    let h := (k.sreg (fA w)).toNat
    let v := (k.sreg (fB w)).toNat % 2 ^ 48
    let i := bitsOf h 0 16
    let e := s.obj i
    let n := if v % 2 = 0 then e.even else e.odd
    h < 2 ^ 39 → s.hRemote h = false → k.hasMem = false → s.objPoisoned i = false →
    let became := fun (e1 : SyncEntry) (result : Nat) (t : State) =>
      { t.obj i with blocks := e1.blocks, engine := e1.engine, host := e1.host } = e1 ∧ (∀ j, j ≠ i → t.obj j = s.obj j) ∧
      (t.core c).sreg (fD w) = (if fD w = 0 then 0 else BitVec.ofNat 64 result) ∧ (∀ m, m ≠ fD w → (t.core c).sreg m = k.sreg m) ∧
      (t.core c).pc = (k.pc + 8) % 2 ^ 20 ∧ (∀ d, d ≠ c → t.core d = s.core d) ∧ t.dev = s.dev ∧ (e.hsig = false → t.host = s.host) ∧
      (e.differs e1 = true → e1.frozen = false → t.sync.flits = s.sync.flits ++
        ((List.range 36).filter (fun x => bitOf e.blocks x)).map (fun x => ⟨x, i, e1.word0⟩))
    (bitsOf h 16 8 = e.gen → e.abandoned = false →
      (bitsOf w 34 2 = 0 → e.kind = 0 ∨ e.kind = 2 →
        Gives (.sig c b) s (became { e with counter := min (e.counter + v) (2 ^ 48 - 1) } 0)) ∧
      (bitsOf w 34 2 = 1 → e.kind = 2 → Gives (.sig c b) s (became { e with counter := v } 0)) ∧
      (bitsOf w 34 2 = 2 → e.kind = 1 → v = e.counter → n + 1 < e.participants →
        Gives (.sig c b) s (became (if v % 2 = 0 then { e with even := n + 1 } else { e with odd := n + 1 }) v)) ∧
      (bitsOf w 34 2 = 2 → e.kind = 1 → v = e.counter → n + 1 = e.participants → (if v % 2 = 0 then e.odd else e.even) < e.participants →
        Gives (.sig c b) s (became (if v % 2 = 0 then { e with even := 0, counter := (v + 1) % 2 ^ 48 }
          else { e with odd := 0, counter := (v + 1) % 2 ^ 48 }) v)) ∧
      (bitsOf w 34 2 = 2 → e.kind = 1 → 1 < (v + 2 ^ 48 - e.counter) % 2 ^ 48 → ∃ u : State, u.sync.table = s.sync.table ∧
        Gives (.sig c b) s ((u.syncFault c 9 h (wordOf 0x70 b)).upToTags c))) ∧
    (bitsOf w 34 2 < 3 → (e.kind = 3 ∨ sigModeOk (bitsOf w 34 2) e.kind = true ∧ bitsOf h 16 8 ≠ e.gen) →
      Gives (.sig c b) s (fun t => t.sync.table = s.sync.table ∧ t.sync.stale = min (s.sync.stale + 1) (2 ^ 64 - 1) ∧
        (t.core c).sreg (fD w) = (if fD w = 0 then 0 else 2 ^ 62) ∧ (t.core c).pc = (k.pc + 8) % 2 ^ 20 ∧ s.sameBytes t)) ∧
    (bitsOf w 34 2 < 3 → e.kind ≠ 3 → sigModeOk (bitsOf w 34 2) e.kind = false →
      Gives (.sig c b) s ((s.objAccFault c 3 h).upToTags c))

/-- WAIT, SPOLL and the wakes. A WAIT whose condition holds returns with status 0 and the counter, TAKE subtracting its threshold, and
drops the core's demand lines; one whose condition does not hold puts the core to sleep with its Block in the object's waiter
summary; SPOLL writes the object's first 60 bits and nothing else. A wake flit whose snapshot meets the wait of the one core that waits
in its Block lets that core return, and a deadline that passes lets the core return with status 2 (R118, R214, R216, R451 to R454). -/
def Obligations.WaitsReturnOrSleep : Prop :=
  ∀ (s : State) (c : Nat) (b : Body),
    let k := s.core c
    let w := b.toNat
    let h := (k.sreg (fA w)).toNat
    let i := bitsOf h 0 16
    let e := s.obj i
    let thr := (k.sreg (fB w)).toNat % 2 ^ 48
    let lim := (k.sreg (fC w)).toNat
    let live := s.issues c b 0x71 0x3FFFFFFFF ∧ h < 2 ^ 39 ∧ s.hRemote h = false ∧ s.objPoisoned i = false ∧
      bitsOf h 16 8 = e.gen ∧ e.abandoned = false
    let back := fun (word : Nat) (t : State) =>
      (t.core c).sreg (fD w) = (if fD w = 0 then 0 else BitVec.ofNat 64 word) ∧ (∀ m, m ≠ fD w → (t.core c).sreg m = k.sreg m) ∧
      (t.core c).run = .running ∧ (t.core c).pc = (k.pc + 8) % 2 ^ 20 ∧ (∀ l ∈ (t.core c).lines, l.owner ≠ 8) ∧
      (∀ d, d ≠ c → t.core d = s.core d) ∧ t.dev = s.dev
    (live → syMode w = 0 → e.kind = 0 ∨ e.kind = 2 → thr ≤ e.counter → e.counter < 2 ^ 48 →
      Gives (.wait c b) s (fun t => back e.counter t ∧ t.sync = s.sync)) ∧
    (live → syMode w = 1 → e.kind = 0 → thr ≤ e.counter → e.counter < 2 ^ 48 → Gives (.wait c b) s (fun t => back e.counter t ∧
        (t.obj i).counter = e.counter - thr ∧ ∀ j, j ≠ i → t.obj j = s.obj j)) ∧
    (live → syMode w = 2 → e.kind = 1 → roundReleased e.counter thr = true → Gives (.wait c b) s (fun t => back 0 t ∧ t.sync = s.sync)) ∧
    (live → syMode w = 0 → e.kind = 0 ∨ e.kind = 2 → e.counter < thr → lim = 0 → Gives (.wait c b) s (fun t =>
        (t.core c).run = .asleep ∧ (t.core c).pc = k.pc ∧ (t.core c).s = k.s ∧
        (t.core c).wait = {
          valid := true, index := i, gen := e.gen, mode := 0, thr, timed := false, deadline := s.now, sd := fD w, handle := h
          word := BitVec.ofNat 64 (wordOf 0x71 b) } ∧
        bitOf (t.obj i).blocks (c / 16) = true ∧ { t.obj i with blocks := e.blocks } = e ∧ (∀ j, j ≠ i → t.obj j = s.obj j) ∧ s.sameBytes t)) ∧
    (s.issues c b 0x72 0x3FFFFFFFF → syMode w = 0 → h < 2 ^ 39 → s.hRemote h = false → s.objPoisoned i = false →
      Gives (.spoll c b) s (s.onlyCore c ((k.setS (fD w) (BitVec.ofNat 64 (e.word0 % 2 ^ 60))).advance s.now))) ∧
    (∀ f : WakeFlit, s.sync.flits.find? (fun x => x.block == c / 16) = some f → c < 576 → k.run = .asleep → k.wait.valid = true →
      k.wait.index = f.index → bitsOf f.snap 48 8 = k.wait.gen → bitsOf f.snap 56 2 ≠ 3 → bitOf f.snap 58 = false → k.wait.mode = 0 →
      k.wait.thr ≤ bitsOf f.snap 0 48 → (∀ d, d ≠ c → d / 16 = c / 16 → (s.core d).run ≠ .asleep) →
      Gives (.wakeFlitArrival (c / 16)) s (fun t => (t.core c).run = .running ∧
        (t.core c).sreg k.wait.sd = (if k.wait.sd = 0 then 0 else BitVec.ofNat 64 (bitsOf f.snap 0 48)) ∧
        (t.core c).pc = (k.pc + 8) % 2 ^ 20 ∧ t.sync.flits = s.sync.flits.erase f ∧ t.sync.table = s.sync.table ∧
        (∀ d, d ≠ c → t.core d = s.core d) ∧ s.sameBytes t)) ∧
    (k.run = .asleep → k.wait.timed = true → k.wait.deadline ≤ s.now → k.wait.mode = 0 → k.wait.handle < 2 ^ 39 →
      hIndex k.wait.handle = k.wait.index → hGen k.wait.handle = k.wait.gen → s.objPoisoned k.wait.index = false →
      (s.obj k.wait.index).kind = 0 ∨ (s.obj k.wait.index).kind = 2 → (s.obj k.wait.index).gen = k.wait.gen →
      (s.obj k.wait.index).abandoned = false → (s.obj k.wait.index).counter < k.wait.thr → k.wait.thr < 2 ^ 48 →
      Gives (.waitDeadline c) s (fun t => (t.core c).run = .running ∧ (t.core c).sreg k.wait.sd =
          (if k.wait.sd = 0 then 0 else BitVec.ofNat 64 (2 * 2 ^ 62 + (s.obj k.wait.index).counter)) ∧
        (t.core c).pc = (k.pc + 8) % 2 ^ 20 ∧ t.sync = s.sync ∧ (∀ d, d ≠ c → t.core d = s.core d) ∧ s.sameBytes t))

/-- MFENCE, END and the start of the next work. MFENCE, no tile access of memory outstanding (and with N no remote access), drops the
demand lines, lets what is in flight serve only who waits for it, and does nothing else. END of a core in no group ends its work, with every tile register dead, and where another work waits
the core starts it at its pc with its arguments in s1 onward and every other register zero; no byte of memory and no other core
changes (R100, R113, R118, R205, R217, R218, R489). -/
def Obligations.FencesAndTheEndOfWork : Prop :=
  ∀ (s : State) (c : Nat) (b : Body),
    let k := s.core c
    (s.issues c b 0x78 0x9FFFFFFFFF0000 → k.hasMem = false → (bitOf b.toNat 53 = false ∨ k.remote = []) →
      Gives (.mfence c b) s (fun t => (t.core c).lines = k.lines.filter (fun l => l.owner != 8) ∧
        (∀ l ∈ (t.core c).fills, l.owner = 8 → l.stale = true) ∧ (t.core c).fills.map (fun l => (l.ctx, l.pa, l.owner)) = k.fills.map (fun l => (l.ctx, l.pa, l.owner)) ∧
        (t.core c).queue.map (fun e => (e.word, e.st, e.vals)) = k.queue.map (fun e => (e.word, e.st, e.vals)) ∧
        (t.core c).remote.map (fun r => (r.xids, r.kind)) = k.remote.map (fun r => (r.xids, r.kind)) ∧
        { (t.core c).untagged with lines := k.lines, fills := k.fills, queue := k.queue, remote := k.remote } = (k.advance s.now).untagged ∧
        (∀ d, d ≠ c → t.core d = s.core d) ∧ { t with cores := s.cores } = s)) ∧
    (s.issues c b 0x02 0x9FFFFFFFFF0000 → k.queue = [] → k.remote = [] → s.groupsOf c = [] →
      Gives (.endWork c b) s (fun t => (∀ d, d ≠ c → t.core d = s.core d) ∧ { t with cores := s.cores, ctxs := s.ctxs } = s ∧
        (k.works = [] → (t.core c).run = .idle ∧ (t.core c).live = 0 ∧ (t.core c).queue = []) ∧
        (∀ w ws, k.works = w :: ws → s.ctxPreempt w.ctx = false → (t.core c).run = .running ∧ (t.core c).ctx = w.ctx ∧
          (t.core c).tag = w.tag ∧ (t.core c).pc = w.pc % 2 ^ 20 ∧ (t.core c).works = ws ∧ (t.core c).live = 0 ∧
          (∀ j, (t.core c).sreg j = if 1 ≤ j ∧ j ≤ w.args.length then w.args.getD (j - 1) 0 else 0) ∧
          (∀ j x, (t.core c).vlane j x = 0) ∧ (t.core c).dcfg = {} ∧ (t.core c).stats = {})))

/-- Stopping, resuming and watching a core. A core in no group that takes its stop with no access outstanding stops: its queue but for the
releases and drain configurations in front of it, which complete, becomes replay entries, its tile registers are saved, and the resume record with its pc stands in its core store at 0xFF000, no other byte of
device memory changing. A stopped core runs again, with every stopped member of the groups it replays once all may resume, with its tile registers back and the
replayed words in its queue.
A core that completed nothing for LIMIT_MS ms takes the watchdog's fault (R124 to R128, R221, R536). -/
def Obligations.CoresStopResumeAndAreWatched : Prop :=
  ∀ (s : State) (c : Nat), c < 576 →
    let k := s.core c
    let a := coreStoreBase + c * 2 ^ 20 + 0xFF000
    let front := k.queue.takeWhile (fun e => e.op == 0x43 || e.op == 0x59)
    let left := k.queue.dropWhile (fun e => e.op == 0x43 || e.op == 0x59)
    let live := front.foldl (fun m e => if e.op = 0x43 then m &&& ~~~ BitVec.ofNat 16 (bitsOf e.word.toNat 0 16) else m) k.live
    (k.run = .running → k.stop = true → k.stopping = false → k.killed = false → k.remote = [] → s.groupsOf c = [] →
      k.replay = [] → Gives (.coreStop c) s (fun t => (t.core c).run = .stopped ∧ (t.core c).replay.map (·.word) = left.map (·.word) ∧
        (t.core c).replay.map (·.pc) = left.map (·.pc) ∧ (t.core c).replay.map (·.vals) = left.map (·.vals) ∧
        (t.core c).savedT = k.t ∧ (t.core c).savedLive = live ∧ (t.core c).live = 0 ∧
        (t.core c).s = k.s ∧ (t.core c).v = k.v ∧ (t.core c).p = k.p ∧ (t.core c).acc = k.acc ∧ (t.core c).pc = k.pc ∧
        Memory.readLE t.dev a 4 = k.pc % 2 ^ 20 ∧ (∀ x, ¬(a ≤ x ∧ x < a + 0x300) → Memory.byte t.dev x = Memory.byte s.dev x))) ∧
    ((s.replayClosure 16 [c]).all s.mayResume = true → Gives (.coreResume c) s (fun t => t.dev = s.dev ∧
        ∀ m ∈ s.replayClosure 16 [c], let j := s.core m; (t.core m).run = .running ∧ (t.core m).t = j.savedT ∧
          (t.core m).live = j.savedLive ∧ (t.core m).queue.map (·.word) = j.replay.map (·.word) ∧ (t.core m).replay = [] ∧
          (t.core m).s = j.s ∧ (t.core m).v = j.v ∧ (t.core m).p = j.p ∧ (t.core m).acc = j.acc ∧ (t.core m).pc = j.pc)) ∧
    ((s.replayClosure 16 [c]).all s.mayResume = false → Gives (.coreResume c) s (fun t => t = s)) ∧
    (k.run = .running → k.stopping = false → s.fld (0x880 + 4 * k.ctx) 0 16 ≠ 0 →
      k.lastDone + s.fld (0x880 + 4 * k.ctx) 0 16 * 1000000 ≤ s.now → s.groupsOf c = [] → k.works = [] →
      Gives (.coreWatchdog c) s (fun t => t = (s.instrFault c 0xB k.pc 0 0).progress ∧ (t.core c).run = .idle)) ∧
    (k.run = .running → k.stopping = false → s.fld (0x880 + 4 * k.ctx) 0 16 = 0 → exec (.coreWatchdog c) s = .next s)

/-- Debug control. HALT of a core that works marks it halted, asks it to stop and makes DBG_CTRL busy until it has stopped; RESUME of a
halted core clears the mark; BLOCK_RESET asks every working core of its Block to stop and stays busy until they have, and with none
working clears the Block's lines and gates its banks. None changes a byte of memory (R131, R132). -/
def Obligations.DebugControlHaltsAndResets : Prop :=
  ∀ (s : State) (c : Nat), s.ready = true → s.flag 0x390 19 = false →
    (s.coreGood c = true → s.active c = true → Gives (.dbgHalt c) s (fun t =>
        (t.core c).halted = true ∧ (t.core c).stop = true ∧ t.flag 0x390 19 = true ∧ t.fld 0x390 0 10 = c ∧ t.dev = s.dev)) ∧
    (s.coreGood c = true → (s.core c).halted = true → Gives (.dbgResume c) s (fun t =>
        (t.core c).halted = false ∧ (t.core c).stop = false ∧ t.fld 0x390 0 10 = c ∧ t.dev = s.dev)) ∧
    (c < 36 → (∃ m, m / 16 = c ∧ s.active m = true) → Gives (.blockReset c) s (fun t =>
        (∀ m, m / 16 = c → s.active m = true → (t.core m).stop = true) ∧ t.flag 0x390 19 = true ∧ t.fld 0x390 12 6 = c ∧ t.dev = s.dev)) ∧
    (c < 36 → (∀ m, m / 16 = c → s.active m = false ∧ (s.core m).works = []) → Gives (.blockReset c) s (fun t =>
        (∀ m, m / 16 = c → (t.core m).lines = [] ∧ ∀ b, (t.core m).bank b = .gated) ∧ t.fld 0x390 12 6 = c ∧ t.dev = s.dev))

/-! ## Town Hall, compute and copies -/

/-- DOORBELL_POLL. A due poll of a running context takes the host words of the page as they stand. With no new descriptor and no new
abort request, and no job record to read, nothing else changes; with one new descriptor the command joins those read under the count CMD_HEAD, and CMD_HEAD is
written back; an abort request for a command read and not dispatched settles it ABORTED; the job record of a new PRESS or INGEST, in local memory, is read and checked at once (R288, R314, R480, R481,
R483, R485, R498, R499). -/
def Obligations.PollsReadWordsDescriptorsAndAborts : Prop :=
  ∀ (s : State) (n page : Nat), n < 8 → s.ready = true → s.ctxEnabled n = true → s.ctxState n ≠ 3 → s.pollDue n = true →
    let x := s.ctx n
    (s.markPolled n).hallRead n (s.doorbell n) 0x90 = .ok page →
    x.wordsBad (s.cmdLog n) (pageWord page 0) (pageWord page 1) (pageWord page 2) (pageWord page 3) = false →
    (∀ d ∈ x.cmds, d.op = 5 ∨ d.op = 7 → d.phase = .read → d.jrec.isSome = true) →
    let y := { x with
      polledAt := s.now + 1, cmdTail := pageWord page 0, cplHead := pageWord page 1, evtHead := pageWord page 2, abtTail := pageWord page 3
      changedAt := if x.cmdTail = pageWord page 0 ∧ x.cplHead = pageWord page 1 ∧ x.evtHead = pageWord page 2 ∧ x.abtTail = pageWord page 3
        then x.changedAt else s.now + 1 }
    (pageWord page 0 = x.cmdHead → pageWord page 3 = x.abtHead → Gives (.doorbellPoll n) s (fun t =>
        t.ctx n = y ∧ (∀ m, m ≠ n → t.ctx m = s.ctx m) ∧ { t with ctxs := s.ctxs } = s)) ∧
    (∀ v, let c : Cmd := { tag := x.cmdHead, desc := descWords v }
      pageWord page 0 = (x.cmdHead + 1) % 2 ^ 32 → pageWord page 3 = x.abtHead → x.cmdHead < 2 ^ 32 → x.cmds.length < 1024 →
      s.hostRangeFails (s.headSlot n) 64 = false → poisonIn s.hostEp (s.headSlot n) 64 = none → s.hostRead (s.headSlot n) 64 = v →
      bitsOf v 32 32 = x.cmdHead → c.reservedSet = false → c.op ≠ 6 → c.op ≠ 0xC → c.contributes = false →
      x.marked.contains c.tag = false →
      (∀ a, c.op = 7 → c.illegal = false → (∀ d ∈ x.cmds, d.tag ≠ c.tag) → s.localAt n (c.body 0) 256 a false →
        let r := Memory.readLE s.dev a 256
        ijReserved r = false →
        (ijCheck r (c.body 0) = 0 → Gives (.doorbellPoll n) s (fun t => t.cmd? n c.tag = some { c with jrec := some r } ∧
          s.hostBut (s.doorbell n + 0x800) 4 t ∧ t.cores = s.cores)) ∧
        (ijCheck r (c.body 0) ≠ 0 → Gives (.doorbellPoll n) s (fun t => t.settledAs n c.tag 4 (ijCheck r (c.body 0)) ∧
          s.hostBut (s.doorbell n + 0x800) 4 t ∧ t.cores = s.cores))) ∧
      (c.op ≠ 5 → c.op ≠ 7 → Gives (.doorbellPoll n) s (fun t =>
        t.ctx n = { y with cmdHead := (x.cmdHead + 1) % 2 ^ 32, cmds := x.cmds ++ [c], marked := (t.ctx n).marked } ∧
        (∀ m, m ≠ n → t.ctx m = s.ctx m) ∧ Memory.readLE t.host (s.doorbell n + 0x800) 4 = (x.cmdHead + 1) % 2 ^ 32 ∧
        s.hostBut (s.doorbell n + 0x800) 4 t ∧ { t with ctxs := s.ctxs, host := s.host, hostEp := s.hostEp } = s))) ∧
    (∀ c : Cmd, pageWord page 0 = x.cmdHead → pageWord page 3 = (x.abtHead + 1) % 2 ^ 32 → x.abtHead < 2 ^ 32 →
      bitsOf page (8 * (0x10 + 8 * (x.abtHead % 16))) 32 = c.tag → s.holds n c c.op .read → c.op ≠ 6 → c.op ≠ 0xC → c.gateAbort = false →
      c.pre = .none → (∀ y ∈ s.fab.xfers, ¬(y.ctx = n ∧ y.tag = c.tag)) → 0 < wrapSub x.cmdHead c.tag → wrapSub x.cmdHead c.tag ≤ 2 ^ 24 →
      Gives (.doorbellPoll n) s (fun t => t.settledAs n c.tag 1 0 ∧ (t.ctx n).abtHead = (x.abtHead + 1) % 2 ^ 32 ∧
        Memory.readLE t.host (s.doorbell n + 0x80C) 4 = (x.abtHead + 1) % 2 ^ 32 ∧ s.hostBut (s.doorbell n + 0x80C) 4 t ∧
        (∀ m, m ≠ n → t.ctx m = s.ctx m) ∧ { t with ctxs := s.ctxs, host := s.host, hostEp := s.hostEp } = s))

/-- COMMAND_DISPATCH. In the turn of its context, the first command read and not dispatched is dispatched when its FENCE finds every earlier one complete and its
PREWAIT object meets its threshold; with FENCE set and an earlier command left nothing happens, nor out of turn, nor while the job record of a PRESS or INGEST has not been read; an undefined OP, or a PREWAIT on an
object of the wrong kind, settles it FAULT (R487, R491, R492). -/
def Obligations.CommandsAreDispatchedInRingOrder : Prop :=
  ∀ (s : State) (n : Nat) (c : Cmd) (first : Bool),
    let x := s.ctx n
    let e := s.obj (hIndex c.prewait)
    let others := fun (t : State) => (∀ m, m ≠ n → t.ctx m = s.ctx m) ∧ { t with ctxs := s.ctxs } = s
    (s.hasTurn n = false → exec (.commandDispatch n) s = .next s) ∧
    (s.ready = true → s.ctxState n = 1 → s.ctxPreempt n = false → s.hasTurn n = true → x.nextCmd = some (c, first) → s.holds n c c.op .read →
    ((c.fence = true ∨ c.op = 3) → first = false → exec (.commandDispatch n) s = .next s) ∧
    ((c.fence = true ∨ c.op = 3 → first = true) →
      (c.illegal = true → c.op ≠ 6 → Gives (.commandDispatch n) s (fun t => t.settledAs n c.tag 4 7 ∧ others t)) ∧
      (c.illegal = false → c.op = 5 ∨ c.op = 7 → c.jrec = none → exec (.commandDispatch n) s = .next s) ∧
      (c.illegal = false → (c.op = 5 ∨ c.op = 7 → c.jrec.isSome = true) → c.pwMode = 0 → s.gateHolds n c = false → Gives (.commandDispatch n) s (fun t =>
        t.cmd? n c.tag = some { c with phase := .dispatched } ∧ others t)) ∧
      (c.illegal = false → (c.op = 5 ∨ c.op = 7 → c.jrec.isSome = true) → c.pwMode = 1 → c.pre = .none → s.hRemote c.prewait = false → s.objPoisoned (hIndex c.prewait) = false →
        (e.kind = 0 ∨ e.kind = 2 → hGen c.prewait = e.gen → e.abandoned = false → c.contributes = false →
          (c.pwThr ≤ e.counter → Gives (.commandDispatch n) s (fun t =>
            t.cmd? n c.tag = some { c with phase := .dispatched, pre := .met } ∧ others t)) ∧
          (e.counter < c.pwThr → Gives (.commandDispatch n) s (fun t => t.cmd? n c.tag = some { c with pre := .waiting } ∧
            (t.obj (hIndex c.prewait)).engine = true ∧ (∀ i, i ≠ hIndex c.prewait → t.obj i = s.obj i) ∧ s.sameBytes t))) ∧
        (e.kind = 1 → c.op ≠ 6 → Gives (.commandDispatch n) s (fun t => t.settledAs n c.tag 4 3 ∧ others t)))))

/-- COMMAND_COMPLETE, COMPLETION_RECORD_WRITE and PROGRESS_WRITE. A settled command signals SIGNAL, adding 1 to a semaphore or an
event, hands over its record and leaves the context; a command an abort stopped hands over its abort record after its own; the oldest
record held is written at CPL_TAIL with its PHASE once the ring has room, and CPL_TAIL counts it, with CPL_VECTOR for IRQ; a progress
write fills the 16 bytes of the command's slot (R302, R483, R492, R493, R496, R500). -/
def Obligations.CommandsCompleteWithTheirRecords : Prop :=
  ∀ (s : State) (n : Nat), s.ctxRuns n →
    let x := s.ctx n
    (∀ c : Cmd, s.holds n c c.op .settled → c.job = .none → c.contributes = false →
      let h := c.signal
      let e := s.obj (hIndex h)
      let recs := c.record :: (if c.abortRec then [{ tag := c.tag, status := if c.status = 1 then 1 else 2, kind := 1 }] else [])
      (h = 0 → Gives (.commandComplete n c.tag) s (fun t =>
        t.ctx n = { x with cmds := x.cmds.filter (fun d => d.tag != c.tag), held := x.held ++ recs } ∧
        (∀ m, m ≠ n → t.ctx m = s.ctx m) ∧ { t with ctxs := s.ctxs } = s)) ∧
      (h ≠ 0 → c.status ≠ 8 → s.hRemote h = false → s.objPoisoned (hIndex h) = false → e.kind = 0 ∨ e.kind = 2 → hGen h = e.gen →
        e.abandoned = false → Gives (.commandComplete n c.tag) s (fun t =>
          (t.obj (hIndex h)).counter = min (e.counter + 1) (2 ^ 48 - 1) ∧ (∀ i, i ≠ hIndex h → t.obj i = s.obj i) ∧
          (t.ctx n).held = x.held ++ recs ∧ t.cmd? n c.tag = none ∧ t.cores = s.cores ∧ t.dev = s.dev))) ∧
    (∀ r rest, x.held = r :: rest → s.cplRoom n = true → Gives (.completionRecordWrite n) s (fun t =>
        let tail := (x.cplTail + 1) % 2 ^ 32
        t.host = Memory.setBytes (Memory.setBytes s.host (s.cplBase n + 32 * (x.cplTail % 2 ^ s.cplLog n))
          (r.toBytes (1 - x.cplTail / 2 ^ s.cplLog n % 2) (s.now % 2 ^ 32))) (s.doorbell n + 0x804) (natLE 4 tail) ∧
        t.ctx n = { x with held := rest, cplTail := tail } ∧ (∀ m, m ≠ n → t.ctx m = s.ctx m) ∧
        t.msixSent = s.msixSent ++ (if r.irq = true ∧ r.kind = 0 ∧ s.msixEnable = true ∧ s.msixMasked (s.fld (ctxCtrl n) 8 11) = false
          then [{ vector := s.fld (ctxCtrl n) 8 11
                  addr := (Store.get 0 s.msixTable (4 * s.fld (ctxCtrl n) 8 11)).toNat +
                    2 ^ 32 * (Store.get 0 s.msixTable (4 * s.fld (ctxCtrl n) 8 11 + 1)).toNat
                  data := (Store.get 0 s.msixTable (4 * s.fld (ctxCtrl n) 8 11 + 2)).toNat }] else []) ∧
        { t with host := s.host, hostEp := s.hostEp, ctxs := s.ctxs, msixSent := s.msixSent, msixPending := s.msixPending } = s)) ∧
    (∀ (c : Cmd) (done total pos : Nat), s.holds n c c.op .running → c.progress = some (done, total, pos) →
      done < 2 ^ 32 → total < 2 ^ 32 → pos < 2 ^ 64 → Gives (.progressWrite n c.tag) s (fun t =>
        Memory.readLE t.host (s.slotOf n c.tag) 4 = done ∧ Memory.readLE t.host (s.slotOf n c.tag + 4) 4 = total ∧
        Memory.readLE t.host (s.slotOf n c.tag + 8) 8 = pos ∧ s.hostBut (s.slotOf n c.tag) 16 t ∧
        t.cmd? n c.tag = some { c with progressAt := s.now } ∧ { t with host := s.host, hostEp := s.hostEp, ctxs := s.ctxs } = s))

/-- PCIE_COMPLETION_TIMEOUT. A failed read of a ring structure is recorded, at most once a millisecond for its context, and counted
between; a failed read of a copy's unit ends the copy FAULT with cause UNMAPPED; neither changes a core, an object or a byte of device
memory (R503, R534, R535). -/
def Obligations.FailedHostReadsAreRecorded : Prop :=
  ∀ (s : State) (n bus : Nat), n < 8 → s.ready = true →
    let h := Store.get {} s.err.hostReads n
    let size := 2 ^ s.fld 0x868 0 4
    let kept := fun (t : State) => t.cores = s.cores ∧ t.sync = s.sync ∧ t.dev = s.dev ∧ t.poison = s.poison
    (h.lastRecord = 0 ∨ h.lastRecord - 1 + 1000000 ≤ s.now → s.flag 0x860 0 = true → wrapSub (s.reg 0x870) (s.reg 0x86C) < size →
      Gives (.pcieCompletionTimeout (.ring n bus)) s (fun t =>
        t.host = Memory.setBytes s.host (bitsOf (s.reg64 0x860) 12 42 * 4096 + 32 * (s.reg 0x870 % size))
          (errRecordBytes 0x93 0x0C 0 (h.unreported + 1) bus n 0 s.now) ∧
        t.reg 0x870 = (s.reg 0x870 + 1) % 2 ^ 32 ∧ (∀ a, a ≠ 0x870 → t.reg a = s.reg a) ∧
        Store.get {} t.err.hostReads n = { unreported := 0, addr := bus, lastRecord := s.now + 1 } ∧ t.ctxs = s.ctxs ∧ kept t)) ∧
    (h.lastRecord ≠ 0 → s.now < h.lastRecord - 1 + 1000000 → Gives (.pcieCompletionTimeout (.ring n bus)) s (fun t =>
        Store.get {} t.err.hostReads n = { h with unreported := h.unreported + 1, addr := bus } ∧
        (∀ m, m ≠ n → Store.get {} t.err.hostReads m = Store.get {} s.err.hostReads m) ∧
        { t with err := s.err } = s)) ∧
    (∀ (c : Cmd) (j : DmaJob) (u : Nat), s.holds n c 2 .running → c.job = .dma j → j.flying = [u] → j.fcause = 0 → j.timeout = false →
      s.hostBus n (c.body 0 + 65536 * u) = some bus →
      Gives (.pcieCompletionTimeout (.dma n c.tag u)) s (fun t => t.settledAs n c.tag 4 2 ∧ kept t))

/-- COMPUTE and FILL_TIMEOUT. A compute command starts its launch record's program on the cores of its mask, each at PC with S1 to S7 in
s1 to s7 and every other scalar register, predicate, vector and drain field zero; no other core changes. An empty mask, or one that
names an absent or disabled core, ends it FAULT with SHAPE_FAULT and starts none. A fill request is held; after TIMEOUT_US its batch
runs once, with its table of one entry a request at BATCH, BATCH in s6 and the number of requests in s7 (R100, R174, R177, R489, R490). Device
memory is said of states in which no way of the cache regions stands in for a lost word. -/
def Obligations.ComputeStartsTheNamedCores : Prop :=
  ∀ (s : State) (n : Nat) (c : Cmd), s.ready = true → s.ctxPreempt n = false → s.ctxState n ≠ 3 → s.lostFree →
    let fit := fun (r : Nat) => s.maskBad (lrCores r) = false ∧
      ∀ d, bitOf (lrCores r) d = true → (s.core d).run = .idle ∧ (s.core d).works = []
    let started := fun (r : Nat) (args : List W64) (t : State) =>
      (∀ d, bitOf (lrCores r) d = true → (t.core d).run = .running ∧ (t.core d).ctx = n ∧ (t.core d).tag = c.tag ∧
        (t.core d).pc = recField r 0 4 % 2 ^ 20 ∧ (∀ i, 1 ≤ i → i ≤ 7 → (t.core d).sreg i = args.getD (i - 1) 0) ∧
        (∀ i, 7 < i → (t.core d).sreg i = 0) ∧ (t.core d).p = [] ∧ (t.core d).v = [] ∧ (t.core d).live = 0 ∧ (t.core d).dcfg = {}) ∧
      (∀ d, bitOf (lrCores r) d = false → t.core d = s.core d)
    (∀ a, s.holds n c 1 .dispatched → c.body 0 % 256 = 0 → c.body 1 / 2 ^ 23 = 0 →
      s.localAt n (c.body 0) 256 a false →
      lrReserved (Memory.readLE s.dev a 256) = false →
      let r := Memory.readLE s.dev a 256
      let rows := bitsOf (c.body 1) 16 7
      (rows = 0 → fit r → Gives (.compute n c.tag) s (fun t => started r (lrArgs r) t ∧
        (∃ d, t.cmd? n c.tag = some d ∧ d.phase = .running ∧ d.job = .compute { named := lrCores r, slot := recField r 8 8 }) ∧
        t.dev = s.dev ∧ s.hostBut (s.slotOf n c.tag) 16 t)) ∧
      (rows = 0 → s.maskBad (lrCores r) = true → Gives (.compute n c.tag) s (fun t =>
        t.settledAs n c.tag 4 1 ∧ t.cores = s.cores ∧ s.sameBytes t)) ∧
      (0 < rows → rows < 64 → lrBatch r % 256 = 0 → 0 < s.fillUs n → s.fillUs n ≤ 10000 → s.heldFills n (bitsOf (c.body 1) 0 16) = [] →
        Gives (.compute n c.tag) s (fun t => t.cores = s.cores ∧ s.sameBytes t ∧
          t.cmd? n c.tag = some { c with
            phase := .running, job := .fill { since := s.now, key := bitsOf (c.body 1) 0 16, rows, lrec := r } }))) ∧
    (∀ key a j, s.heldFills n key = [c] → s.holds n c 1 .running → c.job = .fill j → j.since + 1000 * s.fillUs n ≤ s.now →
      j.rows ≤ 64 → c.tag < 2 ^ 32 → fit j.lrec → s.localAt n (lrBatch j.lrec) 16 a true →
      Gives (.fillTimeout n key) s (fun t =>
        started j.lrec ((lrArgs j.lrec).take 5 ++ [BitVec.ofNat 64 (lrBatch j.lrec), 1]) t ∧
        Memory.readLE t.dev a 8 = recField j.lrec 0x10 8 ∧ Memory.readLE t.dev (a + 8) 8 = c.tag + j.rows * 2 ^ 40 ∧
        (∀ x, ¬(a ≤ x ∧ x < a + 16) → Memory.byte t.dev x = Memory.byte s.dev x) ∧ s.hostBut (s.slotOf n c.tag) 16 t ∧
        ∃ d, t.cmd? n c.tag = some d ∧ d.phase = .running ∧ d.job = .compute { named := lrCores j.lrec, slot := recField j.lrec 8 8 }))

/-- DMA and DMA_UNIT_COMPLETE. A copy of units of 64 KiB issues its first sixteen in ascending order, or settles OK when it is empty; a
unit that completes has copied its bytes, every other byte as it was but those of the command's progress slot, counts one done and
issues the next; the last one settles the command OK. A unit whose source or destination does not translate ends the copy FAULT with
that cause once no unit is in flight (R66, R73, R496, R497). The bytes are said of states in which no way of the cache regions stands in
for a lost word. -/
def Obligations.CopiesMoveWholeUnits : Prop :=
  ∀ (s : State) (n : Nat) (c : Cmd),
    let len := c.body 2
    let slot := s.slotOf n c.tag
    (s.holds n c 2 .dispatched → len < 2 ^ 40 → ¬(c.body 0 < c.body 1 + len ∧ c.body 1 < c.body 0 + len) →
      (0 < len → Gives (.dma n c.tag) s (fun t => t.cores = s.cores ∧ t.dev = s.dev ∧ s.hostBut slot 16 t ∧
        ∃ d, t.cmd? n c.tag = some d ∧ d.phase = .running ∧ d.job = .dma {
          total := (len + 65535) / 65536, next := min 16 ((len + 65535) / 65536), flying := List.range (min 16 ((len + 65535) / 65536)) })) ∧
      (len = 0 → Gives (.dma n c.tag) s (fun t => t.settledAs n c.tag 0 0 ∧ t.cores = s.cores ∧ t.dev = s.dev ∧ s.hostBut slot 16 t))) ∧
    (∀ (j : DmaJob) (u : Nat), s.holds n c 2 .running → c.job = .dma j → u ∈ j.flying → j.fcause = 0 → j.timeout = false → j.poisoned = 0 →
      let size := min 65536 (len % 2 ^ 40 - 65536 * u)
      let ahead := j.flying.erase u
      let moved := fun (ps pd : List (Nat × Nat × Nat)) (t : State) =>
        (∀ x, Memory.byte t.dev x = Memory.byte (s.writeAt pd (s.bytesAt ps)).1 x) ∧
        (∀ x, ¬(slot ≤ x ∧ x < slot + 16) → Memory.byte t.host x = Memory.byte (s.writeAt pd (s.bytesAt ps)).2 x) ∧ t.cores = s.cores
      (∀ ps pd, s.engXlate n (c.body 0 + 65536 * u) size false = .ok ps → s.engXlate n (c.body 1 + 65536 * u) size true = .ok pd →
        s.engHostCheck n ps = none → (∀ p ∈ ps ++ pd, s.isRemote p.2.1 = false) → s.xfer? n c.tag u = none → s.lostFree →
        (∀ p ∈ ps, ∀ i < p.2.2, s.cleanAt (p.2.1 + i) = true) →
        (ahead = [] → j.total ≤ j.next → Gives (.dmaUnitComplete n c.tag u) s (fun t => moved ps pd t ∧ t.settledAs n c.tag 0 0)) ∧
        (j.stopped = false → j.next < j.total → ahead.length < 16 → Gives (.dmaUnitComplete n c.tag u) s (fun t => moved ps pd t ∧
          ∃ d, t.cmd? n c.tag = some d ∧ d.phase = .running ∧
            d.job = .dma { j with next := j.next + 1, flying := ahead ++ [j.next], done := j.done + 1 }))) ∧
      (∀ f, s.engXlate n (c.body 0 + 65536 * u) size false = .error f → f.cause ≠ 0 → ahead = [] →
        Gives (.dmaUnitComplete n c.tag u) s (fun t => t.settledAs n c.tag 4 f.cause ∧ t.cores = s.cores ∧ t.dev = s.dev)))

/-- FLUSH and XLATE_INV. FLUSH leaves no dirty way in either cache region, and with INVALIDATE, said of states in which no way
stands in for a lost word, no valid one but those being filled;
XLATE_INV leaves the context no cached translation and its cores no run-ahead line, and keeps every register of every core and every
other context; with an access of the context in flight it runs until that has been performed. Both then settle OK and change no byte of
memory (R84, R98, R488). -/
def Obligations.FlushAndInvalidateKeepEveryByte : Prop :=
  ∀ (s : State) (n : Nat) (c : Cmd),
    (s.holds n c 3 .dispatched → c.body 0 < 2 → (c.body 0 = 0 ∨ s.lostFree) → Gives (.flush n c.tag) s (fun t =>
        (∀ half i w, ((t.cacheSet half i).way w).dirty = false) ∧
        (c.body 0 = 1 → ∀ half i w, ((t.cacheSet half i).way w).valid = true → ((t.cacheSet half i).way w).filling = true) ∧
        t.settledAs n c.tag 0 0 ∧ (∀ m, m ≠ n → t.ctx m = s.ctx m) ∧ { t with mem := s.mem, ctxs := s.ctxs } = s)) ∧
    (s.holds n c 4 .dispatched → Gives (.xlateInv n c.tag) s (fun t =>
        (t.ctx n).tlb = [] ∧ (∀ d, (s.core d).run ≠ .idle → (s.core d).ctx = n → ∀ l ∈ (t.core d).lines, l.owner = 8) ∧
        (∀ d, { t.core d with lines := (s.core d).lines, fills := (s.core d).fills, streams := (s.core d).streams
                              remote := (s.core d).remote, queue := (s.core d).queue } = s.core d) ∧
        (∀ d, ¬((s.core d).run ≠ .idle ∧ (s.core d).ctx = n) → t.core d = s.core d) ∧
        (if s.inFlight n = {} then t.settledAs n c.tag 0 0
          else t.cmd? n c.tag = some { c with phase := .running, job := .xlate (s.inFlight n) }) ∧
        (∀ m, m ≠ n → t.ctx m = s.ctx m) ∧ { t with cores := s.cores, ctxs := s.ctxs } = s)) ∧
    (∀ j, s.holds n c 4 .running → c.job = .xlate j → Gives (.xlateInv n c.tag) s (fun t =>
        (if s.stillFlying j = {} then t.settledAs n c.tag 0 0
          else t.cmd? n c.tag = some { c with job := .xlate (s.stillFlying j) }) ∧
        (∀ m, m ≠ n → t.ctx m = s.ctx m) ∧ { t with ctxs := s.ctxs } = s))

/-! ## The Press, the step gate and the Cutting Room -/

/-- PRESS. The poll that finds a Press command read and its job record in local memory reads and checks the record: one that fails a
check of R288 settles the command FAULT with that check's cause; one that passes is kept with the engines of the half that holds slot 0.
The command, dispatched, runs with its units from START_UNIT and waits for its gate; where the gate of its step has already resolved
with an outcome, it ends with that outcome and starts no unit (R282, R288, R302, R604). Device memory is said of states in which no way
of the cache regions stands in for a lost word. -/
def Obligations.PressCommandsAreCheckedAndPlaced : Prop :=
  ∀ (s : State) (n : Nat) (c : Cmd),
    (∀ a page, let x := s.ctx n
      n < 8 → s.ready = true → s.ctxEnabled n = true → s.ctxState n ≠ 3 → s.pollDue n = true → s.lostFree →
      (s.markPolled n).hallRead n (s.doorbell n) 0x90 = .ok page →
      x.wordsBad (s.cmdLog n) (pageWord page 0) (pageWord page 1) (pageWord page 2) (pageWord page 3) = false →
      pageWord page 0 = x.cmdHead → pageWord page 3 = x.abtHead → s.holds n c 5 .read → c.illegal = false → c.jrec = none →
      c.aborted = false → (∀ d ∈ x.cmds, d.tag ≠ c.tag → d.op = 5 ∨ d.op = 7 → d.phase = .read → d.jrec.isSome = true) →
      s.xfer? n c.tag (hallKey 0) = none → s.localAt n (c.body 0) 512 a false →
      let r := Memory.readLE s.dev a 512
      (pjCheck r (c.body 0) ≠ 0 → Gives (.doorbellPoll n) s (fun t =>
        t.settledAs n c.tag 4 (pjCheck r (c.body 0)) ∧ s.coresAndDevKept t ∧ t.host = s.host)) ∧
      (∀ pa np stp, pjCheck r (c.body 0) = 0 → pjReserved r = false → s.translate n (slBase r 0) (pjLoads r 0 == 0) = .ok pa np stp →
        Gives (.doorbellPoll n) s (fun t => t.cmd? n c.tag = some { c with jrec := some r, home := s.pressHome pa } ∧
          s.coresAndDevKept t ∧ t.host = s.host))) ∧
    (∀ r, s.holds n c 5 .dispatched → c.jrec = some r →
      ((∀ g ∈ (s.ctx n).gateDone, g.step ≠ c.gateStep) → Gives (.press n c.tag) s (fun t =>
        (∃ d, t.cmd? n c.tag = some d ∧ d.phase = .running ∧ d.job = .press {
          jrec := r, half := c.home.1, engines := c.home.2, total := pjUnits r, next := pjStart r }) ∧
        t.press = s.press ∧ s.coresAndDevKept t ∧ s.hostBut (s.slotOf n c.tag) 16 t)) ∧
      (∀ g, (s.ctx n).gateDone.find? (fun g => g.step == c.gateStep) = some g → g.outcome ≠ 0 → Gives (.press n c.tag) s (fun t =>
        t.settledAs n c.tag g.outcome 0 ∧ t.press = s.press ∧ s.coresAndDevKept t))) ∧
    (∀ pa, s.space pa = .loc pa →
      (pa < 0x6000000000 → s.pressHome pa = (0, [0, 1, 2, 3])) ∧ (0x6000000000 ≤ pa → pa < 0xC000000000 → s.pressHome pa = (1, [5, 6, 7, 8])) ∧
      (0x10000000000 ≤ pa → pa < 0x14000000000 → s.pressHome pa = (0, [4])) ∧
      (0x14000000000 ≤ pa → pa < 0x18000000000 → s.pressHome pa = (1, [9])))

/-- PRESS_UNIT_HANDOUT, PRESS_SPAN_COMPLETE and PRESS_PARITY_RESTART. A free engine takes the next unit of the one context whose turn
brings a command for it; the last span of a program over one unscaled state slot writes the converted results of the program's ST over
the elements it read and no other byte, frees the engine and, with no unit left, settles the command OK; a parity error restarts the
span, or the array phase of a unit's first span, and the third of either ends the unit FAULT with POISON_CONSUMED (R287, R290, R294,
R302, R304, R307). The span is said of states in which no way of the cache regions stands in for a lost word. -/
def Obligations.PressEnginesRunTheirUnits : Prop :=
  ∀ (s : State) (p n : Nat) (c : Cmd) (j : PressJob), p < 10 → c.job = .press j → s.holds n c 5 .running → j.phase = .running →
    let e := s.pressEng p
    let r := j.jrec
    let h := if p < 5 then 0 else 1
    let mine := e.busy = true ∧ e.ctx = n ∧ e.tag = c.tag
    let alone := ∀ q < 10, q ≠ p → ¬((s.pressEng q).busy = true ∧ (s.pressEng q).ctx = n ∧ (s.pressEng q).tag = c.tag)
    (n < 8 → e.busy = false → s.pressCand n h p = some c.tag → (∀ m < 8, m ≠ n → s.pressCand m h p = none) →
      Gives (.pressUnitHandout p) s (fun t => t.pressEng p = { busy := true, ctx := n, tag := c.tag, unit := j.next } ∧
        (∀ q, q ≠ p → t.pressEng q = s.pressEng q) ∧ t.cmd? n c.tag = some { c with job := .press { j with next := j.next + 1 } } ∧
        Store.get 0 t.pressTurn h = n + 1 ∧ s.coresAndDevKept t ∧ s.sameBytes t)) ∧
    (∀ a, mine → alone → e.span = 0 → e.bad = false → pjPrecond r = false → pjFactored r = false → pjSlots r = [0] → slKind r 0 = .none →
      pjLoads r 0 ≠ 0 → pjStores r 0 ≠ 0 → j.stop = false → j.aborted = false → j.timeout = false → j.faultUnit = 0 → j.poisonMet = false →
      s.lostFree → j.total ≤ j.next → s.xfer? n c.tag (1000 + p) = none →
      let size := ceilDiv (pjSpanLen r e.unit * slBits r 0) 8
      let va := slBase r 0 + 4096 * e.unit * slBits r 0 / 8
      let read : SlotIn := { slot := 0, data := { bytes := Memory.bytes s.dev a size } }
      let out := runSpan j p e.unit [(0, read.values r (pjSpanLen r e.unit))] (unitSpan r 0 e.gp)
      let stored := slotWrite r 0 (out.elems.reverse.map (fun l => ((l.find? (fun q => q.1 == 0)).map (·.2)).getD (0, 0))) (fun _ => 0)
      s.localAt n va size a false → s.localAt n va size a true →
      Gives (.pressSpanComplete p) s (fun t => s.puts a stored.data t ∧ t.pressEng p = {} ∧ (∀ q, q ≠ p → t.pressEng q = s.pressEng q) ∧
        t.settledAs n c.tag 0 0 ∧ t.cores = s.cores ∧ s.hostBut (s.slotOf n c.tag) 16 t)) ∧
    (mine → e.retries < 2 → Gives (.pressParityRestart { engine := p }) s (fun t => t.pressEng p = { e with retries := e.retries + 1 } ∧
        (∀ q, q ≠ p → t.pressEng q = s.pressEng q) ∧ { t with press := s.press } = s)) ∧
    (mine → pjPrecond r = true → e.span = 0 → e.arrayRetries < 2 → Gives (.pressParityRestart { engine := p, array := true }) s (fun t =>
        t.pressEng p = { e with arrayRetries := e.arrayRetries + 1 } ∧ (∀ q, q ≠ p → t.pressEng q = s.pressEng q) ∧
        { t with press := s.press } = s)) ∧
    (∀ array, mine → alone → j.faultUnit = 0 → j.timeout = false →
      (if array then pjPrecond r = true ∧ e.span = 0 ∧ 2 ≤ e.arrayRetries else 2 ≤ e.retries) → Gives (.pressParityRestart { engine := p, array }) s (fun t =>
        t.pressEng p = {} ∧ t.settledAs n c.tag 4 5 ∧ s.coresAndDevKept t))

/-- GATE, GATE_START, GATE_RESOLVE and GATE_TIMEOUT of a gate without a group. A dispatched gate waits; it starts when the gate before it
has resolved; it resolves once the contributing commands ahead of it are done, writing sum, norm, CLIP, counts, step and outcome to
its 32-byte slot, clearing its bank, signalling SIGNAL and releasing its step: OK, NONFINITE with a non-finite count, FAULT with a failed contributor. A
gate past its TIMEOUT_MS ends TIMEOUT. Press commands of a step that did not end OK end with its outcome (R269 to R277, R604). Device
memory is said of states in which no way of the cache regions stands in for a lost word. -/
def Obligations.GatesResolveInStepOrder : Prop :=
  ∀ (s : State) (n a : Nat) (c : Cmd),
    let o := s.obj (hIndex c.signal)
    let signals := c.signalled = false ∧ (c.signal = 0 ∨ s.hRemote c.signal = false ∧ s.objPoisoned (hIndex c.signal) = false ∧
      (o.kind = 0 ∨ o.kind = 2) ∧ hGen c.signal = o.gen ∧ o.abandoned = false ∧ o.hsig = false)
    let signalled := fun (t : State) => if c.signal = 0 then t.sync = s.sync else
      (t.obj (hIndex c.signal)).counter = min (o.counter + 1) (2 ^ 48 - 1) ∧ ∀ i, i ≠ hIndex c.signal → t.obj i = s.obj i
    let x := s.ctx n
    let b := x.bank c.gateStep
    let norm := Fmt.f64.sqrt b.sumsq
    let word := fun (t : State) (off : Nat) => Memory.readLE t.dev (a + off) 4
    let press := fun (d : Cmd) => d.op = 5 ∧ d.gateStep = c.gateStep
    (s.holds n c 6 .dispatched → c.group = 0 → c.body 0 % 32 = 0 → Gives (.gate n c.tag) s (fun t =>
        t.cmd? n c.tag = some { c with phase := .running, job := .gate {} } ∧ s.onlyCtx n t)) ∧
    (∀ j, s.holds n c 6 .running → c.job = .gate j → j.start = 0 → x.gateNext = some c.gateStep → Gives (.gateStart n c.tag) s (fun t =>
        t.cmd? n c.tag = some { c with job := .gate { j with start := s.now + 1 } } ∧ s.onlyCtx n t)) ∧
    (∀ j, s.holds n c 6 .running → c.job = .gate j → j.start ≠ 0 → j.out = none → c.gateAbort = false → c.abortRec = false → c.gateMs ≠ 0 →
      signals → s.lostFree → s.xfer? n c.tag (hallKey 0) = none → s.localAt n (c.body 0) 32 a true →
      (c.group = 0 → s.contribsDone n c = true →
        let outcome := if b.fault = true then 4 else if b.nf ≠ 0 then 5 else 0
        ((∀ d ∈ x.cmds, ¬press d) → Gives (.gateResolve n c.tag) s (fun t =>
          Memory.readLE t.dev a 8 = b.sumsq % 2 ^ 64 ∧ word t 8 = (f32of64 norm).toNat ∧ word t 0xC = gateClip norm c.clipNorm % 2 ^ 32 ∧
          word t 0x10 = b.nf % 2 ^ 32 ∧ word t 0x14 = min b.nf 0xFFFFFFFF ∧ word t 0x18 = c.gateStep % 2 ^ 32 ∧
          bitsOf (word t 0x1C) 0 8 = outcome ∧ (∀ y, ¬(a ≤ y ∧ y < a + 32) → Memory.byte t.dev y = Memory.byte s.dev y) ∧
          (t.ctx n).bank c.gateStep = {} ∧ (t.ctx n).gateNext = some ((c.gateStep + 1) % 2 ^ 32) ∧ t.settledAs n c.tag outcome 0 ∧
          signalled t ∧ t.cores = s.cores ∧ t.host = s.host)) ∧
        (∀ d k, outcome ≠ 0 → s.holds n d 5 .running → d.gateStep = c.gateStep → d.job = .press k → k.phase = .gate →
          Gives (.gateResolve n c.tag) s (fun t => t.settledAs n d.tag outcome 0))) ∧
      (j.start - 1 + c.gateMs * 1000000 ≤ s.now → (∀ d ∈ x.cmds, ¬press d) → Gives (.gateTimeout n c.tag) s (fun t =>
          word t 0x18 = c.gateStep % 2 ^ 32 ∧ bitsOf (word t 0x1C) 0 8 = 6 ∧
          (∀ y, ¬(a ≤ y ∧ y < a + 32) → Memory.byte t.dev y = Memory.byte s.dev y) ∧ (t.ctx n).gateNext = some ((c.gateStep + 1) % 2 ^ 32) ∧
          t.settledAs n c.tag 6 0 ∧ signalled t ∧ t.cores = s.cores ∧ t.host = s.host)))

/-- The gate of a group. A member that is not the root sends its contribution as one GATE_CONTRIB to the root and keeps its count for its
slot; the root takes a member's contribution into the group's, in arrival order; a GATE_RESULT gives the gate that waits for it its
slot, with the device's own count, and its outcome (R271, R275, R413, R424). -/
def Obligations.GroupGatesExchangeFrames : Prop :=
  ∀ (s : State) (n a : Nat) (c : Cmd) (e : GroupEntry),
    let b := (s.ctx n).bank c.gateStep
    (∀ j p dl, s.holds n c 6 .running → c.job = .gate j → j.start ≠ 0 → j.sent = false → j.out = none → c.group ≠ 0 → s.group? c.group = some e →
      s.failedMember e = none → e.root ≠ s.node → c.gateAbort = false → c.gateMs ≠ 0 → s.contribsDone n c = true →
      s.route 0 s.node e.root = some (p, dl) →
      Gives (.gateResolve n c.tag) s (fun t =>
        t.cmd? n c.tag = some { c with job := .gate { j with sent := true, nfLocal := b.nf } } ∧
        (t.port p).queue = (s.port p).queue ++ [(s.now, {
          vc := 0, cls := if dl then 1 else 0, src := s.node, dst := e.root, opc := 0x13
          ext := some { group := c.group, seq := c.seq, kind := 4, rank := e.rank, cfgSeal := s.seal64 }
          payload := natBE 8 b.sumsq ++ natBE 4 b.nf ++ natBE 4 c.gateStep ++ [BitVec.ofNat 8 (b2n b.fault)] ++ List.replicate 7 0 })] ∧
        (∀ q, q ≠ p → t.port q = s.port q) ∧ s.coresAndDevKept t ∧ t.host = s.host)) ∧
    (∀ f s0 x, s.takeOpc 0x13 = some (f, s0) → f.ext = some x → s0.group? x.group = some e → f.src ∈ e.members → s.fab.orphans = [] →
      (x.seq + 65536 - s0.seqBase x.group) % 65536 < 32768 → x.cfgSeal = s.seal64 →
      Gives (.gateContrib) s (fun t =>
        t.fab.contribs = s.fab.contribs ++ [{
          group := x.group, seq := x.seq, node := f.src, sumsq := beNat (f.payload.take 8), nf := beNat ((f.payload.drop 8).take 4)
          step := beNat ((f.payload.drop 12).take 4), fault := bitOf (f.payload.getD 16 0).toNat 0
          abort := bitOf (f.payload.getD 16 0).toNat 1, cfgSeal := x.cfgSeal }] ∧
        t.fab.inbox = s.fab.inbox.erase f ∧ { t with fab := s.fab } = s)) ∧
    (∀ f s0 x j, s.takeOpc 0x14 = some (f, s0) → f.ext = some x → s.holds n c 6 .running → c.group = x.group → c.seq = x.seq →
      (∀ q ∈ s.ctxs, ∀ d ∈ q.2.cmds, d.op = 6 → d.group = x.group → d.seq = x.seq → d.phase = .running → q.1 = n ∧ d = c) →
      c.job = .gate j → j.sent = true → j.out = none → c.gateMs ≠ 0 → c.abortRec = false → c.signal = 0 → s.lostFree →
      s.xfer? n c.tag (hallKey 0) = none → s.localAt n (c.body 0) 32 a true →
      (∀ d ∈ (s.ctx n).cmds, ¬(d.op = 5 ∧ d.gateStep = c.gateStep)) →
      Gives (.gateResult) s (fun t => s.puts a ({ GateSlot.ofPayload f.payload with nfLocal := j.nfLocal }).toBytes t ∧
        t.settledAs n c.tag (GateSlot.ofPayload f.payload).outcome 0 ∧ t.fab.inbox = s.fab.inbox.erase f ∧ t.cores = s.cores ∧ t.host = s.host))

/-- INGEST, SAMPLE_START and SAMPLE_COMPLETE. An ingest command takes up its window, generator and ring counts from its STATE block; a
share starts the next sample of the one command it serves at the permuted index, with one free slot a clip, or, with too few free,
notes how many it waits for; a sample that the demultiplexer, the decoders or the cutting stage drop is consumed with one of the reasons
that hold counted; a sample of one clip has the clip's record written to its slot and its clip enters the window. No core changes, and
no byte of device memory but the record's, where no way of the cache regions stands in for a lost word (R315, R317 to R325, R336 to R343). -/
def Obligations.SamplesEnterTheWindowInOrder : Prop :=
  ∀ (s : State) (n : Nat) (c : Cmd), s.lostFree →
    (∀ r st em, s.holds n c 7 .dispatched → c.jrec = some r →
      let sizes := 64 + 4 * ijSlots r
      s.localAt n (ijState r) sizes st false →
      s.localAt n (ijEmit r) (8 * 2 ^ ijEmitLog r) em false → s.xfer? n c.tag 0 = none → Memory.readLE s.dev st 8 = 0 →
      Gives (.ingest n c.tag) s (fun t => (∃ d j, t.cmd? n c.tag = some d ∧ d.phase = .running ∧ d.job = .ingest j ∧
          j.jrec = r ∧ j.next = ijStart r ∧ j.first = ijStart r ∧ j.win = [] ∧ j.pend = [] ∧ j.samples = [] ∧
          j.emitted = Memory.readLE s.dev (st + 12) 4 ∧ j.released = Memory.readLE s.dev (st + 16) 4 ∧
          j.st = (if Memory.readLE s.dev (st + 8) 4 = 0 then ijStartGen r else BitVec.ofNat 32 (Memory.readLE s.dev (st + 8) 4))) ∧
        s.coresAndDevKept t ∧ s.hostBut (s.slotOf n c.tag) 16 t)) ∧
    (∀ (j : IngestJob), s.holds n c 7 .running → c.job = .ingest j → j.ending = none → j.pend = [] → j.win.length + 1 < ijWindow j.jrec →
      j.count < ijCount j.jrec →
      let r := j.jrec
      let now := fun (k : IngestJob) (t : State) => ∃ d, t.cmd? n c.tag = some d ∧ d.phase = .running ∧ d.job = .ingest k
      (∀ share a, share < 2 → s.enginesBusy share < 16 → s.roomCmds share = [n * 2 ^ 32 + c.tag] → c.tag < 2 ^ 32 → j.samples = [] →
        let idx := samplePi (ijSeed r) (ijN r) (j.next * ijReplicas r + ijReplica r)
        let e := Memory.readLE s.dev a 32
        s.localAt n (ijTable r + 32 * idx) 32 a false → s.xfer? n c.tag 3 = none → teBad r e = false → teKind e = 0 →
        (teClips e ≤ j.freeSlots.length → Gives (.sampleStart share) s (fun t =>
          (∃ (slots : List Nat) (engine : Nat), slots.length = teClips e ∧ slots.Nodup ∧ (∀ k ∈ slots, k ∈ j.freeSlots) ∧
            (s.freeEngines share ≠ [] → engine ∈ s.freeEngines share) ∧
            now { j with next := j.next + 1, wants := 0, samples := [{
              share, engine, pos := j.next, index := idx, entry := e, slots, fetch := j.fetch.getD share 0 }] } t) ∧
          Store.get 0 t.roomTurn share = n * 2 ^ 32 + c.tag + 1 ∧ s.coresAndDevKept t ∧ s.hostBut (s.slotOf n c.tag) 16 t)) ∧
        (j.freeSlots.length < teClips e → Gives (.sampleStart share) s (fun t => now { j with wants := teClips e } t ∧
          t.roomTurn = s.roomTurn ∧ s.coresAndDevKept t ∧ t.host = s.host))) ∧
      (∀ x bytes, j.samples = [x] → x.how = .running → (∀ q ∈ x.reqs, q.done = true) → teReserved x.entry = false →
        j.next < ijPositions r → s.xfer? n c.tag (1000 + 2 * x.pos) = none → s.xfer? n c.tag (1001 + 2 * x.pos) = none →
        (teKind x.entry = 1 ∧ bytes = Memory.bytes x.src 0 (teLength x.entry) ∨
          teKind x.entry = 0 ∧ ∃ b, s.localAt n (recField x.entry 0 8) (teLength x.entry) b false ∧
            bytes = Memory.bytes s.dev b (teLength x.entry)) →
        let seen := { j with samples := [], first := j.first + 1, consumed := j.consumed + 1 }
        let dropped := fun (k : Nat) (t : State) =>
          now { seen with drops := j.drops.set k (j.drops.getD k 0 + 1) } t ∧ s.coresAndDevKept t ∧ s.hostBut (s.slotOf n c.tag) 16 t
        (∀ d, x.poisoned = true → Gives (.sampleComplete n c.tag x.pos d) s (dropped 4)) ∧
        (∀ reasons d, x.poisoned = false → cutSample r x.entry x.index x.pos bytes = .drops reasons →
          Gives (.sampleComplete n c.tag x.pos d) s (fun t => ∃ k ∈ reasons, dropped k t)) ∧
        (∀ rec1 k a d, x.poisoned = false → cutSample r x.entry x.index x.pos bytes = .records [rec1] → x.slots = [k] →
          s.localAt n (ijPool r + k * ijSlotBytes r) rec1.length a true →
          Gives (.sampleComplete n c.tag x.pos d) s (fun t =>
            now { seen with win := j.win ++ [k + (if teAsel x.entry = 0 then 0 else 2 ^ 16)] } t ∧ s.puts a rec1 t ∧ t.cores = s.cores ∧
            s.hostBut (s.slotOf n c.tag) 16 t))))

/-- FREE_TAKE and the read service. A command that needs a release takes 1 from its FREE semaphore and releases its oldest record, or
sleeps on the object; RS_DATA within its request lands at the sample's place in the fetch buffer, where the demultiplexer reads it, and, with no way of the cache regions standing in for a
lost word, no other byte changes; RS_DONE of
a complete request marks it done and ends its transaction; a failed RS_DONE, or 20 µs without a frame, drops the sample for reason 5
(R340, R341, R406, R430 to R432, R460). -/
def Obligations.ReleasesAndReadServiceFrames : Prop :=
  ∀ (s : State) (n : Nat) (c : Cmd) (j : IngestJob), s.holds n c 7 .running → c.job = .ingest j → j.ending = none → j.pend = [] →
    j.win.length < ijWindow j.jrec → j.count < ijCount j.jrec →
    let r := j.jrec
    let h := ijFree r
    let o := s.obj (hIndex h)
    let key := n * 2 ^ 32 + c.tag
    let now := fun (k : IngestJob) (t : State) => ∃ d, t.cmd? n c.tag = some d ∧ d.phase = .running ∧ d.job = .ingest k
    let dropped := fun (t : State) => now { j with
      samples := [], first := j.first + 1, consumed := j.consumed + 1, drops := j.drops.set 5 (j.drops.getD 5 0 + 1) } t
    (∀ x k rest, j.samples = [x] → x.how = .running → j.needsFree = true → j.out = k :: rest → Store.get 0 s.roomWait key = 0 →
      s.hRemote h = false → s.objPoisoned (hIndex h) = false → o.kind = 0 → hGen h = o.gen → o.abandoned = false →
      (1 ≤ o.counter → Gives (.freeTake n c.tag) s (fun t => (t.obj (hIndex h)).counter = o.counter - 1 ∧
        (∀ i, i ≠ hIndex h → t.obj i = s.obj i) ∧ now { j with released := (j.released + 1) % 2 ^ 32, out := rest } t ∧ s.coresAndDevKept t)) ∧
      (o.counter = 0 → Gives (.freeTake n c.tag) s (fun t => Store.get 0 t.roomWait key = hIndex h + 1 ∧ (t.obj (hIndex h)).engine = true ∧
        (t.obj (hIndex h)).counter = 0 ∧ (∀ i, i ≠ hIndex h → t.obj i = s.obj i) ∧ s.coresAndDevKept t ∧ t.host = s.host))) ∧
    (∀ f s0 x pos i y q, f.xid < 2 ^ 64 → s0.txn? f.xid = some x → x.owner = .rs n c.tag pos i → j.samples = [y] → y.pos = pos →
      y.how = .running → y.reqs[i]? = some q →
      (∀ a, s.takeOpc 0x21 = some (f, s0) → q.off ≤ f.addr → f.addr + f.len ≤ q.off + q.len → 0 < f.len → f.operand = recField y.entry 8 8 →
        q.got = [] → f.poison = 0 → s.xfer? n c.tag (1000 + 2 * pos) = none → s.lostFree →
        let place := (y.fetch + (f.addr - recField y.entry 0 8)) % 0x4000000
        place + f.len ≤ 0x4000000 → s.localAt n (fetchBase r y.share + place) f.len a true →
        Gives (.rsData) s (fun t => s.puts a f.payload t ∧ t.fab.inbox = s.fab.inbox.erase f ∧ t.cores = s.cores ∧ t.host = s.host ∧
          now { j with samples := [{ y with
            src := Memory.setBytes y.src (f.addr - recField y.entry 0 8) f.payload
            reqs := y.reqs.set i { q with got := [(f.addr, f.addr + f.len)] } }] } t)) ∧
      (s.takeOpc 0x22 = some (f, s0) → f.status = 0 → (q.got.map (fun g => g.2 - g.1)).sum = q.len → (∀ z ∈ y.reqs, z.sent = true) → q.sent = true →
        Gives (.rsDone) s (fun t => now { j with samples := [{ y with reqs := y.reqs.set i { q with done := true } }] } t ∧
          t.txn? f.xid = none ∧ t.fab.inbox = s.fab.inbox.erase f ∧ s.coresAndDevKept t ∧ t.host = s.host)) ∧
      (s.takeOpc 0x22 = some (f, s0) → f.status ≠ 0 → j.next < ijPositions r → Gives (.rsDone) s (fun t =>
          dropped t ∧ t.fab.inbox = s.fab.inbox.erase f ∧ s.coresAndDevKept t ∧ s.hostBut (s.slotOf n c.tag) 16 t)) ∧
      (s.txn? f.xid = some x → x.sentAt + 20000 ≤ s.now → j.next < ijPositions r → Gives (.readServiceDeadline f.xid) s (fun t =>
          dropped t ∧ t.txn? f.xid = none ∧ s.coresAndDevKept t ∧ s.hostBut (s.slotOf n c.tag) 16 t)))

/-! ## The mesh, its commands, collectives and fabric multicast -/

/-- MESH_FLIT_ARRIVAL, MESH_CRC_REPLAY, REDUCTION_PACKET_ARRIVAL and REDUCTION_HOLD_TIMEOUT. Every hop of a route leads one Crossing
nearer, along the row first; a packet an endpoint sends into an idle
Crossing, for the Seam while nothing else crosses, goes to its destination port there or on the link of its route, and nowhere else; replays of a flit are counted and the
eighth failure stops the device with source MESH; a reduction packet is held, or added into the held packet of its chunk, which
moves on once it carries every contribution or after 32 mesh clocks (R353 to R361, R367, R368, R525). -/
def Obligations.CrossingsCarryFlitsAndAddPackets : Prop :=
  let hops := fun (x d : Nat) => (gridRow x - gridRow d) + (gridRow d - gridRow x) + (gridCol x - gridCol d) + (gridCol d - gridCol x)
  ∀ (s : State) (x port : Nat), x < 36 → port < 6 →
    (∀ d < 36, x ≠ d → hops (meshNext x (meshOut x d)).1 d + 1 = hops x d ∧ (meshNext x (meshOut x d)).1 < 36 ∧
      (gridCol x ≠ gridCol d → gridRow (meshNext x (meshOut x d)).1 = gridRow x)) ∧
    (∀ p : MeshPkt, port = 4 ∨ port = 5 → p.vc < 4 → p.dst < 36 → p.port = 4 ∨ p.port = 5 → p.payload.length ≤ 512 → s.meshLink x port = [] →
      (∀ q < 7, s.meshBuf x q = []) →
      (p.dst ≠ x → meshOut x p.dst = 5 → (∀ y q, s.meshBuf y q = []) ∧ ∀ d, Store.get [] s.mem.seamReqs d = [] ∧ Store.get [] s.mem.seamDone d = []) →
      Gives (.meshFlitArrival x port (some p)) s (fun t =>
        t.mesh.out = s.mesh.out ++ (if p.dst = x then [(x, p)] else []) ∧
        (∀ y q, q < 8 → t.meshLink y q = s.meshLink y q ++
          (if p.dst ≠ x ∧ (y, q) = meshNext x (meshOut x p.dst) then [{ vc := p.vc, dst := p.dst, kind := .other p }] else [])) ∧
        (∀ y q, t.meshBuf y q = s.meshBuf y q) ∧ { t with mesh := s.mesh } = s)) ∧
    (∀ fails, port < 4 → s.meshLink x port ≠ [] →
      let unit := (meshNext x port).1 / 18 * 72 + (meshNext x port).1 % 18 * 4 + (meshNext x port).2
      let u := s.unitErr 7 unit
      (fails < 8 → s.fld 0x830 16 16 = 0 ∨ u.window + 1 ≤ s.fld 0x830 16 16 → Gives (.meshCrcReplay x port fails) s (fun t =>
        t.unitErr 7 unit = { u with window := u.window + 1, sinceRecord := u.sinceRecord + 1 } ∧ { t with err := s.err } = s)) ∧
      (8 ≤ fails → s.ready = true → Gives (.meshCrcReplay x port fails) s (fun t =>
        t.boot = 7 ∧ t.reg 0x800 = 3 + 7 * 2 ^ 8 ∧ (∀ c, (t.core c).run = .idle) ∧ t.dev = s.dev))) ∧
    (∀ (f : Flit) rest n tag k cnt total words bad, s.meshLink x port = f :: rest → f.kind = .reduce n tag k cnt total words bad →
      let int := match s.reduce? n tag with | some (c, _) => c.redIn == 8 | none => false
      ((∀ h ∈ s.mesh.held, h.meets x f = false) → (s.mesh.held.filter (fun h => h.crossing == x)).length < 64 →
        Gives (.reductionPacketArrival x port) s (fun t => t.mesh.held = s.mesh.held ++ [{ crossing := x, since := s.now, flit := f }] ∧
          t.meshLink x port = rest ∧ t.mesh.bufs = s.mesh.bufs ∧ { t with mesh := s.mesh } = s)) ∧
      (∀ h c0 w0 b0, s.mesh.held = [h] → h.crossing = x → h.flit.kind = .reduce n tag k c0 total w0 b0 →
        let sum : Flit := { h.flit with kind := .reduce n tag k (c0 + cnt) total (addWords int w0 words) (joinBad b0 bad) }
        (c0 + cnt < total → Gives (.reductionPacketArrival x port) s (fun t => t.mesh.held = [{ h with flit := sum }] ∧
          t.meshLink x port = rest ∧ t.mesh.bufs = s.mesh.bufs ∧ { t with mesh := s.mesh } = s)) ∧
        (total ≤ c0 + cnt → Gives (.reductionPacketArrival x port) s (fun t => t.mesh.held = [] ∧ t.meshLink x port = rest ∧
          t.meshBuf x 6 = s.meshBuf x 6 ++ [sum] ∧ { t with mesh := s.mesh } = s)))) ∧
    (∀ h, s.mesh.held.find? (fun h => h.crossing == x) = some h → h.since + s.meshNs (x / 18) 32 ≤ s.now →
      Gives (.reductionHoldTimeout x) s (fun t => t.mesh.held = s.mesh.held.erase h ∧ t.meshBuf x 6 = s.meshBuf x 6 ++ [h.flit] ∧
        t.mesh.links = s.mesh.links ∧ { t with mesh := s.mesh } = s))

/-- MREDUCE. A mesh reduce reads its source list and runs; a source engine sends its next chunk of 128 elements, BF16 widened to FP32, as
one reduction packet toward the destination engine; the destination engine writes a chunk whose contributions are complete, converted
to FMT_OUT, and no other byte, and the last chunk settles the command OK (R366 to R369, R486). -/
def Obligations.MeshReducesSumTheirSources : Prop :=
  ∀ (s : State) (n a : Nat) (c : Cmd),
    let cnt := c.redCount
    (s.holds n c 8 .dispatched → 2 ≤ cnt → cnt ≤ 256 → 0 < c.redLen → c.redLen % 128 = 0 → sumFmts c.redIn c.redOut = true →
      c.redEngine < 36 → bitOf (c.body 2) 9 = false → bitsOf (c.body 2) 25 7 = 0 → s.localAt n (c.body 0) (16 * cnt) a false →
      s.xfer? n c.tag 0 = none → (∀ i < cnt, Memory.readLE s.dev (a + 16 * i + 8) 8 < 36) →
      ∀ k, Gives (.mreduce n c.tag k) s (fun t => (∃ d, t.cmd? n c.tag = some d ∧ d.phase = .running ∧ d.job = .reduce {
          srcs := (List.range cnt).map (fun i => (Memory.readLE s.dev (a + 16 * i) 8, Memory.readLE s.dev (a + 16 * i + 8) 8))
          sent := List.replicate cnt 0, total := c.redLen / 128 }) ∧
        t.mesh = s.mesh ∧ s.coresAndDevKept t ∧ s.hostBut (s.slotOf n c.tag) 16 t)) ∧
    (∀ j i, s.holds n c 8 .running → c.job = .reduce j → i < cnt → j.sent.getD i j.total < j.total → s.xfer? n c.tag i = none →
      let k := j.sent.getD i j.total
      let src := j.srcs.getD i (0, 0)
      let len := 128 * sumBytes c.redIn
      s.localAt n (src.1 + len * k) len a false → Gives (.mreduce n c.tag i) s (fun t =>
        t.meshLink src.2 4 = s.meshLink src.2 4 ++ [{
          vc := 3, dst := c.redEngine
          kind := .reduce n c.tag k 1 cnt (({ bytes := Memory.bytes s.dev a len } : View).sumWords c.redIn) [] }] ∧
        t.cmd? n c.tag = some { c with job := .reduce { j with sent := j.sent.set i (k + 1) } } ∧ s.coresAndDevKept t ∧ t.host = s.host)) ∧
    (∀ j k, s.holds n c 8 .running → c.job = .reduce j → k < j.total → Store.get false j.written k = false →
      let x := Store.get {} j.chunks k
      let len := 128 * sumBytes c.redOut
      let written := Store.set false j.written k true
      cnt + b2n c.redAcc ≤ x.count → (c.redAcc = true → x.acc = true) → x.bad = [] → x.words.length = 128 → s.xfer? n c.tag (1000 + k) = none →
      sumFmts c.redIn c.redOut = true → s.localAt n (c.body 1 + len * k) len a true →
      Gives (.mreduce n c.tag (cnt + k)) s (fun t => s.puts a (sumOut c.redOut false x.words).1 t ∧ t.cores = s.cores ∧
        s.hostBut (s.slotOf n c.tag) 16 t ∧ (written.length = j.total → t.settledAs n c.tag 0 0) ∧
        (written.length ≠ j.total → ∃ d j1, t.cmd? n c.tag = some d ∧ d.phase = .running ∧ d.job = .reduce j1 ∧ j1.written = written)))

/-- MMCAST, MESH_MCAST_RESEND and MESH_MCAST_DEADLINE. A mesh multicast reads its target list and runs; the source sends its next 512 bytes
toward every target; a target's engine writes the packet it buffered and no other byte, and the last delivery settles the command OK;
a refused packet is sent again after 256 mesh clocks to that target alone; 20 µs after the first packet the command ends PARTIAL and
the meshes hold nothing of it (R370 to R372, R486). -/
def Obligations.MeshMulticastsReachEveryTarget : Prop :=
  ∀ (s : State) (n a : Nat) (c : Cmd),
    let cnt := c.mcTargets
    (s.holds n c 9 .dispatched → 0 < cnt → cnt ≤ 64 → 0 < c.mcLen → c.mcLen ≤ 2 ^ 24 → c.mcEngine < 36 → bitOf (c.body 2) 31 = false →
      c.body 2 < 2 ^ 39 → s.localAt n (c.body 1) (16 * cnt) a false → s.xfer? n c.tag 0 = none →
      (∀ i < cnt, Memory.readLE s.dev (a + 16 * i + 8) 8 < 36) →
      ∀ k, Gives (.mmcast n c.tag k) s (fun t => (∃ d, t.cmd? n c.tag = some d ∧ d.phase = .running ∧ d.job = .mcast {
          targets := (List.range cnt).map (fun i => (Memory.readLE s.dev (a + 16 * i) 8, Memory.readLE s.dev (a + 16 * i + 8) 8))
          total := ceilDiv c.mcLen 512, counts := List.replicate cnt 0 }) ∧
        t.mesh = s.mesh ∧ s.coresAndDevKept t ∧ s.hostBut (s.slotOf n c.tag) 16 t)) ∧
    (∀ j, s.holds n c 9 .running → c.job = .mcast j →
      let len := fun (p : Nat) => min 512 (c.mcLen - 512 * p)
      let flit := fun (p : Nat) (ts : List Nat) => ({
        vc := 3, dst := c.mcEngine
        kind := .mcast n c.tag p c.mcEngine (ts.map (fun i => (i, (j.targets.getD i (0, 0)).2))) (Memory.bytes s.dev a (len p)) [] } : Flit)
      (j.next < j.total → s.xfer? n c.tag j.next = none → s.localAt n (c.body 0 + 512 * j.next) (len j.next) a false →
        Gives (.mmcast n c.tag 0) s (fun t =>
          t.meshLink c.mcEngine 4 = s.meshLink c.mcEngine 4 ++ [flit j.next (List.range j.targets.length)] ∧
          t.cmd? n c.tag = some { c with job := .mcast { j with
            next := j.next + 1, firstAt := if j.firstAt = 0 then s.now + 1 else j.firstAt } } ∧ s.coresAndDevKept t ∧ t.host = s.host)) ∧
      (∀ i b, s.mesh.recv.find? (fun b => b.ctx == n && b.tag == c.tag && b.target == i) = some b → b.bad = [] →
        s.xfer? n c.tag (1000000 + i) = none → s.localAt n ((j.targets.getD i (0, 0)).1 + 512 * b.packet) b.bytes.length a true →
        let j1 := { j with counts := j.counts.set i (j.counts.getD i 0 + 1) }
        Gives (.mmcast n c.tag (1 + i)) s (fun t => s.puts a b.bytes t ∧ t.cores = s.cores ∧ s.hostBut (s.slotOf n c.tag) 16 t ∧
          (maskCount j1.delivered = j.targets.length → t.settledAs n c.tag 0 0) ∧
          (maskCount j1.delivered ≠ j.targets.length → t.mesh.recv = s.mesh.recv.erase b ∧
            ∃ d, t.cmd? n c.tag = some d ∧ d.phase = .running ∧ d.job = .mcast j1))) ∧
      (∀ r, s.mesh.resends.find? (fun r => r.ctx == n && r.tag == c.tag) = some r → r.since + s.meshNs (c.mcEngine / 18) 256 ≤ s.now →
        s.xfer? n c.tag r.packet = none → s.localAt n (c.body 0 + 512 * r.packet) (len r.packet) a false →
        Gives (.meshMcastResend n c.tag) s (fun t => t.meshLink c.mcEngine 4 = s.meshLink c.mcEngine 4 ++ [flit r.packet [r.target]] ∧
          t.mesh.resends = s.mesh.resends.erase r ∧ s.coresAndDevKept t ∧ t.host = s.host)) ∧
      (j.firstAt ≠ 0 → j.firstAt - 1 + 20000 ≤ s.now → Gives (.meshMcastDeadline n c.tag) s (fun t =>
        (∃ d, t.cmd? n c.tag = some d ∧ d.phase = .settled ∧ d.status = 3 ∧ d.position = j.delivered) ∧
        (∀ b ∈ t.mesh.recv, ¬(b.ctx = n ∧ b.tag = c.tag)) ∧ (∀ r ∈ t.mesh.resends, ¬(r.ctx = n ∧ r.tag = c.tag)) ∧
        s.coresAndDevKept t ∧ s.hostBut (s.slotOf n c.tag) 16 t)))

/-- GATHER and SCATTER. Each starts within its ranges, OK at once with no row to move. A gather's row reads its 32-bit index and copies
the table row to its place in the destination; a scatter's row copies or, with ADD, adds its source row to the table row, element by
element; no other byte of device memory changes, and the last row settles the command OK (R376, R377, R486). -/
def Obligations.GathersAndScattersMoveRows : Prop :=
  ∀ (s : State) (n i ai at_ ad : Nat) (c : Cmd),
    let len := c.gaBytes
    let started := fun (t : State) => (c.gaCount = 0 → t.settledAs n c.tag 0 0) ∧
      (c.gaCount ≠ 0 → ∃ d, t.cmd? n c.tag = some d ∧ d.phase = .running ∧ d.job = .gather { total := c.gaCount }) ∧
      s.coresAndDevKept t ∧ s.hostBut (s.slotOf n c.tag) 16 t
    (s.holds n c 0x0A .dispatched → c.gaOk = true → Gives (.gather n c.tag i) s started) ∧
    (s.holds n c 0x0B .dispatched → c.gaOk = true → Gives (.scatter n c.tag i) s started) ∧
    (∀ j, c.job = .gather j → i < j.total → Store.get false j.finished i = false → Store.get 0 j.index i = 0 →
      s.xfer? n c.tag (2 * i) = none → s.xfer? n c.tag (2 * i + 1) = none → c.gaOk = true →
      s.localAt n (c.body 0 + 4 * i) 4 ai false →
      let row := c.body 1 + Memory.readLE s.dev ai 4 * c.gateStep
      let data := c.body 2 + i * len
      let finished := Store.set false j.finished i true
      let ends := fun (t : State) => t.cores = s.cores ∧ s.hostBut (s.slotOf n c.tag) 16 t ∧
        (finished.length = j.total → t.settledAs n c.tag 0 0) ∧
        (finished.length ≠ j.total → ∃ d j1, t.cmd? n c.tag = some d ∧ d.phase = .running ∧ d.job = .gather j1 ∧ j1.finished = finished)
      (s.holds n c 0x0A .running → s.localAt n row len at_ false → s.localAt n data len ad true →
        Gives (.gather n c.tag i) s (fun t => s.puts ad (Memory.bytes s.dev at_ len) t ∧ ends t)) ∧
      (s.holds n c 0x0B .running → c.gaAdd = false → s.localAt n row len at_ true → s.localAt n data len ad false →
        Gives (.scatter n c.tag i) s (fun t => s.puts at_ (Memory.bytes s.dev ad len) t ∧ ends t)) ∧
      (s.holds n c 0x0B .running → c.gaAdd = true → s.localAt n row len at_ false → s.localAt n row len at_ true →
        s.localAt n data len ad false →
        let words := fun (a : Nat) => ({ bytes := Memory.bytes s.dev a len } : View).sumWords 0
        Gives (.scatter n c.tag i) s (fun t =>
          s.puts at_ ((addWords c.gaInt (words at_) (words ad)).flatMap (fun x => natLE 4 x.toNat)) t ∧ ends t)))

/-- COLL and COLL_FRAME. A collective of a group whose operands fit runs with the group's members and its rank, and ends FAULT with
SHAPE_FAULT where they do not fit; a running RS or AR sends its next chunk of the shard before its own to the next member on VC3,
rounded to WIRE; the chunk that closes the ring is added to the member's own and written to DST, converted to FMT_OUT, and no other
byte changes; the last such chunk settles the command OK (R413 to R418). -/
def Obligations.CollectivesRunTheRing : Prop :=
  ∀ (s : State) (n a : Nat) (c : Cmd),
    (∀ e, s.holds n c 0x0C .dispatched → s.group? c.group = some e → c.collKind ≠ 0 → bitsOf (c.body 2) 26 6 = 0 →
      (c.collOk e.p = true → 0 < c.collLen → (∀ m ∈ e.members, s.nodeFailed m = false) → s.fab.early = [] → s.fab.withheld = [] →
        Gives (.coll n c.tag) s (fun t => (∃ d, t.cmd? n c.tag = some d ∧ d.phase = .running ∧ d.job = .coll {
            p := e.p, rank := e.rank, members := e.members, sentNext := s.now, sentPrev := s.now, heardNext := s.now, heardPrev := s.now }) ∧
          t.fab = s.fab ∧ s.coresAndDevKept t ∧ s.hostBut (s.slotOf n c.tag) 16 t)) ∧
      (c.collOk e.p = false → Gives (.coll n c.tag) s (fun t => t.settledAs n c.tag 4 1 ∧ s.coresAndDevKept t))) ∧
    (∀ j, s.holds n c 0x0C .running → c.job = .coll j → j.done ≠ c.collChunks j →
      (∀ p dl, c.collKind = 1 ∨ c.collKind = 3 → j.own < j.chunksOf c → s.xfer? n c.tag 0 = none →
        let sh := (j.rank + j.p - 1) % j.p
        s.localAt n (j.srcAt c sh j.own) (chunkBytes c.collIn) a false → s.route 3 s.node j.next = some (p, dl) →
        Gives (.coll n c.tag) s (fun t =>
          (t.port p).queue = (s.port p).queue ++ [(s.now, {
            vc := 3, cls := if dl then 1 else 0, src := s.node, dst := j.next, opc := 0x10
            ext := some { group := c.group, seq := c.seq, kind := c.collKind, wire := c.collWire, rank := j.rank, shard := sh, chunk := j.own
                          cfgSeal := s.seal64 }
            payload := (sumOut c.collWire true (({ bytes := Memory.bytes s.dev a (chunkBytes c.collIn) } : View).sumWords c.collIn)).1 })] ∧
          (∀ q, q ≠ p → t.port q = s.port q) ∧ s.coresAndDevKept t ∧ s.hostBut (s.slotOf n c.tag) 16 t ∧
          ∃ d, t.cmd? n c.tag = some d ∧ d.phase = .running ∧ d.job = .coll { j with own := j.own + 1, sentNext := s.now })) ∧
      (∀ f t0 x b, s.takeOpc 0x10 = some (f, t0) → f.ext = some x → s.collAt x.group x.seq = some (n, c, true) → x.cfgSeal = s.seal64 →
        c.collKind = 1 → x.phase = 0 → 2 ≤ j.p → j.dist x.shard = j.p - 1 → x.shard < j.p → x.chunk < j.chunksOf c → f.poison = 0 →
        f.payload.length = chunkBytes x.wire → sumFmts c.collIn c.collOut = true → sumFmts c.collIn x.wire = true → c.gateSq = false →
        s.xfer? n c.tag (j.chunkKey c 0 x.shard x.chunk) = none → s.xfer? n c.tag (j.chunkKey c 0 x.shard x.chunk + 1) = none →
        s.localAt n (j.srcAt c x.shard x.chunk) (chunkBytes c.collIn) a false → s.localAt n (j.dstAt c x.shard x.chunk) (chunkBytes c.collOut) b true →
        Gives (.collFrame) s (fun t =>
          s.puts b (sumOut c.collOut false (addWords (c.collIn == 8) (({ bytes := f.payload } : View).sumWords x.wire)
            (({ bytes := Memory.bytes s.dev a (chunkBytes c.collIn) } : View).sumWords c.collIn))).1 t ∧
          t.fab.inbox = s.fab.inbox.erase f ∧ t.cores = s.cores ∧ s.hostBut (s.slotOf n c.tag) 16 t ∧
          (j.done + 1 = c.collChunks j → t.settledAs n c.tag 0 0) ∧
          (j.done + 1 ≠ c.collChunks j → ∃ d j1, t.cmd? n c.tag = some d ∧ d.phase = .running ∧ d.job = .coll j1 ∧ j1.done = j.done + 1))))

/-- HEARTBEAT, COLL_ABORT, HEARTBEAT_TIMER and COLL_SILENCE_TIMEOUT. A heartbeat notes when its neighbour was last heard; an abort ends
the command with the status of its reason and is passed on in its direction unless the next member is its origin; a member that sent
its next neighbour nothing for 25 µs sends it a HEARTBEAT; 100 µs of silence from a neighbour end the command TIMEOUT (R419, R422). -/
def Obligations.CollectivesLiveAndEndTogether : Prop :=
  ∀ (s : State) (n : Nat) (c : Cmd) (j : CollJob), s.holds n c 0x0C .running → c.job = .coll j →
    (∀ f t0 x, s.takeOpc 0x11 = some (f, t0) → f.ext = some x → s.collAt x.group x.seq = some (n, c, true) → x.cfgSeal = s.seal64 →
      Gives (.heartbeat) s (fun t => t.cmd? n c.tag = some { c with job := .coll { j with
          heardNext := if j.next = f.src then s.now else j.heardNext, heardPrev := if j.prev = f.src then s.now else j.heardPrev } } ∧
        t.fab.inbox = s.fab.inbox.erase f ∧ { t.fab with inbox := s.fab.inbox } = s.fab ∧ (∀ m, m ≠ n → t.ctx m = s.ctx m) ∧
        { t with fab := s.fab, ctxs := s.ctxs } = s)) ∧
    (∀ f t0 x e, s.takeOpc 0x12 = some (f, t0) → f.ext = some x → s.group? x.group = some e → s.collAt x.group x.seq = some (n, c, true) →
      x.kind ≠ 4 →
      let dst := if f.src = e.prev then e.next else e.prev
      let origin := e.members.getD x.rank 0
      let reason := bitsOf f.operand 0 8
      let status := if reason = 1 then 1 else if reason = 2 then 7 else if reason = 3 then 6 else 4
      (dst = origin → Gives (.collAbort) s (fun t => t.settledAs n c.tag status 0 ∧ t.fab.ports = s.fab.ports ∧ s.coresAndDevKept t ∧
        s.hostBut (s.slotOf n c.tag) 16 t)) ∧
      (∀ p dl, dst ≠ origin → s.route 0 s.node dst = some (p, dl) → Gives (.collAbort) s (fun t => t.settledAs n c.tag status 0 ∧
        (t.port p).queue = (s.port p).queue ++ [(s.now, {
          vc := 0, cls := if dl then 1 else 0, src := s.node, dst, opc := 0x12, operand := f.operand
          ext := some { x with cfgSeal := s.seal64 } })] ∧
        (∀ q, q ≠ p → t.port q = s.port q) ∧ s.coresAndDevKept t ∧ s.hostBut (s.slotOf n c.tag) 16 t))) ∧
    (∀ p dl, j.sentNext + 25000 ≤ s.now → s.now < j.sentPrev + 25000 → s.route 0 s.node j.next = some (p, dl) →
      Gives (.heartbeatTimer n c.tag) s (fun t => (t.port p).queue = (s.port p).queue ++ [(s.now, {
          vc := 0, cls := if dl then 1 else 0, src := s.node, dst := j.next, opc := 0x11
          ext := some { group := c.group, seq := c.seq, kind := c.collKind, rank := j.rank, cfgSeal := s.seal64 } })] ∧
        t.cmd? n c.tag = some { c with job := .coll { j with sentNext := s.now } } ∧ (∀ q, q ≠ p → t.port q = s.port q) ∧
        s.coresAndDevKept t ∧ t.host = s.host)) ∧
    (j.heardNext + 100000 ≤ s.now ∨ j.heardPrev + 100000 ≤ s.now → Gives (.collSilenceTimeout n c.tag) s (fun t =>
        t.settledAs n c.tag 6 0 ∧ s.coresAndDevKept t ∧ s.hostBut (s.slotOf n c.tag) 16 t))

/-- FMCAST, FAB_MCAST_RESEND and FAB_MCAST_DEADLINE. A fabric multicast reads its target list and runs; it sends its next 4,096 bytes to
its target as one MCAST frame on VC3 under a transaction of its own; a packet answered BUSY is sent again to that target once it is
due; 20 µs after the first frame the command ends PARTIAL (R426, R427, R486). -/
def Obligations.FabricMulticastsSendToEachTarget : Prop :=
  ∀ (s : State) (n a : Nat) (c : Cmd),
    let cnt := c.mcTargets
    (s.holds n c 0x0D .dispatched → 0 < cnt → cnt ≤ 64 → 0 < c.mcLen → c.mcLen ≤ 2 ^ 24 → c.mcLen % 8 = 0 → bitsOf (c.body 2) 25 7 = 0 →
      c.body 2 < 2 ^ 39 → s.localAt n (c.body 1) (16 * cnt) a false → s.xfer? n c.tag 0 = none →
      (∀ i < cnt, Memory.readLE s.dev (a + 16 * i) 8 % 8 = 0 ∧ Memory.readLE s.dev (a + 16 * i) 8 < 2 ^ 41 ∧
        Memory.readLE s.dev (a + 16 * i + 8) 8 < 2 ^ 14) →
      Gives (.fmcast n c.tag) s (fun t => (∃ d, t.cmd? n c.tag = some d ∧ d.phase = .running ∧ d.job = .mcast {
          targets := (List.range cnt).map (fun i => (Memory.readLE s.dev (a + 16 * i) 8, Memory.readLE s.dev (a + 16 * i + 8) 8))
          total := ceilDiv c.mcLen 4096, counts := List.replicate cnt 0 }) ∧
        t.fab = s.fab ∧ s.coresAndDevKept t ∧ s.hostBut (s.slotOf n c.tag) 16 t)) ∧
    (∀ j off node p dl, s.holds n c 0x0D .running → c.job = .mcast j → j.targets = [(off, node)] → j.dead = [] → off < 2 ^ 41 →
      node ≠ s.node → s.nodeFailed node = false → s.route 3 s.node node = some (p, dl) →
      let sent := fun (at_ len : Nat) (t : State) => ∃ i x, Store.get {} t.fab.txns i = x ∧ x.active = true ∧
        x.owner = .mcast n c.tag 0 ∧ (t.port p).queue = (s.port p).queue ++ [(s.now, {
          vc := 3, cls := if dl then 1 else 0, src := s.node, dst := node, opc := 6, xid := i * 256 + x.gen, addr := off + at_
          payload := Memory.bytes s.dev a len })] ∧
        (∀ q, q ≠ p → t.port q = s.port q) ∧ s.coresAndDevKept t ∧ t.host = s.host
      (j.next < j.total → s.xfer? n c.tag j.next = none →
        s.localAt n (c.body 0 + 4096 * j.next) (min 4096 (c.mcLen - 4096 * j.next)) a false →
        Gives (.fmcast n c.tag) s (fun t => sent (4096 * j.next) (min 4096 (c.mcLen - 4096 * j.next)) t ∧
          t.cmd? n c.tag = some { c with job := .mcast { j with
            next := j.next + 1, firstAt := if j.firstAt = 0 then s.now + 1 else j.firstAt } })) ∧
      (∀ r at_, s.fab.resends.find? (fun r => r.ctx == n && r.tag == c.tag) = some r → r.due ≤ s.now → r.target = 0 →
        r.frame.addr = off + at_ → s.xfer? n c.tag (1000000 + at_) = none →
        s.localAt n (c.body 0 + at_) (min 4096 (c.mcLen - at_)) a false → Gives (.fabMcastResend n c.tag) s (fun t =>
          sent at_ (min 4096 (c.mcLen - at_)) t ∧ t.fab.resends = s.fab.resends.erase r))) ∧
    (∀ j, s.holds n c 0x0D .running → c.job = .mcast j → j.firstAt ≠ 0 → j.firstAt - 1 + 20000 ≤ s.now →
      Gives (.fabMcastDeadline n c.tag) s (fun t => (∃ d, t.cmd? n c.tag = some d ∧ d.phase = .settled ∧ d.status = 3 ∧ d.position = j.delivered) ∧
        s.coresAndDevKept t ∧ s.hostBut (s.slotOf n c.tag) 16 t))

/-! ## The host's sync commands -/

/-- SYNC_INIT, SYNC_INIT_HOLD_END, SYNC_RETIRE, SYNC_SIGNAL, SYNC_WAIT, SYNC_WAIT_TIME_LIMIT and SYNC_DUMP on the local table. An init
of a free entry writes it whole, or is held until 100 µs have passed since a retire; a retire frees the entry under the next
generation, or counts a stale handle; a signal acts as SIG does and its outcome is the command's; a wait whose condition holds ends
OK, a TAKE subtracting, and else the command waits and the entry says that the host waits; a passed limit ends the wait with TIMEOUT;
a dump copies the next entry, and after the last one writes the header and ends OK. Only the entry named changes (R212 to R214, R441 to
R445, R447, R449, R458, R459, R465, R466). -/
def Obligations.HostSyncCommandsActOnTheTable : Prop :=
  ∀ (s : State) (n : Nat) (c : Cmd),
    let others := fun (i : Nat) (t : State) => (∀ j, j ≠ i → t.obj j = s.obj j) ∧ s.coresAndDevKept t
    let ended := fun (t : State) (st cause result : Nat) =>
      ∃ d, t.cmd? n c.tag = some d ∧ d.phase = .settled ∧ d.status = st ∧ d.cause = cause ∧ d.result = BitVec.ofNat 64 result
    let i := bitsOf (c.body 0) 0 16
    let kind := bitsOf (c.body 0) 16 2
    let parts := bitsOf (c.body 0) 32 16
    let written : SyncEntry := { s.obj i with
      counter := c.body 1 % 2 ^ 48, kind, owner := n, participants := if kind = 1 then parts else 0, even := 0, odd := 0, abandoned := false, frozen := false
      hsig := bitOf (c.body 2) 0, vector := bitsOf (c.body 2) 1 11, msix := bitOf (c.body 2) 12, blocks := 0 }
    let inited := fun (t : State) =>
      { t.obj i with host := (s.obj i).host, engine := (s.obj i).engine } = written ∧ others i t ∧ ended t 0 0 written.word0
    let entryOk := kind ≠ 3 ∧ ¬(kind = 1 ∧ parts = 0) ∧ s.objPoisoned i = false ∧ (s.obj i).kind = 3 ∧ c.job = .none
    let h := c.body 0
    let e := s.obj (hIndex h)
    let v := c.body 1 % 2 ^ 48
    let mode := bitsOf (c.body 1) 48 2
    (s.holds n c 0x10 .dispatched → bitsOf (c.body 0) 18 14 = 0 → c.body 0 < 2 ^ 48 → c.body 1 < 2 ^ 48 → c.body 2 < 2 ^ 13 → entryOk →
      (s.initHeld i = false → Gives (.syncInit n c.tag) s inited) ∧
      (s.initHeld i = true → Gives (.syncInit n c.tag) s (fun t => t.cmd? n c.tag = some { c with phase := .running } ∧ s.onlyCtx n t))) ∧
    (s.holds n c 0x10 .running → entryOk → s.initHeld i = false → Gives (.syncInitHoldEnd n c.tag) s inited) ∧
    (s.holds n c 0x11 .dispatched → h < 2 ^ 39 → s.hRemote h = false →
      (s.objPoisoned (hIndex h) = false → (e.kind = 3 ∨ hGen h ≠ e.gen) → Gives (.syncRetire n c.tag) s (fun t =>
        t.sync = { s.sync with stale := satAdd (2 ^ 64 - 1) s.sync.stale 1 } ∧ s.coresAndDevKept t ∧ ended t 0 0 (2 ^ 62))) ∧
      (s.objPoisoned (hIndex h) = true ∨ (e.kind ≠ 3 ∧ hGen h = e.gen) → Gives (.syncRetire n c.tag) s (fun t =>
        t.obj (hIndex h) = { gen := (hGen h + 1) % 256 } ∧ t.objPoisoned (hIndex h) = false ∧ others (hIndex h) t ∧ ended t 0 0 0))) ∧
    (s.holds n c 0x12 .dispatched → h < 2 ^ 39 → c.body 1 < 2 ^ 50 → s.hRemote h = false →
      let r := s.signalObj h v mode
      let gives := fun (st cause result : Nat) => Gives (.syncSignal n c.tag) s (fun t => t.sync = r.2.sync ∧ t.host = r.2.host ∧
        s.coresAndDevKept t ∧ ∃ d, t.cmd? n c.tag = some d ∧ d.phase = .settled ∧ d.status = st ∧ d.cause = cause ∧
          (st = 0 → d.result = BitVec.ofNat 64 result))
      (∀ q, r.1 = .applied q → gives 0 0 q) ∧ (r.1 = .stale → gives 0 0 (2 ^ 62)) ∧ (r.1 = .abandoned → gives 0 0 (2 * 2 ^ 62)) ∧
        (r.1 = .wrongKind → gives 4 3 0) ∧ (r.1 = .poisoned → gives 4 5 0) ∧ (r.1 = .overrun → gives 4 9 0)) ∧
    (s.holds n c 0x13 .dispatched → h < 2 ^ 39 → c.body 1 < 2 ^ 50 → s.hRemote h = false → s.objPoisoned (hIndex h) = false →
      e.kind ≠ 3 → hGen h = e.gen → e.abandoned = false →
      let kept := fun (t : State) => others (hIndex h) t ∧ { t.obj (hIndex h) with host := e.host, engine := e.engine } = e
      let wait : WaitJob := {
        index := hIndex h, gen := hGen h, mode, thr := v, deadline := if c.body 2 = 0 then 0 else s.now + c.body 2 + 1 }
      let waits := Gives (.syncWait n c.tag) s (fun t => t.cmd? n c.tag = some { c with phase := .running, job := .wait wait } ∧
        kept t ∧ (t.obj (hIndex h)).host = true)
      (mode = 0 → waitModeOk 0 e.kind = true → v ≤ e.counter → Gives (.syncWait n c.tag) s (fun t => kept t ∧ ended t 0 0 (e.counter % 2 ^ 48))) ∧
      (mode = 1 → waitModeOk 1 e.kind = true → v ≤ e.counter → Gives (.syncWait n c.tag) s (fun t =>
        (t.obj (hIndex h)).counter = e.counter - v ∧ others (hIndex h) t ∧ ended t 0 0 (e.counter % 2 ^ 48))) ∧
      (mode = 2 → waitModeOk 2 e.kind = true → roundReleased e.counter v = true →
        Gives (.syncWait n c.tag) s (fun t => kept t ∧ ended t 0 0 0)) ∧
      (mode < 2 → waitModeOk mode e.kind = true → e.counter < v → waits) ∧
      (mode = 2 → waitModeOk 2 e.kind = true → roundReleased e.counter v = false → waits)) ∧
    (∀ j : WaitJob, s.holds n c 0x13 .running → c.job = .wait j → j.deadline ≠ 0 → j.deadline ≤ s.now + 1 → (s.obj j.index).frozen = true →
      Gives (.syncWaitTimeLimit n c.tag) s (fun t => others j.index t ∧
        ended t 6 0 (2 * 2 ^ 62 + if j.mode = 2 then 0 else (s.obj j.index).counter % 2 ^ 48))) ∧
    (s.holds n c 0x14 .dispatched → c.body 0 % 256 = 0 → c.body 1 < 2 ^ 34 →
      let first := bitsOf (c.body 1) 0 16
      let count := bitsOf (c.body 1) 16 17
      0 < count → first + count ≤ 65536 → Gives (.syncDump n c.tag) s (fun t => s.coresAndDevKept t ∧ t.sync = s.sync ∧
        s.hostBut (s.slotOf n c.tag) 16 t ∧ ∃ d, t.cmd? n c.tag = some d ∧ d.phase = .running ∧
          d.job = .dump { total := count, first, next := first, waiters := bitOf (c.body 1) 33, start := s.now })) ∧
    (∀ (j : DumpJob) (a : Nat), s.holds n c 0x14 .running → c.job = .dump j →
      (j.next < j.first + j.total → s.localAt n (c.body 0 + 64 + 32 * (j.next - j.first)) 32 a true → s.objPoisoned j.next = false →
        Gives (.syncDump n c.tag) s (fun t => s.puts a (s.obj j.next).toBytes t ∧ t.host = s.host ∧ t.sync = s.sync ∧ t.cores = s.cores ∧
          t.cmd? n c.tag = some { c with job := .dump { j with next := j.next + 1 } })) ∧
      (j.first + j.total ≤ j.next → j.waiters = false → s.localAt n (c.body 0) 64 a true →
        Gives (.syncDump n c.tag) s (fun t => s.puts a (s.dumpHeader j) t ∧ t.host = s.host ∧ t.sync = s.sync ∧ t.cores = s.cores ∧
          t.settledAs n c.tag 0 0)))

/-! ## Contexts -/

/-- CTX_ENABLE, CTX_DISABLE, CTX_PREEMPT, CTX_RESUME, CTX_RESET and CTX_PT_ROOT_WRITE. Enabling within the ring sizes and with the page
and the completion ring at zero sets ENABLE and STATE running and starts every index at zero; a disabled context is in state 0 once it
owes nothing; pre-empting freezes the context's entries and asks its working cores to stop, the state being pre-empted once none works;
resuming withdraws the stops and, once no core stands stopped, thaws the entries; a reset of a context without commands and cores
abandons its entries, clears what Town Hall held and leaves it disabled; writing the root discards the cached translations and the
run-ahead data (R79, R84, R461, R462, R477, R479, R501, R502). -/
def Obligations.ContextsAreEnabledPreemptedAndReset : Prop :=
  ∀ (s : State) (n : Nat), n < 8 → s.ready = true →
    let ctrl := ctxCtrl n
    let regsBut := fun (t : State) => (∀ off, off ≠ ctrl → t.reg off = s.reg off) ∧
      ∀ i < 32, i ≠ 0 → i ≠ 1 → i ≠ 4 → i ≠ 5 → bitOf (t.reg ctrl) i = bitOf (s.reg ctrl) i
    let x := s.ctx n
    (s.ctxEnabled n = false → s.ctxState n = 0 → s.ctxPreempt n = false → s.anyFrozen n = false → s.ringSizesOk n = true →
      s.hostDirty (s.doorbell n) 4096 = false → s.hostDirty (s.cplBase n) (32 * 2 ^ s.cplLog n) = false →
      Gives (.ctxEnable n) s (fun t => t.ctxEnabled n = true ∧ t.ctxState n = 1 ∧ t.ctxPreempt n = false ∧ regsBut t ∧
        t.ctx n = { tlb := x.tlb, bankEven := x.bankEven, bankOdd := x.bankOdd
                    gateNext := x.gateNext, gateRead := x.gateRead, gateDone := x.gateDone } ∧
        (∀ m, m ≠ n → t.ctx m = s.ctx m) ∧ { t with regs := s.regs, ctxs := s.ctxs } = s)) ∧
    (s.ctxEnabled n = true → s.ctxState n = 1 ∨ s.ctxState n = 2 → s.ctxPreempt n = false → s.anyFrozen n = false →
      (x.cmds = [] → x.held = [] → Gives (.ctxDisable n) s (fun t => t.ctxEnabled n = false ∧ t.ctxState n = 0 ∧ t.ctxPreempt n = false ∧
        regsBut t ∧ { t with regs := s.regs } = s)) ∧
      (x.cmds ≠ [] → s.ctxState n = 1 → Gives (.ctxDisable n) s (fun t => t.ctxEnabled n = false ∧ t.ctxState n = 1 ∧
        t.ctxPreempt n = false ∧ regsBut t ∧ { t with regs := s.regs } = s))) ∧
    (s.ctxEnabled n = true → s.ctxState n = 1 → s.ctxPreempt n = false → Gives (.ctxPreempt n) s (fun t => t.ctxPreempt n = true ∧
      ((∀ c ∈ s.ctxCores n, s.active c = false) → t.ctxState n = 2) ∧
      ((∃ c, (s.core c).ctx = n ∧ s.active c = true) → t.ctxState n = 1) ∧
      (∀ i, t.obj i = if i ∈ s.ownedObjs n ∧ (s.obj i).abandoned = false then { s.obj i with frozen := true } else s.obj i) ∧
      (∀ c, t.core c = if c ∈ s.ctxCores n ∧ s.active c = true then { s.core c with stop := true } else s.core c) ∧
      regsBut t ∧ { t with regs := s.regs, cores := s.cores, sync := { t.sync with table := s.sync.table } } = s)) ∧
    (s.ctxEnabled n = true → s.ctxPreempt n = true →
      ((∃ c, (s.core c).ctx = n ∧ (s.core c).run = .stopped ∧ (s.core c).halted = false) → s.ctxState n ≠ 3 →
        Gives (.ctxResume n) s (fun t => t.ctxPreempt n = false ∧ t.ctxState n = s.ctxState n ∧ t.ctxEnabled n = true ∧
          (∀ c, t.core c = if c ∈ s.ctxCores n ∧ (s.core c).killed = false ∧ (s.core c).halted = false ∧ s.dbg ≠ .resetStop (coreBlock c)
            then { s.core c with stop := false } else s.core c) ∧ regsBut t ∧ { t with regs := s.regs, cores := s.cores } = s)) ∧
      (s.ctxState n = 2 → s.ctxCores n = [] → Gives (.ctxResume n) s (fun t => t.ctxPreempt n = false ∧ t.ctxState n = 1 ∧
        (∀ i, i ∉ s.ownedObjs n → t.obj i = s.obj i) ∧
        (∀ i ∈ s.ownedObjs n, let e := s.obj i
          (t.obj i).frozen = false ∧ { t.obj i with frozen := e.frozen, blocks := e.blocks, host := e.host, engine := e.engine } = e) ∧
        t.dev = s.dev ∧ t.poison = s.poison))) ∧
    (s.ctxState n ≠ 3 → x.cmds = [] → s.ctxCores n = [] → Gives (.ctxReset n) s (fun t => t.ctxEnabled n = false ∧ t.ctxState n = 0 ∧
      (∀ i ∈ s.ownedObjs n, (t.obj i).abandoned = true ∧ (t.obj i).frozen = false) ∧
      t.ctx n = { x with tlb := [], marked := [], held := [], bankEven := {}, bankOdd := {}, gateNext := none, gateRead := none, gateDone := [] } ∧
      t.dev = s.dev ∧ t.poison = s.poison)) ∧
    (∀ v : W64, bitsOf v.toNat 1 13 = 0 → bitsOf v.toNat 56 8 = 0 → x.cmds = [] → Gives (.ctxPtRootWrite n v) s (fun t =>
      t.ptRoot n = v.toNat ∧ (∀ off, off ≠ 0x480 + 8 * n → off ≠ 0x484 + 8 * n → t.reg off = s.reg off) ∧
      t.ctx n = { x with tlb := [] } ∧ (∀ m, m ≠ n → t.ctx m = s.ctx m) ∧
      (∀ c, t.core c = if (s.core c).run ≠ .idle ∧ (s.core c).ctx = n then (s.core c).discardAhead (fun _ => true) else s.core c) ∧
      { t with regs := s.regs, ctxs := s.ctxs, cores := s.cores } = s))

/-! ## The Square and the memory controllers -/

/-- SQUARE_SPLIT_APPLY, SQUARE_SPLIT_COMPLETE, SQUARE_BANK_REQUEST, CACHE_FILL_COMPLETE, MEMORY_LINE_ACCESS and PATROL_SCRUB_READ. A split is
taken while no command is outstanding, and its values are kept; when it completes, only bytes of units that change hands change and no set keeps a way beyond
its ways; a lone request at a bank is served, one for the other half goes to the Seam: a staging line is read or written under its byte enables, a hit marks its way, a miss
starts a fill and waits, and the fill's end serves it; a controller reads or writes an uncached line, five failures of an HBM3E command
being fatal; the patrol moves on by one codeword, and the end of a pass is shown (R34 to R48, R51, R55, R66 to R68, R524, R525). -/
def Obligations.SquareAndControllersServeLines : Prop :=
  ∀ (s : State), s.ready = true →
    (∀ v : W32, let w := bitsOf v.toNat 0 5; let e := bitsOf v.toNat 8 5
      w ≤ 16 → e ≤ 16 → (bitOf v.toNat 29 = false ∨ s.flag 0x400 30 = true ∨ s.anyOutstanding = false) →
      Gives (.squareSplitApply v) s (fun t => t.fld 0x400 0 5 = w ∧ t.fld 0x400 8 5 = e ∧ t.fld 0x400 16 5 = s.fld 0x400 16 5 ∧
        t.fld 0x400 24 5 = s.fld 0x400 24 5 ∧ t.flag 0x400 30 = (s.flag 0x400 30 || bitOf v.toNat 29) ∧
        t.flag 0x400 31 = (s.flag 0x400 31 && !bitOf v.toNat 31) ∧ (∀ off, off ≠ 0x400 → t.reg off = s.reg off) ∧ t.mem.split = (if bitOf v.toNat 29 = true ∧ s.flag 0x400 30 = false then (w, e) else s.mem.split) ∧
        { t with regs := s.regs, mem := { t.mem with split := s.mem.split } } = s)) ∧
    (s.flag 0x400 30 = true → s.mem.split.1 ≤ 16 → s.mem.split.2 ≤ 16 → s.lostFree →
      let units := fun (half : Nat) => if half = 0 then s.mem.split.1 else s.mem.split.2
      Gives (.squareSplitComplete) s (fun t => t.flag 0x400 30 = false ∧ t.flag 0x400 31 = true ∧
        (∀ half < 2, t.stagingUnits half = units half ∧
          ∀ i < 16384, ∀ k, 16 * (16 - units half) ≤ k → (t.cacheSet half i).way k = {}) ∧
        (∀ x, (∀ half < 2, let base := squareBase + half * 2 ^ 30
            ¬(base + min (s.stagingUnits half) (units half) * 2 ^ 26 ≤ x ∧ x < base + max (s.stagingUnits half) (units half) * 2 ^ 26)) →
          Memory.byte t.dev x = Memory.byte s.dev x) ∧
        (∀ off, off ≠ 0x400 → t.reg off = s.reg off) ∧ t.host = s.host ∧ t.cores = s.cores)) ∧
    (∀ (half bank clk : Nat) (r : SqReq), half < 2 → bank < 128 → s.reqFits half bank r = true → Store.get [] s.mem.banks (half * 128 + bank) = [] →
      Store.get [] s.mem.seamIn half = [] → Store.get 0 s.mem.clock half < clk → s.lostFree →
      (s.bankServes half bank r.addr = false → Gives (.squareBankRequest half bank clk [r] []) s (fun t =>
        Store.get [] t.mem.seamReqs half = Store.get [] s.mem.seamReqs half ++ [{ r with since := clk, missed := false, origin := none }] ∧
        t.mem.sets = s.mem.sets ∧ t.mem.done = s.mem.done ∧ t.dev = s.dev ∧ t.poison = s.poison)) ∧
      (s.bankServes half bank r.addr = true →
      let served := fun (t : State) => Store.get [] t.mem.banks (half * 128 + bank) = [] ∧
        Store.get 0 t.mem.turn (half * 128 + bank) = r.port + 1 ∧ t.cores = s.cores ∧ t.ctxs = s.ctxs
      let i := setIndex r.addr
      let x := s.cacheSet half i
      let done := fun (t : State) => ∃ d, t.mem.done = s.mem.done ++ [d] ∧ d.port = r.port ∧ d.addr = r.addr ∧ d.write = r.write ∧
        d.data = BitVec.ofNat 2048 (t.devRead r.addr 256)
      (s.isStaging r.addr = true → r.write = true → Gives (.squareBankRequest half bank clk [r] []) s (fun t => served t ∧ done t ∧
        t.mem.sets = s.mem.sets ∧ ∀ y, Memory.byte t.dev y =
          if r.addr ≤ y ∧ y < r.addr + 256 ∧ bitOf r.mask (y - r.addr) = true then BitVec.ofNat 8 (r.data.toNat / 2 ^ (8 * (y - r.addr)))
          else Memory.byte s.dev y)) ∧
      (s.isStaging r.addr = true → r.write = false → Gives (.squareBankRequest half bank clk [r] []) s (fun t => served t ∧ done t ∧
        t.mem.sets = s.mem.sets ∧ t.dev = s.dev ∧ t.poison = s.poison)) ∧
      (∀ w, s.isStaging r.addr = false → r.write = false → x.find r.addr (s.wayCount half) = some w → (x.way w).filling = false →
        Gives (.squareBankRequest half bank clk [r] []) s (fun t => served t ∧ done t ∧ t.dev = s.dev ∧ t.poison = s.poison ∧
          t.cacheSet half i = x.setWay w { x.way w with ref := (x.way w).ref || r.demand })) ∧
      (∀ w x1, s.isStaging r.addr = false → r.whole = false → r.demand = true → 0 < s.wayCount half → x.find r.addr (s.wayCount half) = none →
        x.victim (s.wayCount half) = some (w, x1) → Gives (.squareBankRequest half bank clk [r] []) s (fun t => served t ∧
          t.cacheSet half i = x1.setWay w { filling := true, ref := !r.stp, line := r.addr } ∧ t.mem.done = s.mem.done ∧
          t.mem.waits = s.mem.waits ++ [⟨half, i, { r with since := clk, missed := true, origin := none }⟩] ∧ t.dev = s.dev ∧ t.poison = s.poison)))) ∧
    (∀ (half way : Nat) (r : SqReq), let i := setIndex r.addr; let x := s.cacheSet half i; let y := x.way way
      y.filling = true → y.drop = false → y.line = r.addr → x.find r.addr (s.wayCount half) = some way →
      (s.mem.waits.filter (fun w => w.half == half && w.set == i)) = [⟨half, i, r⟩] → s.isStaging r.addr = false → r.write = false → r.origin = none →
      Gives (.cacheFillComplete half i way) s (fun t =>
        t.cacheSet half i = x.setWay way { y with filling := false, valid := true, ref := y.ref || (r.demand && !r.missed) } ∧
        (∃ d, t.mem.done = s.mem.done ++ [d] ∧ d.port = r.port ∧ d.addr = r.addr ∧ d.write = false ∧
          d.data = BitVec.ofNat 2048 (s.devRead r.addr 256)) ∧
        t.mem.waits = s.mem.waits.filter (fun w => !(w.half == half && w.set == i)) ∧ t.dev = s.dev ∧ t.poison = s.poison)) ∧
    (∀ (line : Nat) (data : BitVec 2048) (poison : BitVec 32) (flips : List (Nat × W80)),
      (isHbm line = true ∨ isTier2 line = true) → line % 256 = 0 →
      (s.isCached line = false → Gives (.memoryLineAccess line true data poison flips 0) s (fun t =>
        (∀ y, Memory.byte t.dev y = if line ≤ y ∧ y < line + 256 then BitVec.ofNat 8 (data.toNat / 2 ^ (8 * (y - line))) else Memory.byte s.dev y) ∧
        (∀ k < 32, t.isPoisoned (line + 8 * k) = bitOf poison.toNat k) ∧ t.host = s.host ∧ t.cores = s.cores ∧
        ∃ d, t.mem.done = s.mem.done ++ [d] ∧ d.addr = line ∧ d.write = true ∧ d.data = data ∧ d.poison = poison ∧
          d.check = checkBlock data poison)) ∧
      (s.isCached line = false → Gives (.memoryLineAccess line false data poison [] 0) s (fun t => t.dev = s.dev ∧ t.poison = s.poison ∧
        t.cores = s.cores ∧ ∃ d, t.mem.done = s.mem.done ++ [d] ∧ d.addr = line ∧ d.write = false ∧
          d.data = BitVec.ofNat 2048 (s.devRead line 256))) ∧
      (∀ write fails, isHbm line = true → 5 ≤ fails → Gives (.memoryLineAccess line write data poison flips fails) s (fun t =>
        t.boot = 7 ∧ t.reg 0x800 = 1 + 5 * 2 ^ 8 ∧ t.dev = s.dev ∧ ∀ c, (t.core c).run = .idle))) ∧
    (∀ half kind, half < 2 → kind < 3 → s.fld 0x408 (8 * kind) 8 ≠ 0 →
      let key := 2 * kind + half
      let i := Store.get 0 s.mem.patrol key
      (i + 1 ≠ patrolLength kind → Gives (.patrolScrubRead half kind 0) s (fun t => Store.get 0 t.mem.patrol key = i + 1 ∧
        t.mem.passes = s.mem.passes ∧ t.dev = s.dev ∧ t.poison = s.poison ∧ t.cores = s.cores)) ∧
      (i + 1 = patrolLength kind → Gives (.patrolScrubRead half kind 0) s (fun t => Store.get 0 t.mem.patrol key = 0 ∧
        Store.get 0 t.mem.passes key = Store.get 0 s.mem.passes key + 1 ∧ t.dev = s.dev ∧ t.poison = s.poison ∧
        (Store.get 0 s.mem.passes key < Store.get 0 s.mem.passes (2 * kind + (1 - half)) → t.flag 0x408 (24 + kind) = true))))

/-! ## Upkeep, errors, power and temperature -/

/-- Memory upkeep: HBM_TEMP_SAMPLE, HBM_REFRESH, LPDDR_REFRESH_RATE_READ, LPDDR_REFRESH, WCK_TRACKING and ZQ_CALIBRATION. A stack's reading is
kept and from 85 °C its refresh rate doubles; each refresh command is counted for its stack or interface (the counts are the model's,
assumption 49); the multiplier read applies, and a refresh management command a device requests is given; a training result in range ends the count of results out of range, one out of range adds
to it, and the fourth in a row stops a READY device with source LP_IF. Errors and power: FATAL_ERROR, PM_DUMP, ERR_SEL_CLEAR, ERR_THRESHOLD_WINDOW, POWER_CONTROL_TICK, THERMAL_CONTROL_TICK, FAST_CLAMP, FAST_CLAMP_RELEASE,
THERMAL_TRIP and CLK_LIMIT_WRITE. A fatal source on a READY device records source, unit and time, stops every core, asserts FAIL_N, fences
the fabric and sends FAIL on every port that is up; a further one sets MULTIPLE; the dump of a failed device puts the sync table with
its header and wait records at the address written; CLEAR zeroes the four counts of the unit selected; a new window begins for every
unit; each tick moves its ladder as the limits say; the clamp holds the Blocks at 4/8; a ceiling field takes 1 to 8 only (R54, R57, R433, R466, R467, R524, R525, R528, R532 to R534, R554 to R561). -/
def Obligations.UpkeepErrorsAndPowerAreHandled : Prop :=
  (∀ (s : State),
     let power := fun (t : State) (p : Power) => t = { s with plat := { s.plat with power := p } }
     let p := s.plat.power
     (∀ stack temp, stack < 8 → Gives (.hbmTempSample stack temp) s (fun t => ∃ q, power t q ∧ Store.get 0 q.stackTemp stack = temp ∧
       Store.get false q.refresh2x stack = decide (85 ≤ temp) ∧
       (∀ k, k ≠ stack → Store.get 0 q.stackTemp k = Store.get 0 p.stackTemp k ∧ Store.get false q.refresh2x k = Store.get false p.refresh2x k) ∧
       { q with stackTemp := p.stackTemp, refresh2x := p.refresh2x } = p)) ∧
     (∀ i, 2 ≤ s.boot →
       let counted := fun (k : Nat) (t : State) => ∃ q, power t q ∧ Store.get 0 q.refreshes k = Store.get 0 p.refreshes k + 1 ∧
         (∀ j, j ≠ k → Store.get 0 q.refreshes j = Store.get 0 p.refreshes j) ∧ { q with refreshes := p.refreshes } = p
       (i < 8 → Gives (.hbmRefresh i) s (counted i)) ∧ (i < 2 → Gives (.lpddrRefresh i) s (counted (8 + i)))) ∧
     (∀ i rate rfm, i < 2 → Gives (.lpddrRefreshRateRead i { rate, rfm }) s (fun t =>
       Store.get 8 t.plat.power.lpRate i = rate ∧ (∀ j, j ≠ i → Store.get 8 t.plat.power.lpRate j = Store.get 8 p.lpRate j) ∧
       Store.get 0 t.mem.rfm i = Store.get 0 s.mem.rfm i + (if rfm then 1 else 0) ∧
       (∀ j, j ≠ i → Store.get 0 t.mem.rfm j = Store.get 0 s.mem.rfm j) ∧
       { t with plat := { t.plat with power := { t.plat.power with lpRate := p.lpRate } }, mem := { t.mem with rfm := s.mem.rfm } } = s)) ∧
     (∀ i < 2,
       let failed := fun (t : State) => t.boot = 7 ∧ t.reg 0x800 = 2 + 6 * 2 ^ 8 ∧ t.dev = s.dev ∧ ∀ c, (t.core c).run = .idle
       (∀ ok, ok = true ∨ Store.get 0 p.wckBad i < 3 → Gives (.wckTracking i ok) s (fun t => ∃ q, power t q ∧
         Store.get 0 q.wckBad i = (if ok then 0 else Store.get 0 p.wckBad i + 1) ∧
         (∀ j, j ≠ i → Store.get 0 q.wckBad j = Store.get 0 p.wckBad j) ∧ { q with wckBad := p.wckBad } = p)) ∧
       (∀ ok, ok = true ∨ Store.get 0 p.zqBad i < 3 → Gives (.zqCalibration i ok) s (fun t => ∃ q, power t q ∧
         Store.get 0 q.zqBad i = (if ok then 0 else Store.get 0 p.zqBad i + 1) ∧
         (∀ j, j ≠ i → Store.get 0 q.zqBad j = Store.get 0 p.zqBad j) ∧ { q with zqBad := p.zqBad } = p)) ∧
       (s.ready = true → 3 ≤ Store.get 0 p.wckBad i → Gives (.wckTracking i false) s failed) ∧
       (s.ready = true → 3 ≤ Store.get 0 p.zqBad i → Gives (.zqCalibration i false) s failed))) ∧
  (∀ (s : State),
     let p := s.plat.power
     (∀ source cls unit info, 1 ≤ source → source ≤ 0x0B →
       (s.ready = true → cls < 256 → unit < 65536 → Gives (.fatalError source cls unit info) s (fun t =>
         t.boot = 7 ∧ t.reg 0x800 = source + cls * 2 ^ 8 ∧ t.fld 0x804 0 16 = unit ∧ t.reg64 0x808 = s.now % 2 ^ 64 ∧ t.flag 0x804 21 = true ∧
         t.flag 0x804 16 = fatalRecords source ∧ t.flag 0x804 18 = fatalDump source ∧
         t.plat.pins.fail = true ∧ (source = 9 → t.plat.pins.thermtrip = true) ∧ t.fab.fenced = true ∧
         (∀ q ∈ s.upPorts, (t.port q).queue = [] ∧ (t.port q).out = (s.port q).out ++ [WireFrame.bytes {
           dst := (s.port q).peerMac, src := macOf s.node q, frame := .data (s.port q).nextSeq (s.port q).lastSeq
             ((s.port q).freed.map (· % 65536)) { src := s.node, dst := s.peerNode q, opc := 0x30 } }]) ∧
         (∀ c, (t.core c).run = .idle ∧ (t.core c).queue = [] ∧ (t.core c).works = []) ∧ (∀ n, (t.ctx n).cmds = []) ∧
         t.dev = s.dev ∧ t.sync = s.sync)) ∧
       (s.boot = 7 → source ≠ 9 → Gives (.fatalError source cls unit info) s (fun t => t.flag 0x804 22 = true ∧
         (∀ i < 32, i ≠ 22 → bitOf (t.reg 0x804) i = bitOf (s.reg 0x804) i) ∧ (∀ off, off ≠ 0x804 → t.reg off = s.reg off) ∧
         { t with regs := s.regs } = s))) ∧
     (∀ v : W64, s.boot = 7 → s.flag 0x804 18 = true → s.flag 0x804 19 = false →
       let addr := bitsOf v.toNat 8 46 * 2 ^ 8
       let bs := s.postMortem.bytes
       (bitOf v.toNat 0 = true → Gives (.pmDump v) s (fun t => t.reg64 0x818 = addr ∧ t.flag 0x804 20 = true ∧
         (∀ y, Memory.byte t.host y = if addr ≤ y ∧ y < addr + bs.length then bs.getD (y - addr) 0 else Memory.byte s.host y) ∧
         { t with regs := s.regs, host := s.host, hostEp := s.hostEp } = s)) ∧
       (bitOf v.toNat 0 = false → Gives (.pmDump v) s (fun t => t.reg64 0x818 = addr ∧ { t with regs := s.regs } = s))) ∧
     (∀ v : W32, s.ready = true →
       let cls := bitsOf v.toNat 0 8
       let unit := bitsOf v.toNat 8 16
       let u := s.unitErr cls unit
       (bitOf v.toNat 31 = true → cls ≤ 4 → Gives (.errSelClear v) s (fun t => t.reg 0x840 = v.toNat % 2 ^ 26 ∧
         t.unitErr cls unit = { u with
           single := 0, double := 0, uncorrectable := 0, poisoned := 0
           addrSingle := 0, addrDouble := 0, addrUncorrectable := 0, addrPoisoned := 0 } ∧
         (∀ k, k ≠ cls * 65536 + unit → Store.get {} t.err.units k = Store.get {} s.err.units k) ∧
         { t with regs := s.regs, err := { t.err with units := s.err.units } } = s)) ∧
       (bitOf v.toNat 31 = false → Gives (.errSelClear v) s (fun t => t.reg 0x840 = v.toNat % 2 ^ 26 ∧ { t with regs := s.regs } = s))) ∧
     (s.fld 0x834 0 16 ≠ 0 → s.now % (s.fld 0x834 0 16 * 1000000000) = 0 → Gives .errThresholdWindow s (fun t =>
       (∀ cls unit, (t.unitErr cls unit).window = 0 ∧ (t.unitErr cls unit).reported = false) ∧
       { t with err := { t.err with units := s.err.units } } = s)) ∧
     (∀ p100 p1ms mj, 
       let read := fun (t : State) => t.fld 0x2004 0 11 = p1ms % 2 ^ 11 ∧ t.reg64 0x2018 = (s.reg64 0x2018 + mj) % 2 ^ 64 ∧
         t.dev = s.dev ∧ t.cores = s.cores
       (s.ready = false → Gives (.powerControlTick p100 p1ms mj) s (fun t => read t ∧ { t with regs := s.regs } = s)) ∧
       (s.ready = true → s.limitW < p100 → Gives (.powerControlTick p100 p1ms mj) s (fun t => read t ∧
         t.plat.power.ladder = min 19 (p.ladder + 1) ∧ t.fld 0x200C 0 4 ≤ (powerK (min 19 (p.ladder + 1))).1)) ∧
       (s.ready = true → p100 ≤ s.limitW → 95 * s.limitW ≤ 100 * p100 → Gives (.powerControlTick p100 p1ms mj) s (fun t => read t ∧
         t.plat.power.ladder = p.ladder ∧ t.plat.power.low = 0)) ∧
       (s.ready = true → 100 * p100 < 95 * s.limitW → p.low < 10 → Gives (.powerControlTick p100 p1ms mj) s (fun t => read t ∧
         t.plat.power.ladder = (if p.low = 9 then p.ladder - 1 else p.ladder)))) ∧
     (∀ (half : Nat) (tj stack : Int), half < 2 → s.ready = true →
       let steps := fun (q : Power) (h : Nat) => if h = 0 then q.thermW else q.thermE
       let common := fun (t : State) => t.fld 0x2008 (10 * half) 10 = intBits 10 tj ∧
         steps t.plat.power (1 - half) = steps p (1 - half) ∧ t.dev = s.dev ∧ t.cores = s.cores
       ((400 ≤ tj ∨ 95 ≤ stack) → Gives (.thermalControlTick half tj stack) s (fun t => common t ∧
         steps t.plat.power half = min 19 (steps p half + 1))) ∧
       (tj < 400 → stack < 95 → (388 ≤ tj ∨ 92 ≤ stack) → Gives (.thermalControlTick half tj stack) s (fun t => common t ∧
         steps t.plat.power half = steps p half)) ∧
       (tj < 388 → stack < 92 → Gives (.thermalControlTick half tj stack) s (fun t => common t ∧
         steps t.plat.power half = (if (if half = 0 then p.coolW else p.coolE) = 9 then steps p half - 1 else steps p half)))) ∧
     (s.plat.boot.running = true → Gives .fastClamp s (fun t => t.plat.power.clamp = true ∧ t.flag 0x2004 28 = true ∧
       t.fld 0x200C 0 4 ≤ 4 ∧ t.fld 0x200C 4 4 ≤ 4 ∧ t.dev = s.dev ∧ t.cores = s.cores)) ∧
     Gives .fastClampRelease s (fun t => t.plat.power.clamp = false ∧ t.flag 0x2004 28 = false ∧ t.dev = s.dev ∧ t.cores = s.cores) ∧
     (s.ready = true → Gives .thermalTrip s (fun t => t.boot = 7 ∧ t.reg 0x800 = 9 + 0x0A * 2 ^ 8 ∧ t.plat.pins.thermtrip = true ∧
       t.plat.pins.fail = true ∧ (∀ c, (t.core c).run = .idle) ∧ t.dev = s.dev)) ∧
     (∀ v : W32, s.ready = true → Gives (.clkLimitWrite v) s (fun t => t.dev = s.dev ∧ t.cores = s.cores ∧ ∀ i < 4,
       let new := bitsOf v.toNat (4 * i) 4
       t.fld 0x2010 (4 * i) 4 = if 1 ≤ new ∧ new ≤ 8 then new else s.fld 0x2010 (4 * i) 4)))

/-! ## The fabric: ports, links and requests -/

/-- The setup of the fabric and its links: FABRIC_ENABLE, FABRIC_DISABLE, SEAL_APPLY, SEAL_COMPLETE, ROUTE_DATA_WRITE, FAIL_CLEAR,
PORT_CTRL_WRITE, PORT_TRAINING_COMPLETE, HELLO_TIMER, HELLO, RX_SILENCE_TIMEOUT, DATA_FRAME_RECEIVE, CONTROL, REPLAY_REQ, FENCED,
FRAME_TRANSMIT, LACK_REPORT_TIMER, REPLAY_TIMEOUT, LINK_IDLE_TIMER, FENCED_TIMER and FAIL. Enabling starts the seal, and the seal in
force the training of every enabled port; disabling takes every port down and ends every transaction; HELLO goes to the broadcast address and any other frame to the address of the peer's port;
a frame of another EtherType, VER or address is discarded; the seal in force is the digest of R428; a matching HELLO with ACK brings the link up; a
frame in sequence for this node is delivered once and frees its blocks, a gap or an error asks for replay, a repeat is dropped; LACK
retires frames and a replay sends the rest again; a frame with credit goes out under the next LSEQ and one too old is discarded; a
failed node is marked and named to the other ports (R382 to R387, R397 to R405, R428, R429, R433, R434, R436, R437). -/
def Obligations.LinksCarryFramesInSequence : Prop :=
  ∀ (s : State),
    let onlyFab := fun (t : State) (f : Fabric) => t = { s with fab := f }
    (s.ready = true → s.flag 0x600 15 = false → Gives .fabricEnable s (fun t => t.flag 0x600 15 = true ∧ t.flag 0x600 17 = true ∧
      (∀ i < 32, i ≠ 15 → i ≠ 17 → bitOf (t.reg 0x600) i = bitOf (s.reg 0x600) i) ∧ t.fab.collSeq = [] ∧
      { t with regs := s.regs, fab := { t.fab with collSeq := s.fab.collSeq } } = s)) ∧
    (s.ready = true → s.flag 0x600 15 = true → Gives .fabricDisable s (fun t => t.flag 0x600 15 = false ∧
      (∀ p < 24, (t.port p).phase = .down) ∧
      (∀ i, (Store.get {} s.fab.txns i).gen < 256 → (Store.get {} t.fab.txns i).active = false))) ∧
    (s.ready = true → s.groupWork = false → Gives .sealApply s (fun t => t.flag 0x600 17 = true ∧
      (∀ i < 32, i ≠ 17 → bitOf (t.reg 0x600) i = bitOf (s.reg 0x600) i) ∧ { t with regs := s.regs } = s)) ∧
    (s.flag 0x600 17 = true → Gives .sealComplete s (fun t => t.flag 0x600 17 = false ∧ t.flag 0x600 18 = true ∧
      (∀ i < 8, t.reg (0xC0 + 4 * i) = sm3 s.sealBytes / 2 ^ (32 * i) % 2 ^ 32) ∧
      (∀ off, off ≠ 0x600 → ¬(0xC0 ≤ off ∧ off < 0xE0) → t.reg off = s.reg off) ∧
      (∀ p < 24, t.port p = if s.flag 0x600 15 = true ∧ s.flag (portCtrl p) 0 = true ∧ p < s.portCount ∧ (s.port p).phase = .down
        then { phase := .training, out := (s.port p).out } else s.port p) ∧
      { t with regs := s.regs, plat := s.plat, fab := { t.fab with ports := s.fab.ports } } = s)) ∧
    (∀ v : W32, s.ready = true → let i := s.fld 0x610 0 14
      Gives (.routeDataWrite v) s (fun t => Store.get 0 t.fab.route i = v &&& 0x1FFF ∧
        (∀ j, j ≠ i → Store.get 0 t.fab.route j = Store.get 0 s.fab.route j) ∧
        t.fld 0x610 0 14 = (if s.flag 0x610 31 = true then (i + 1) % 2 ^ 14 else i) ∧ (∀ off, off ≠ 0x610 → t.reg off = s.reg off) ∧
        { t with regs := s.regs, fab := { t.fab with route := s.fab.route } } = s)) ∧
    (∀ v : W32, s.ready = true → Gives (.failClear v) s (fun t =>
      (∀ n, t.nodeFailed n = if bitOf v.toNat 31 = true ∨ n = bitsOf v.toNat 0 14 then false else s.nodeFailed n) ∧
      onlyFab t { s.fab with failed := t.fab.failed })) ∧
    (∀ (p : Nat) (v : W32), s.ready = true → p < s.portCount →
      (s.flag (portCtrl p) 0 = false → bitOf v.toNat 0 = true → s.flag 0x600 15 = true → (s.port p).phase = .down →
        s.flag 0x600 17 = false → Gives (.portCtrlWrite p v) s (fun t => t.fld (portCtrl p) 0 4 = bitsOf v.toNat 0 4 ∧
          t.port p = { phase := .training, out := (s.port p).out } ∧ (∀ q, q ≠ p → t.port q = s.port q) ∧
          (∀ off, off ≠ portCtrl p → t.reg off = s.reg off) ∧ { t with regs := s.regs, fab := { t.fab with ports := s.fab.ports } } = s)) ∧
      (s.flag (portCtrl p) 0 = true → bitOf v.toNat 0 = false → Gives (.portCtrlWrite p v) s (fun t =>
        t.flag (portCtrl p) 0 = false ∧ t.fld (portCtrl p) 1 3 = s.fld (portCtrl p) 1 3 ∧ (t.port p).phase = .down))) ∧
    (∀ p < 24,
      let x := s.port p
      let ctrl := portCtrl p
      let one := fun (t : State) (y : Port) => t.port p = y ∧ (∀ q, q ≠ p → t.port q = s.port q) ∧ onlyFab t { s.fab with ports := t.fab.ports }
      let hello := fun (heard : Bool) => LinkFrame.hello s.node p (s.flag ctrl 3) (s.flag 0x600 14) (s.flag ctrl 1) heard s1Grant
      let freed := x.freed.map (· % 65536)
      let wire := fun (f : LinkFrame) => ({ dst := x.peerMac, src := macOf s.node p, frame := f } : WireFrame).bytes
      let cast := fun (f : LinkFrame) => ({ dst := macBroadcast, src := macOf s.node p, frame := f } : WireFrame).bytes
      (x.phase = .training → s.fab.fenced = false → Gives (.portTrainingComplete p) s (fun t =>
        one t { x with phase := .hello, out := x.out ++ [cast (hello x.heard)], sentAt := s.now })) ∧
      (x.phase = .hello → s.fab.fenced = false → x.sentAt + 1000 ≤ s.now → Gives (.helloTimer p) s (fun t =>
        one t { x with out := x.out ++ [cast (hello x.heard)], sentAt := s.now })) ∧
      (∀ node port leaf lane fec ack grant, s.fab.fenced = false →
        (x.phase = .up → Gives (.hello p node port leaf lane fec ack grant) s (fun t => one t { x with heardAt := s.now })) ∧
        (x.phase = .hello →
        (lane ≠ s.flag 0x600 14 ∨ fec ≠ s.flag ctrl 1 ∨ node % 2 ^ 14 = s.node ∨ s.nodeFailed (node % 2 ^ 14) = true →
          Gives (.hello p node port leaf lane fec ack grant) s (fun t => onlyFab t { s.fab with badHello := s.fab.badHello + 1 })) ∧
        (lane = s.flag 0x600 14 → fec = s.flag ctrl 1 → node % 2 ^ 14 ≠ s.node → s.nodeFailed (node % 2 ^ 14) = false →
          Gives (.hello p node port leaf lane fec ack grant) s (fun t => t.peerNode p = node % 2 ^ 14 ∧ t.flag ctrl 26 = leaf ∧
            (t.port p).peerPort = port % 256 ∧ (t.port p).peerMac = macOf node port ∧ (t.port p).grant = grant.take 4 ∧ (t.port p).heard = true ∧
            (∀ q, q ≠ p → t.port q = s.port q) ∧ (∀ off, off ≠ ctrl → t.reg off = s.reg off) ∧
            (ack = false → (t.port p).phase = .hello ∧ (t.port p).out = x.out ∧ t.flag ctrl 8 = s.flag ctrl 8) ∧
            (ack = true → (t.port p).phase = .up ∧ (t.port p).out = x.out ++ [cast (hello true)] ∧ t.flag ctrl 8 = true ∧ t.flag ctrl 9 = false) ∧
            { t with regs := s.regs, fab := { t.fab with ports := s.fab.ports } } = s)))) ∧
      (x.phase = .up → x.heardAt + 10000 ≤ s.now → Gives (.rxSilenceTimeout p) s (fun t => t.flag ctrl 8 = false ∧ t.flag ctrl 10 = true ∧
        (t.port p).phase = if s.flag 0x600 15 = true ∧ s.flag ctrl 0 = true then .training else .down)) ∧
      (x.phase = .up → s.fab.fenced = true → x.sentAt + 1000 ≤ s.now → Gives (.fencedTimer p) s (fun t =>
        one t { x with out := x.out ++ [wire (.fenced x.lastSeq freed)], sentAt := s.now })) ∧
      (x.phase = .up → s.fab.fenced = false →
        let sends := fun (f : LinkFrame) (t : State) => one t { x with lackDue := 0, out := x.out ++ [wire f], sentAt := s.now }
        let again := fun (y : Port) (t : State) => t.port p = { y with
          out := x.out ++ y.uncovered.map (fun (q : Nat × Frame) => wire (.data q.1 x.lastSeq freed q.2))
          resends := y.resends + 1, progressAt := s.now, sentAt := s.now, lackDue := 0 } ∧ ∀ q, q ≠ p → t.port q = s.port q
        (x.lackDue ≠ 0 → Gives (.lackReportTimer p) s (sends (.control x.lastSeq freed))) ∧
        (x.sentAt + 1000 ≤ s.now → Gives (.linkIdleTimer p) s (sends (.control x.lastSeq freed))) ∧
        (x.uncovered ≠ [] → x.progressAt + 2000 ≤ s.now → x.resends < 4 → Gives (.replayTimeout p) s (again x)) ∧
        (x.uncovered ≠ [] → x.progressAt + 2000 ≤ s.now → 4 ≤ x.resends → Gives (.replayTimeout p) s (fun t => (t.port p).phase ≠ .up)) ∧
        (∀ (lack : Nat) (credit : List Nat),
          let left := x.uncovered.filter (fun (q : Nat × Frame) => !covers lack q.1)
          let moved := left.length < x.uncovered.length
          let noted : Port := { x with
            uncovered := left, peerCredit := credit, heardAt := s.now
            resends := if moved then 0 else x.resends, progressAt := if moved then s.now else x.progressAt }
          Gives (.control p lack credit) s (fun t => one t noted) ∧
          (left ≠ [] → noted.resends < 4 → Gives (.replayReq p lack credit) s (again noted)) ∧
          (∀ (lseq : Nat) (f : Frame) (eth : EthHdr),
            let mine := eth.fcs = true ∧ eth.etherType = 0x88B5 ∧ eth.ver = 1 ∧ eth.dst = 0x024652000000 + s.node * 2 ^ 8 + p
            (eth.fcs = true → ¬mine → Gives (.dataFrameReceive p lseq lack credit f eth) s (fun t =>
              onlyFab t { s.fab with discarded := s.fab.discarded + 1 })) ∧
            (eth.fcs = false → Gives (.dataFrameReceive p lseq lack credit f eth) s (fun t =>
              t.port p = { x with lackDue := 0, out := x.out ++ [wire (.replayReq x.lastSeq freed)], sentAt := s.now } ∧
              t.fab.discarded = s.fab.discarded + 1 ∧ t.fab.inbox = s.fab.inbox)) ∧
            (mine → lseq % 65536 ≠ (x.lastSeq + 1) % 65536 → covers x.lastSeq (lseq % 65536) = true →
              Gives (.dataFrameReceive p lseq lack credit f eth) s (fun t => one t noted)) ∧
            (mine → lseq % 65536 ≠ (x.lastSeq + 1) % 65536 → covers x.lastSeq (lseq % 65536) = false →
              Gives (.dataFrameReceive p lseq lack credit f eth) s (fun t =>
                one t { noted with lackDue := 0, out := x.out ++ [wire (.replayReq x.lastSeq freed)], sentAt := s.now })) ∧
            (mine → lseq % 65536 = (x.lastSeq + 1) % 65536 → f.opc ≠ 0x30 → knownOpc f.opc = true → (f.opc = 6 → s.mcastWaiting < 64) → s.nodeFailed f.src = false → f.age < 1000 →
              f.dst = s.node → s.anyEarlyFull = false → Gives (.dataFrameReceive p lseq lack credit f eth) s (fun t =>
                t.port p = { noted with
                  lastSeq := lseq % 65536, lackDue := if x.lackDue = 0 then s.now + 1 else x.lackDue
                  freed := addAt x.freed f.vc f.blocks } ∧
                (∀ q, q ≠ p → t.port q = s.port q) ∧ onlyFab t { s.fab with ports := t.fab.ports, inbox := s.fab.inbox ++ [f] })))) ∧
        (∀ vc cls (q : Nat × Frame), x.queue.find? (fun q => q.2.vc == vc && q.2.cls == cls) = some q →
          let age := q.2.age + ceilDiv (s.now - q.1) 100 + 1
          (age < 1000 → s.mayTransmit p q.2 = true → Gives (.frameTransmit p vc cls) s (fun t => t.port p = { x with
              queue := x.queue.erase q, out := x.out ++ [wire (.data x.nextSeq x.lastSeq freed { q.2 with age })]
              sentBlocks := addAt x.sentBlocks vc q.2.blocks, uncovered := x.uncovered ++ [(x.nextSeq, { q.2 with age })]
              nextSeq := (x.nextSeq + 1) % 65536, progressAt := if x.uncovered = [] then s.now else x.progressAt
              sentAt := s.now, lackDue := 0 } ∧ (∀ r, r ≠ p → t.port r = s.port r) ∧ t.regs = s.regs ∧ t.cores = s.cores ∧ t.dev = s.dev)) ∧
          (1000 ≤ age → Gives (.frameTransmit p vc cls) s (fun t => t.port p = { x with queue := x.queue.erase q } ∧
            t.fab.discarded = s.fab.discarded + 1 ∧ (∀ r, r ≠ p → t.port r = s.port r)))) ∧
        (s.peerNode p ≠ s.node → s.nodeFailed (s.peerNode p) = false → Gives (.fenced p) s (fun t => t.nodeFailed (s.peerNode p) = true ∧
          t.flag ctrl 9 = true ∧ (∀ q < 24, s.portUp q = true → s.peerNode q = s.peerNode p → (t.port q).phase ≠ .up) ∧
          (∀ q < 24, s.portUp q = true → s.peerNode q ≠ s.peerNode p →
            ∃ rest, (t.port q).queue = (s.now, { src := s.peerNode p, dst := s.peerNode q, opc := 0x30 }) :: rest))))) ∧
    (∀ f rest, s.fab.inbox = f :: rest → f.opc = 0x30 → f.src ≠ s.node → s.nodeFailed f.src = false →
      Gives .fail s (fun t => t.nodeFailed f.src = true ∧ (∀ q < 24, s.portUp q = true → s.peerNode q = f.src → (t.port q).phase ≠ .up) ∧
        (∀ q < 24, s.portUp q = true → s.peerNode q ≠ f.src → q + 1 ≠ Store.get 0 s.fab.failFrom f.src →
          ∃ rest, (t.port q).queue = (s.now, { src := f.src, dst := s.peerNode q, opc := 0x30 }) :: rest)))

/-- WRITE, READ_REQ, MCAST, SYNC, READ_RESP, ACK and E2E_TIMEOUT, for the oldest frame delivered. A request whose words all lie in memory that
R77 admits is performed whole and answered OK (device memory is said of states in which no way of the cache regions stands in for a lost word), any other is refused and changes no byte; a multicast frame with no buffer free is
answered BUSY; a sync signal acts on the local object and its status goes back; the reply goes out on the route to the sender with the
request's XID on VC1; a reply closes the transaction it names and hands its data to the engine that waits, one that names none is
counted stale; a transaction without a reply for 20 µs ends and keeps its index unused for 100 µs (R77, R393, R395, R402, R403, R406,
R408 to R411, R426, R447, R448). -/
def Obligations.RequestsAreServedAndAnswered : Prop :=
  ∀ (s : State) (f : Frame) (rest : List Frame),
    let inbox := s.fab.inbox = f :: rest
    let replied := fun (t : State) (reply : Frame) => t.fab.inbox = rest ∧ t.fab.txns = s.fab.txns ∧ t.cores = s.cores ∧
      ∀ q dateline, s.route 1 s.node f.src = some (q, dateline) →
        (t.port q).queue = (s.port q).queue ++ [(s.now, { reply with cls := if dateline then 1 else 0 })] ∧ ∀ p, p ≠ q → t.port p = s.port p
    let reply := fun (opc status : Nat) (payload : List Byte) (poison : Nat) =>
      ({ vc := 1, src := s.node, dst := f.src, opc, xid := f.xid, status, addr := f.addr, payload, poison } : Frame)
    let memoryKept := fun (t : State) => t.dev = s.dev ∧ t.poison = s.poison ∧ t.host = s.host
    (inbox → f.opc = 1 → f.poison = 0 → s.lostFree → s.admits f.addr f.len = true → Gives .write s (fun t =>
      s.puts f.addr f.payload t ∧ t.host = s.host ∧ replied t (reply 4 0 [] 0))) ∧
    (inbox → f.opc = 1 → s.admits f.addr f.len = false → Gives .write s (fun t => memoryKept t ∧ replied t (reply 4 1 [] 0))) ∧
    (inbox → f.opc = 2 → let len := bitsOf f.operand 0 13
      (s.admits f.addr len = true → s.lostFree → Gives .readReq s (fun t => memoryKept t ∧
        replied t (reply 3 0 (Memory.bytes s.dev f.addr len) (s.poisonBits f.addr len)))) ∧
      (s.admits f.addr len = false → Gives .readReq s (fun t => memoryKept t ∧ replied t (reply 3 1 [] 0)))) ∧
    (inbox → f.opc = 6 → Gives (.mcast true) s (fun t => memoryKept t ∧ replied t (reply 4 5 [] 0)) ∧
      (f.poison = 0 → s.lostFree → s.admits f.addr f.len = true → Gives (.mcast false) s (fun t =>
        s.puts f.addr f.payload t ∧ t.host = s.host ∧ replied t (reply 4 0 [] 0))) ∧
      (s.admits f.addr f.len = false → Gives (.mcast false) s (fun t => memoryKept t ∧ replied t (reply 4 1 [] 0)))) ∧
    (inbox → f.opc = 5 →
      let r := s.signalObj f.addr (bitsOf f.operand 0 48) (bitsOf f.operand 48 2)
      let status := match r.1 with | .applied _ => 0 | .stale => 2 | .overrun => 2 | .abandoned => 3 | .wrongKind => 4 | .poisoned => 2
      Gives .sync s (fun t => t.sync = r.2.sync ∧ t.host = r.2.host ∧ t.dev = s.dev ∧ replied t (reply 4 status [] 0) ∧
        t.fab.syncBad = s.fab.syncBad + (if status = 0 then 0 else 1))) ∧
    (inbox → s.txn? f.xid = none → ∀ c : Instr, (f.opc = 3 ∧ c = .readResp) ∨ (f.opc = 4 ∧ c = .ack) →
      Gives c s (fun t => { t with fab := { t.fab with inbox := s.fab.inbox, stale := s.fab.stale } } = s ∧ t.fab.inbox = rest ∧
        t.fab.stale = s.fab.stale + 1)) ∧
    (∀ (x : Txn) (y : EngXfer) (n tag key : Nat), inbox → s.txn? f.xid = some x → x.owner = .eng n tag key → s.xfer? n tag key = some y →
      let closed := fun (t : State) => t.txn? f.xid = none ∧ t.fab.inbox = rest ∧ memoryKept t ∧ t.cores = s.cores ∧ t.ctxs = s.ctxs
      let left := y.xids.filter (· != f.xid)
      (f.opc = 3 → x.opc = 2 → f.status = 0 → f.poison = 0 → Gives .readResp s (fun t => closed t ∧
        t.xfer? n tag key = some { y with xids := left, buf := Memory.setBytes y.buf x.addr f.payload })) ∧
      (f.opc = 4 → f.status = 0 → Gives .ack s (fun t => closed t ∧ t.xfer? n tag key = some { y with xids := left })) ∧
      (f.opc = 4 → f.status ≠ 0 → y.fail = 0 → Gives .ack s (fun t => closed t ∧ t.xfer? n tag key = some { y with xids := left, fail := 1 }))) ∧
    (∀ (x : Txn) (n tag : Nat), inbox → f.opc = 4 → s.txn? f.xid = some x → x.owner = .sync n tag → Gives .ack s (fun t =>
      t.txn? f.xid = none ∧ { t with fab := { t.fab with inbox := s.fab.inbox, txns := s.fab.txns } } = s)) ∧
    (∀ (x : Txn) (xid n tag : Nat), s.txn? xid = some x → x.sentAt + 20000 ≤ s.now →
      let held := fun (t : State) => t.txn? xid = none ∧ (Store.get {} t.fab.txns (xid / 256)).heldUntil = s.now + 100000 ∧
        t.dev = s.dev ∧ t.cores = s.cores ∧ t.sync = s.sync
      (x.owner = .sync n tag → Gives (.e2eTimeout xid) s held) ∧
      (∀ key y, x.owner = .eng n tag key → s.xfer? n tag key = some y → Gives (.e2eTimeout xid) s (fun t => held t ∧
        t.xfer? n tag key = some { y with xids := y.xids.filter (· != xid), fail := 2 })))

/-! ## Reset, boot and the pins -/

/-- DEVICE_RESET, POWER_ON, PERST_N_ASSERT, PERST_N_DEASSERT, PWROK_RISE, PWROK_FALL, PCIE_HOT_RESET, PCIE_LINK_DOWN, RAIL_OUT_OF_RANGE,
RAIL_IN_RANGE, PLL_LOSS_OF_LOCK, SRAM_INIT_COMPLETE, PCIE_LINK_UP, MEMORY_TRAINING_COMPLETE, GO, VERIFY, FW_INIT_COMPLETE, FW_TIMEOUT,
BOOT_RESET, ADVANCE and ADVANCE_FUSE_BLOWN. A device reset puts every unit and register at its reset value but the fused ones, and keeps
host memory and fuses; step 1 starts once the pins allow it; each step of the boot moves STATE and CODE as R508 and R510 say, or ends
in FAILED with the code of R520; a verified image is copied and measured; MIN_VERSION is counted up one fuse at a time to the running
image's SVN. What a PERST_N pulse between 100 ns and 1 µs does is left free, and TEST_EN high stops (R506 to R520, R524, R550, R585, R591
to R594). -/
def Obligations.BootFollowsItsSteps : Prop :=
  ∀ (s : State), Store.wf (0 : W32) s.regs = true →
    let b := s.plat.boot
    let resets := fun (t : State) => t.boot = 1 ∧ t.fld 0x84 24 8 = s.plat.fuses.minVersion % 256 ∧ t.plat.boot.running = t.mayStart ∧
      (∀ off, off ≠ 0x84 → off ≠ 0x88 → t.reg off = if fusedReg off = true then s.reg off else State.reset.reg off) ∧
      t.dev = [] ∧ t.poison = [] ∧ t.cores = [] ∧ t.ctxs = [] ∧ t.press = [] ∧ t.sync = {} ∧ t.fab = {} ∧ t.err = {} ∧ t.mem = {} ∧ t.mesh = {} ∧
      t.now = 0 ∧ t.host = s.host ∧ t.plat.fuses = s.plat.fuses ∧ t.plat.power = {} ∧ t.plat.pmu = {} ∧ t.pending = s.pending
    let pins := fun (p : Pins) (t : State) => t.plat.pins = { p with fail := p.fail && p.thermtrip, lpResetN := false }
    let failed := fun (code : Nat) (t : State) => t.boot = 6 ∧ t.fld 0x84 8 8 = code ∧ t.plat.boot.goHeld = false
    let p := s.plat.pins
    (b.resetAt ≤ s.now + 1 → Gives .deviceReset s (fun t => resets t ∧ pins p t)) ∧
    Gives .powerOn s (fun t => resets t ∧ pins { p with powered := true, railsOk := true, pwrok := false, perstN := false } t) ∧
    (∀ ns, (ns < 100 → Gives (.perstNAssert ns) s (fun t => t = s)) ∧
      (1000 ≤ ns → Gives (.perstNAssert ns) s (fun t => resets t ∧ pins { p with perstN := false } t)) ∧
      (100 ≤ ns → ns < 1000 → Gives (.perstNAssert ns) s (fun t => t.free = s.free + 1 ∧
        ({ t with free := s.free } = s ∨ resets t ∧ pins { p with perstN := false } t)))) ∧
    (s.boot = 1 → b.running = false → p.powered = true → p.pwrok = true → p.railsOk = true → s.plat.tap.holds = 0 →
      Gives (.perstNDeassert false) s (fun t => t.plat.boot.running = true ∧ t.boot = 1 ∧ t.fld 0x88 0 8 = 1 ∧ t.plat.pins = { p with perstN := true }) ∧
      Gives (.perstNDeassert true) s (fun t => failed 1 t ∧ t.plat.pins = { p with perstN := true })) ∧
    (∀ a, Gives (.pwrokRise a false) s (fun t => t.plat.pins = { p with pwrok := true, mgmtAddr := a % 4, testEn := false }) ∧
      exec (.pwrokRise a true) s = .fault .boardError) ∧
    Gives .pwrokFall s (fun t => resets t ∧ pins { p with pwrok := false, thermtrip := false } t ∧ t.plat.tap = {}) ∧
    Gives .pcieHotReset s (fun t => resets t ∧ pins p t) ∧ Gives .pcieLinkDown s (fun t => resets t ∧ pins p t) ∧
    (p.pwrok = true → (s.boot = 5 → Gives .railOutOfRange s (fun t => t.boot = 7 ∧ t.reg 0x800 = 8 + 0x0A * 2 ^ 8 ∧ ∀ c, (t.core c).run = .idle)) ∧
      (s.boot ≠ 5 → s.boot ≠ 7 → Gives .railOutOfRange s (fun t => resets t ∧ pins { p with railsOk := false } t ∧ t.fld 0x88 0 8 = 1))) ∧
    Gives .railInRange s (fun t => t.plat.pins = { p with railsOk := true } ∧ t.plat.boot.running = (b.running || (t.mayStart && s.boot == 1))) ∧
    (s.ready = true → Gives .pllLossOfLock s (fun t => t.boot = 7 ∧ t.reg 0x800 = 7 + 0x0A * 2 ^ 8 ∧ ∀ c, (t.core c).run = .idle)) ∧
    (s.boot = 1 → b.running = true → p.thermtrip = false →
      Gives (.sramInitComplete false) s (failed 2) ∧
      Gives (.sramInitComplete true) s (fun t => t.plat.boot.sram = true ∧ t.sync = {} ∧
        (∀ a, Memory.byte t.dev a = if isHbm a = true ∨ isTier2 a = true then Memory.byte s.dev a else 0) ∧
        t.boot = (if b.link = true then 2 else 1) ∧ t.fld 0x88 0 8 = (if b.link = true then 5 else 3) ∧ t.cores = s.cores ∧ t.host = s.host) ∧
      Gives .pcieLinkUp s (fun t => t.plat.boot.link = true ∧ t.boot = (if b.sram = true then 2 else 1) ∧
        t.fld 0x88 0 8 = (if b.sram = true then 5 else 2) ∧ t.dev = s.dev ∧ t.host = s.host)) ∧
    (∀ trained bad, s.boot = 2 →
      (bad % 256 ≠ 0 → Gives (.memoryTrainingComplete trained bad) s (failed 3)) ∧
      (bad % 256 = 0 → bad % 1024 ≠ 0 → Gives (.memoryTrainingComplete trained bad) s (failed 4)) ∧
      (bad % 1024 = 0 → Gives (.memoryTrainingComplete trained bad) s (fun t => t.trained = s.trained ||| trained % 1024 ∧ t.dev = s.dev ∧
        t.boot = (if b.goHeld = true ∧ s.trained ||| trained % 1024 = 0x3FF then 3 else 2)))) ∧
    ((s.boot = 2 ∨ s.boot = 6 ∧ 5 ≤ s.fld 0x84 8 8 ∧ s.fld 0x84 8 8 ≤ 0x0E) → Gives .go s (fun t =>
      t.plat.boot.goOffset = s.fld 0x90 16 13 ∧ t.plat.boot.goLength = s.fld 0x98 0 29 ∧ t.dev = s.dev ∧
      (s.trained = 0x3FF → t.boot = 3 ∧ t.fld 0x84 8 8 = 0 ∧ t.plat.boot.goHeld = false) ∧
      (s.trained ≠ 0x3FF → t.boot = s.boot ∧ t.plat.boot.goHeld = true))) ∧
    (s.boot = 3 →
      (b.windowOk = false → Gives .verify s (fun t => failed 5 t ∧ t.dev = s.dev)) ∧
      (b.windowOk = true → s.windowPoisoned = true → Gives .verify s (failed 0x0E)) ∧
      (∀ code step sub, b.windowOk = true → s.windowPoisoned = false → code < 256 → step < 256 →
        s.plat.fuses.imageFault (s.fld 0x8 0 8) s.image = some (code, step, sub) →
        Gives .verify s (fun t => failed code t ∧ t.fld 0x88 0 8 = step)) ∧
      (b.windowOk = true → s.windowPoisoned = false → s.plat.fuses.imageFault (s.fld 0x8 0 8) s.image = none →
        s.space s.window = .loc s.window →
        Gives .verify s (fun t => t.boot = 4 ∧ t.fld 0x88 0 8 = 0x80 ∧ t.plat.boot.measurement = sm3 (s.image.take 0x100) ∧
          t.plat.boot.svn = (s.image.getD 8 0).toNat ∧ t.plat.mgmt.measured.firmware = sm3 (s.image.take 0x100) ∧
          s.puts fwBase s.image t ∧ t.host = s.host))) ∧
    (∀ sub, s.boot = 4 →
      Gives (.fwInitComplete true sub) s (fun t => t.boot = 5 ∧ t.fld 0x88 0 8 = 0xFF ∧ t.dev = s.dev) ∧
      Gives (.fwInitComplete false sub) s (fun t => failed 0x0F t ∧ t.fld 0x88 0 8 = 0x80 ∧ t.fld 0x88 8 8 = min sub 255) ∧
      Gives .fwTimeout s (failed 0x10)) ∧
    (∀ key, (key = 0xD1 → b.resetAt = 0 → Gives (.bootReset key) s (fun t =>
        t = { s with plat := { s.plat with boot := { b with resetAt := s.now + 1000001 } } })) ∧
      (key ≠ 0xD1 → Gives (.bootReset key) s (fun t => t = s))) ∧
    (s.boot = 5 → s.flag 0x84 16 = false →
      (b.svn ≤ s.plat.fuses.minVersion → Gives .advance s (fun t => t.flag 0x84 16 = false ∧ t.flag 0x84 17 = true ∧ t.plat.fuses = s.plat.fuses ∧
        t.dev = s.dev)) ∧
      (s.plat.fuses.minVersion < b.svn → Gives .advance s (fun t => t.flag 0x84 16 = true ∧ t.flag 0x84 17 = s.flag 0x84 17 ∧
        t.plat.boot.advTarget = b.svn ∧ t.plat.fuses = s.plat.fuses ∧ t.dev = s.dev))) ∧
    (s.flag 0x84 16 = true → let v := s.plat.fuses.minVersion + 1
      Gives .advanceFuseBlown s (fun t => t.plat.fuses = { s.plat.fuses with minVersion := v } ∧ t.fld 0x84 24 8 = v % 256 ∧
        t.flag 0x84 16 = decide (v < b.advTarget) ∧ (b.advTarget ≤ v → t.flag 0x84 17 = true) ∧ t.dev = s.dev ∧ t.cores = s.cores))

/-! ## Counters, the Tape and the host's accesses -/

/-- PMU_CLEAR, PMU_COUNT_WRITE, COUNTER_TICK, TAG_RECORD, TAPE_SNAPSHOT, TIMESTAMP_READ, REGISTER_WRITE, BAR2_ACCESS, MSIX_VECTOR_UNMASK and
PCIE_CONFIG_REQUEST. A tick adds to every counter that counts the events that match it, modulo 2^48, and a wrap sets OVF; a tag record
and a snapshot go to the next slot of their ring or are counted lost; a timestamp read latches its high half; a write of a register
word stores its fields and clears its W1C bits, or acts as the command the register stands for; other sizes and alignments stop; BAR2
reaches West staging, all-ones elsewhere; clearing a vector's mask sends what it held; before the link is up a configuration request
is answered with retry (R464, R471 to R476, R508, R564 to R573, R576). -/
def Obligations.CountersAndHostAccessesAct : Prop :=
  ∀ (s : State),
    let tells := fun (t : State) (a : HostAnswer) => t.plat.answers = s.plat.answers ++ [a]
    (∀ v : W32, s.ready = true →
      (bitOf v.toNat 1 = true → Gives (.pmuClear v) s (fun t => t.reg 0x1008 = v.toNat % 2 ∧
        (∀ u c, (t.ctr u c).value = 0 ∧ (t.ctr u c).ovf = false) ∧ t.dev = s.dev ∧ t.cores = s.cores)) ∧
      (bitOf v.toNat 1 = false → Gives (.pmuClear v) s (fun t => t.reg 0x1008 = v.toNat % 2 ∧ { t with regs := s.regs } = s))) ∧
    (∀ (c : Nat) (v : W64), let u := s.fld 0x1000 0 6
      s.ready = true → c < 16 → u ≠ 63 → Gives (.pmuCountWrite c v) s (fun t => t.ctr u c = { s.ctr u c with value := v.toNat % 2 ^ 48 } ∧
        (∀ w d, d < 16 → ¬(w = u ∧ d = c) → t.ctr w d = s.ctr w d) ∧
        { t with plat := { t.plat with pmu := { t.plat.pmu with ctrs := s.plat.pmu.ctrs } } } = s)) ∧
    (∀ (u : Nat) (evs : List PmuEvent), u < 63 → s.ready = true → s.flag 0x1008 0 = false → Gives (.counterTick u evs) s (fun t =>
      (∀ c < 16, let x := s.ctr u c
        let counts := x.enable = true ∧ x.event / 64 = unitClass u ∧ x.event % 64 < classEvents (unitClass u) ∧ s.qualOk u x.qual = true
        let n := if x.event % 64 = 0 then 1 else ((evs.filter (fun e => x.matches u e)).map (·.count)).sum
        let y := { x with value := (x.value + n) % 2 ^ 48 }
        (counts → t.ctr u c = if 2 ^ 48 ≤ x.value + n then y.setOvf true else y) ∧ (¬counts → t.ctr u c = x)) ∧
      (∀ w d, w ≠ u → d < 16 → t.ctr w d = s.ctr w d) ∧ t.dev = s.dev ∧ t.cores = s.cores)) ∧
    (s.boot ≠ 7 → s.flag 0x1440 0 = true →
      let tail := s.reg 0x1450
      let size := 2 ^ s.fld 0x1448 0 4
      let a := bitsOf (s.reg64 0x1440) 12 42 * 4096 + 64 * (tail % size)
      wrapSub tail (s.reg 0x144C) < size →
      let written := fun (t : State) (w0 w1 : Nat) => Memory.readLE t.host a 4 = w0 % 2 ^ 32 ∧ Memory.readLE t.host (a + 4) 4 = w1 % 2 ^ 32 ∧
        t.reg 0x1450 = (tail + 1) % 2 ^ 32 ∧ s.hostBut a 64 t ∧ t.dev = s.dev
      (∀ core i x y stages, core < 576 → (s.core core).tagItem = some i → Gives (.tagRecord core x y stages) s (fun t =>
        t.core core = { s.core core with tagItem := none } ∧
        written t (0xA2 + i.ctx * 2 ^ 8 + core * 2 ^ 16) (i.pc % 2 ^ 20 + b2n x * 2 ^ 20 + b2n y * 2 ^ 21))) ∧
      (∀ p i x y stages, Store.get none s.plat.pmu.portTag p = some i → Gives (.tagRecord (576 + p) x y stages) s (fun t =>
        Store.get none t.plat.pmu.portTag p = none ∧
        written t (0xA3 + p * 2 ^ 8 + i.dst * 2 ^ 16) (i.opc + i.vc * 2 ^ 8 + b2n x * 2 ^ 10 + b2n y * 2 ^ 11) ∧ t.cores = s.cores))) ∧
    (s.ready = true → s.flag 0x1400 0 = true → s.plat.pmu.snapDue ≠ 0 → s.plat.pmu.snapDue ≤ s.now + 1 →
      let tail := s.reg 0x1424
      let size := 2 ^ s.fld 0x1408 0 4
      let a := bitsOf (s.reg64 0x1400) 13 41 * 8192 + 8192 * (tail % size)
      let m := s.plat.pmu
      let moved := fun (t : State) => t.plat.pmu = { m with snap := m.snap + 1, snapDue := m.snapDue + s.fld 0x1408 4 20 * 1000 } ∧
        t.dev = s.dev ∧ t.cores = s.cores
      (wrapSub tail (s.reg 0x1420) < size → Gives .tapeSnapshot s (fun t => moved t ∧ t.reg 0x1424 = (tail + 1) % 2 ^ 32 ∧
        Memory.readLE t.host (a + 4) 4 = m.snap % 2 ^ 32 ∧ Memory.readLE t.host (a + 8) 8 = s.now % 2 ^ 64 ∧ t.reg 0x1428 = s.reg 0x1428)) ∧
      (size ≤ wrapSub tail (s.reg 0x1420) → Gives .tapeSnapshot s (fun t => moved t ∧ t.reg 0x1424 = tail ∧ t.host = s.host ∧
        t.reg 0x1428 = min (s.reg 0x1428 + 1) 0xFFFFFFFF))) ∧
    (let now := if s.boot = 5 ∨ s.boot = 7 then s.now else 0
      let alone := fun (t : State) => { t with plat := { t.plat with tsHigh := s.plat.tsHigh, answers := s.plat.answers } } = s
      Gives (.timestampRead 0) s (fun t => tells t (.reg (now % 2 ^ 32)) ∧ t.plat.tsHigh = now / 2 ^ 32 ∧ alone t) ∧
      Gives (.timestampRead 1) s (fun t => tells t (.reg s.plat.tsHigh) ∧ t.plat.tsHigh = s.plat.tsHigh ∧ alone t) ∧
      Gives (.timestampRead 2) s (fun t => tells t (.reg (now % 2 ^ 64)) ∧ t.plat.tsHigh = s.plat.tsHigh ∧ alone t)) ∧
    (∀ (bar off size : Nat) (v : W64), s.answers = true → off < 0x10000 →
      let w := v.toNat % 2 ^ 32
      ((size ≠ 4 ∧ size ≠ 8 ∨ off % size ≠ 0) → exec (.registerWrite bar off size v) s = .fault .hostError) ∧
      (off % 4 = 0 → s.takesWrite off = true → isWide off = false → ¬(4 ≤ off ∧ isWide (off - 4) = true) →
        (∀ r, regRow off = some r → w &&& (0xFFFFFFFF ^^^ (r.rw ||| r.w1c ||| r.ro)) = 0 → reservedValue off w = false →
          s.writeBarred off w = false → off ≠ 0x2000 → off ≠ 0x1400 → Gives (.registerWrite 0 off 4 v) s (fun t =>
            t.reg off = ((w &&& r.rw) ||| (s.reg off &&& r.ro) ||| (s.reg off &&& r.w1c &&& (0xFFFFFFFF ^^^ w))) % 2 ^ 32 ∧
            (∀ o, o ≠ off → t.reg o = s.reg o) ∧ { t with regs := s.regs } = s)) ∧
        (off = 0x614 → w < 2 ^ 13 → exec (.registerWrite 0 off 4 v) s = exec (.routeDataWrite (v.setWidth 32)) s) ∧
        (off = 0x620 → bitsOf w 14 17 = 0 → exec (.registerWrite 0 off 4 v) s = exec (.failClear (v.setWidth 32)) s) ∧
        (off = 0x1008 → w < 8 → exec (.registerWrite 0 off 4 v) s = exec (.pmuClear (v.setWidth 32)) s) ∧
        (off = 0x2010 → w < 2 ^ 16 → exec (.registerWrite 0 off 4 v) s = exec (.clkLimitWrite (v.setWidth 32)) s)) ∧
      (off % 4 = 0 → s.takesWrite off = true → isWide off = true → Gives (.registerWrite 0 off 4 v) s (fun t =>
        t = { s with staged := Store.set 0 s.staged off (w + 1) })) ∧
      (∀ n < 8, off = 0x480 + 8 * n → s.takesWrite off = true →
        exec (.registerWrite 0 off 8 v) s = exec (.ctxPtRootWrite n v) { s with staged := Store.set 0 s.staged off 0 }) ∧
      (off < 0x8000 → off % 4 = 0 → off / 4 % 4 = 1 ∨ off / 4 % 4 = 2 → Gives (.registerWrite 4 off 4 v) s (fun t =>
        (Store.get 0 t.msixTable (off / 4)).toNat = w ∧ (∀ k, k ≠ off / 4 → Store.get 0 t.msixTable k = Store.get 0 s.msixTable k) ∧
        t.regs = s.regs ∧ t.dev = s.dev))) ∧
    (∀ (x len : Nat) (bs : List Byte), s.answers = true →
      let shut := s.plat.boot.goHeld = true ∨ s.boot = 3 ∨ s.boot = 4
      let at_ := fun (i : Nat) => 0x18000000000 + x + i
      let alone := fun (t : State) => { t with plat := { t.plat with answers := s.plat.answers } } = s
      (x + bs.length ≤ 0x20000000 → ¬shut → s.boot ≠ 7 → Gives (.bar2Access x len (some bs)) s (fun t =>
        s.puts (at_ 0) (bs.take (s.stagingUnits 0 * 0x4000000 - x)) t ∧ { t with dev := s.dev, poison := s.poison } = s)) ∧
      (x + bs.length ≤ 0x20000000 → shut ∨ s.boot = 7 → Gives (.bar2Access x len (some bs)) s (fun t => t = s)) ∧
      (x + len ≤ 0x20000000 → ¬shut → s.boot ≠ 7 → Gives (.bar2Access x len none) s (fun t => alone t ∧
        tells t (.bar2 ((List.range len).map (fun i => if s.isStaging (at_ i) then Memory.byte s.dev (at_ i) else 0xFF))
          ((List.range len).any (fun i => !s.isStaging (at_ i) || s.isPoisoned (at_ i)))))) ∧
      (x + len ≤ 0x20000000 → shut → s.boot ≠ 7 → Gives (.bar2Access x len none) s (fun t => alone t ∧
        tells t (.bar2 (List.replicate len 0xFF) false))) ∧
      (x + len ≤ 0x20000000 → s.boot = 7 → Gives (.bar2Access x len none) s (fun t => alone t ∧ tells t (.bar2 (List.replicate len 0xFF) true)))) ∧
    (∀ v < 2048, s.answers = true →
      let sent := ({ vector := v, addr := (Store.get 0 s.msixTable (4 * v)).toNat + 2 ^ 32 * (Store.get 0 s.msixTable (4 * v + 1)).toNat
                     data := (Store.get 0 s.msixTable (4 * v + 2)).toNat } : MsixMsg)
      Gives (.msixVectorUnmask v) s (fun t => t.msixMasked v = s.msixMask ∧ t.regs = s.regs ∧ t.dev = s.dev ∧
        (s.msixEnable = true → s.msixMask = false → Store.get false s.msixPending v = true →
          t.msixSent = s.msixSent ++ [sent] ∧ Store.get false t.msixPending v = false) ∧
        (¬(s.msixEnable = true ∧ s.msixMask = false ∧ Store.get false s.msixPending v = true) → t.msixSent = s.msixSent))) ∧
    (∀ m, s.answers = false → Gives (.pcieConfigRequest m) s (fun t => tells t .cfgRetry ∧
      { t with plat := { t.plat with answers := s.plat.answers } } = s)) ∧
    (s.answers = true → Gives (.pcieConfigRequest none) s (fun t => tells t .cfgDone ∧
        { t with plat := { t.plat with answers := s.plat.answers } } = s) ∧
      ∀ e k, s.msixPending = [] → Gives (.pcieConfigRequest (some (e, k))) s (fun t => tells t .cfgDone ∧ t.msixEnable = e ∧ t.msixMask = k ∧
        { t with msixEnable := s.msixEnable, msixMask := s.msixMask, plat := { t.plat with answers := s.plat.answers } } = s))

/-! ## The management endpoint -/

/-- The commands of the management endpoint: SET_ENDPOINT_ID, the I3C common commands, the SPDM requests, REVOCATION_ORDER and the PLDM
commands. Each acts on a binding that answers and appends its answer; SPDM answers Busy unless the device is READY; a connection goes
from VERSION by CAPABILITIES to ALGORITHMS; the certificate chain, the measurements and the signatures are those of R546 to R550; at most
four sessions stand at once; an order that verifies revokes its key slot and no other; a cap outside 400 to 1,600 W is refused; a
sensor that crosses a threshold or changes state sends one event (R539 to R554). Error codes beyond the named ones, and the values that
GETBCR, GETDCR, GETSTATUS and GetPLDMVersion return, are not the spec's: assumptions 36 and 37. -/
def Obligations.ManagementCommandsAnswer : Prop :=
  ∀ (s : State) (b : Nat),
    let m := s.plat.mgmt
    let becomes := fun (q : Mgmt) (t : State) => t = { s with plat := { s.plat with mgmt := q } }
    let freed := fun (q : Mgmt) (t : State) => t = { s with free := s.free + 1, plat := { s.plat with mgmt := q } }
    let pldm := fun (r : PldmResp) => becomes { m with out := m.out ++ [.pldm b r] }
    let with_ := fun (q : Mgmt) (a : MgmtOut) => ({ q with out := m.out ++ [a] } : Mgmt)
    (s.plat.boot.running = true → ∀ addr,
      Gives (.entdaa addr) s (becomes { m with i3c := true, dynAddr := addr % 128 }) ∧
      Gives (.setdasa (0x4C + s.plat.pins.mgmtAddr) addr) s (becomes { m with i3c := true, dynAddr := addr % 128 })) ∧
    (m.i3c = true → ∀ v,
      Gives .rstdaa s (becomes { m with i3c := false, dynAddr := 0 }) ∧
      Gives (.enec v) s (becomes { m with events := m.events ||| v % 256 }) ∧
      Gives (.disec v) s (becomes { m with events := m.events &&& (255 - v % 256) }) ∧
      Gives .getpid s (becomes (with_ m (.ccc "GETPID"
        (Config.mipiId % 2 ^ 15 * 2 ^ 33 + 0x5331 * 2 ^ 16 + s.plat.pins.mgmtAddr % 16 * 2 ^ 12)))) ∧
      Gives .getbcr s (fun t => ∃ x < 256, becomes (with_ m (.ccc "GETBCR" x)) t) ∧
      Gives .getdcr s (fun t => ∃ x < 256, becomes (with_ m (.ccc "GETDCR" x)) t) ∧
      Gives .getstatus s (fun t => ∃ x < 2 ^ 16, freed (with_ m (.ccc "GETSTATUS" x)) t) ∧
      Gives (.setmrl v) s (becomes { m with mrl := v % 65536 + 1 }) ∧ Gives (.setmwl v) s (becomes { m with mwl := v % 65536 + 1 }) ∧
      Gives .getmrl s (fun t => ∃ x, becomes (with_ m (.ccc "GETMRL" x)) t ∧ ∀ v, m.mrl = v + 1 → x = v) ∧
      Gives .getmwl s (fun t => ∃ x, becomes (with_ m (.ccc "GETMWL" x)) t ∧ ∀ v, m.mwl = v + 1 → x = v)) ∧
    (s.bindingUp b = true →
      (∀ eid, Gives (.setEndpointId b eid) s (becomes (with_ { m with eid := Store.set 0 m.eid b (eid % 256) } (.eid b (eid % 256))))) ∧
      (s.ready = false → ∀ slot offset length chain key msg index signed id ok offered,
        ∀ c ∈ [Instr.getVersion b, .getCapabilities b, .negotiateAlgorithms b offered, .getDigests b, .getCertificate b slot offset length,
          .setCertificate b slot chain key, .challenge b slot msg, .getMeasurements b index signed msg, .keyExchange b msg, .finish b id ok,
          .keyUpdate b id, .endSession b id], Gives c s (becomes (with_ m (.spdm b (.error .busy))))) ∧
      (s.ready = true →
        let conn := Store.get 0 m.conn b
        let moved := fun (v : Nat) (r : SpdmResp) => becomes (with_ { m with conn := Store.set 0 m.conn b v } (.spdm b r))
        let answers := fun (r : SpdmResp) => becomes (with_ m (.spdm b r))
        Gives (.getVersion b) s (moved 1 (.version [0x12, 0x13])) ∧
        (conn ≠ 0 → Gives (.getCapabilities b) s (moved 2 (.capabilities
          [.cert, .chal, .measSigned, .measFresh, .keyEx, .encrypt, .mac, .keyUpd, .pubKeyId, .setCert]))) ∧
        (2 ≤ conn → Gives (.negotiateAlgorithms b (List.replicate 7 true)) s (moved 3 .algorithms)) ∧
        (conn = 3 →
          Gives (.getDigests b) s (answers (.digests (if m.chain = [] then none else some (sm3 m.chain)))) ∧
          (∀ offset length, offset < m.chain.length → offset = 0 ∨ Store.get 0 m.certLen b = m.chain.length + 1 →
            let part := (m.chain.drop offset).take length
            Gives (.getCertificate b 0 offset length) s (becomes (with_ { m with certLen := Store.set 0 m.certLen b (m.chain.length + 1) }
              (.spdm b (.certificate part (m.chain.length - offset - part.length)))))) ∧
          (∀ chain : List Byte, chain.length ≤ 8192 → Gives (.setCertificate b 0 chain m.pubKey) s (becomes (with_ { m with chain } (.spdm b .setCertificate)))) ∧
          (∀ chain key, key ≠ m.pubKey → Gives (.setCertificate b 0 chain key) s (answers (.error .invalidRequest))) ∧
          (∀ slot msg, slot = 0 ∧ m.chain ≠ [] ∨ slot = 0xF → Gives (.challenge b slot msg) s (fun t =>
            ∃ k, let sig := sm2Sign s.plat.fuses.groupKey k msg
              freed (with_ m (.spdm b (.challengeAuth slot sig.1 sig.2))) t)) ∧
          (∀ index msg, 1 ≤ index → index ≤ 5 →
            Gives (.getMeasurements b index false msg) s (answers (.measurements [(index, s.measurement index)] none)) ∧
            Gives (.getMeasurements b index true msg) s (fun t => ∃ k,
              freed (with_ m (.spdm b (.measurements [(index, s.measurement index)] (some (sm2Sign s.plat.fuses.groupKey k msg))))) t)) ∧
          (∀ msg, (m.sessions.length < 4 → Gives (.keyExchange b msg) s (fun t => ∃ k, let sig := sm2Sign s.plat.fuses.groupKey k msg
              freed (with_ { m with sessions := m.sessions ++ [{ id := m.nextSession, binding := b }], nextSession := m.nextSession + 1 }
                (.spdm b (.keyExchange m.nextSession sig.1 sig.2))) t)) ∧
            (4 ≤ m.sessions.length → Gives (.keyExchange b msg) s (answers (.error .sessionLimit))))) ∧
        (∀ (x : Session), m.sessions.find? (fun y => y.id == x.id) = some x → x.binding = b →
          let replaced := fun (z : Session) => m.sessions.map (fun y => if y.id == z.id then z else y)
          (x.established = false → Gives (.finish b x.id true) s (becomes (with_ { m with sessions := replaced { x with established := true } }
            (.spdm b (.finish x.id))))) ∧
          (x.established = true →
            Gives (.keyUpdate b x.id) s (becomes (with_ { m with sessions := replaced { x with updates := x.updates + 1 } } (.spdm b (.keyUpdate x.id)))) ∧
            Gives (.endSession b x.id) s (becomes (with_ { m with sessions := m.sessions.filter (fun y => y.id != x.id) }
              (.spdm b (.endSession x.id))))))) ∧
      (∀ o : List Byte, let st := s.plat.fuses.orderStatus o
        (s.boot = 1 ∨ s.boot = 3 ∨ s.boot = 4 → Gives (.revocationOrder b o) s (becomes (with_ m (.revoke b 1)))) ∧
        (s.boot ≠ 1 → s.boot ≠ 3 → s.boot ≠ 4 → st ≠ 0 → Gives (.revocationOrder b o) s (becomes (with_ m (.revoke b st)))) ∧
        (s.boot ≠ 1 → s.boot ≠ 3 → s.boot ≠ 4 → st = 0 → Gives (.revocationOrder b o) s (fun t =>
          t.plat.fuses = { s.plat.fuses with keyRevoked := Store.set false s.plat.fuses.keyRevoked (o.getD 4 0).toNat true } ∧
          t.plat.mgmt = with_ { m with measured := t.plat.mgmt.measured } (.revoke b 0) ∧ t.plat.mgmt.measured.revoked = t.plat.fuses.revokedBits ∧
          { t with plat := s.plat } = s))) ∧
      (Gives (.getTid b) s (pldm (.tid m.tid)) ∧ Gives (.getPldmTypes b) s (pldm (.types [0, 2])) ∧
        Gives (.getPdrRepositoryInfo b) s (pldm (.repository 21)) ∧
        (∀ v, Gives (.setTid b v) s (becomes (with_ { m with tid := v % 256 } (.pldm b .done))) ∧
          Gives (.setEventReceiver b v) s (becomes (with_ { m with receiver := v + 1, receiverBinding := b } (.pldm b .done)))) ∧
        (∀ type, type = 0 ∨ type = 2 → Gives (.getPldmVersion b type) s (fun t => ∃ v, freed (with_ m (.pldm b (.version type v))) t)) ∧
        Gives (.getPldmCommands b 0) s (pldm (.commands [0x01, 0x02, 0x03, 0x04, 0x05])) ∧
        Gives (.getPldmCommands b 2) s (pldm (.commands [0x04, 0x0A, 0x11, 0x21, 0x31, 0x32, 0x39, 0x3A, 0x50, 0x51])) ∧
        (∀ h < 21, Gives (.getPdr b (h + 1)) s (pldm (.pdr (pdrIds.getD h 0) (pdrLimits (pdrIds.getD h 0))))) ∧
        (∀ id, (1 ≤ id → id ≤ 16 → Gives (.getSensorReading b id) s (pldm (.reading id (s.sensor id)))) ∧
          (32 ≤ id → id ≤ 34 → Gives (.getStateSensorReadings b id) s (pldm (.state id (s.stateSensor id))))) ∧
        Gives (.getNumericEffecterValue b 64) s (pldm (.effecter 64 m.powerCap)) ∧
        Gives (.getStateEffecterStates b 65) s (pldm (.state 65 (if s.plat.boot.resetAt = 0 then 1 else 2))) ∧
        (∀ v, (v < 400 ∨ 1600 < v → Gives (.setNumericEffecterValue b 64 v) s (pldm .invalidData)) ∧
          (400 ≤ v → v ≤ 1600 → Gives (.setNumericEffecterValue b 64 v) s (fun t => t.plat.mgmt = with_ { m with powerCap := v } (.pldm b .done) ∧
            t.fld 0x2004 16 11 = min (s.fld 0x2000 0 11) v ∧ (∀ off, off ≠ 0x2004 → t.reg off = s.reg off) ∧
            { t with regs := s.regs, plat := s.plat } = s))) ∧
        Gives (.setStateEffecterStates b 65 1) s (pldm .done) ∧
        Gives (.setStateEffecterStates b 65 2) s (fun t => t.plat.mgmt = with_ m (.pldm b .done) ∧
          t.plat.boot.resetAt = (if s.plat.boot.resetAt = 0 then s.now + 1000001 else s.plat.boot.resetAt) ∧ { t with plat := s.plat } = s))) ∧
    (∀ (id : Nat) (v : Int), id = 1 ∨ id = 2 ∨ id = 13 ∨ id = 14 → Gives (.sensorSample id v) s (fun t => Store.get 0 t.plat.mgmt.sensors id = v ∧
      (id = 1 → t.fld 0x2008 0 10 = intBits 10 v) ∧ (id = 2 → t.fld 0x2008 10 10 = intBits 10 v) ∧
      t.plat.mgmt.out = (if crosses id (Store.get 0 m.sensors id) v = true ∧ m.receiver ≠ 0 then m.out ++ [.event id v] else m.out) ∧
      (∀ off, off ≠ 0x2008 → t.reg off = s.reg off) ∧ t.dev = s.dev ∧ t.cores = s.cores)) ∧
    (∀ id, 32 ≤ id → id ≤ 34 →
      let v := s.stateSensor id
      let due := v ≠ Store.get 0 m.stateSent id ∧ (Store.get 0 m.stateAt id = 0 ∨ Store.get 0 m.stateAt id - 1 + 10000000 ≤ s.now)
      (due → Gives (.stateEventTimer id) s (becomes { m with
        stateSent := Store.set 0 m.stateSent id v, stateAt := Store.set 0 m.stateAt id (s.now + 1)
        out := if m.receiver = 0 then m.out else m.out ++ [.event id (Int.ofNat v)] })) ∧
      (¬due → Gives (.stateEventTimer id) s (becomes m)))

/-! ## JTAG -/

/-- TAP_RESET, EXTEST, IDCODE, SAMPLE/PRELOAD, CLAMP, HIGHZ, EXTEST_PULSE, EXTEST_TRAIN and BYPASS. While PWROK is high each instruction
selects its register; those that control the pins take force only when loaded while PERST_N is low and then hold the boot, and
otherwise act as BYPASS; the others, and TAP_RESET, release the pins; nothing of the rest of the device changes but the start of a boot
that was held (R596 to R598). -/
def Obligations.JtagInstructionsSelectRegisters : Prop :=
  ∀ (s : State),
    let p := s.plat.pins
    let tap := s.plat.tap
    let rest := fun (t : State) => t.dev = s.dev ∧ t.host = s.host ∧ t.cores = s.cores ∧ t.plat.pins = p ∧
      t.plat.boot.running = (s.plat.boot.running || (t.mayStart && s.boot == 1))
    let selects := fun (ir bits dr : Nat) (t : State) => t.plat.tap = { tap with ir, holds := 0, drBits := bits, dr } ∧ rest t
    let holds := fun (ir : Nat) (q : Tap) (t : State) => t = { s with plat := { s.plat with tap := { q with ir, holds := ir + 1 } } } ∧ t.mayStart = false
    let scans : List (Nat × (Nat → Nat → Instr)) := [(0, .extest), (6, .extestPulse), (7, .extestTrain)]
    Gives .tapReset s (fun t => t.plat.tap = {} ∧ rest t) ∧
    (p.pwrok = true →
      Gives .idcode s (selects 1 32 (0x2 * 2 ^ 28 + 0x5331 * 2 ^ 12 + Config.jedecId % 2 ^ 11 * 2 + 1)) ∧
      Gives .bypass s (selects 0xFF 1 0) ∧
      (∀ a c, Gives (.samplePreload a c) s (fun t => t.plat.tap = { tap with
          ir := 2, holds := 0, drBits := 1456, dr := a % 2 ^ 1456, boundary := c % 2 ^ 1456 } ∧ rest t) ∧
        ∀ q ∈ scans,
          (p.perstN = false → Gives (q.2 a c) s (holds q.1 { tap with drBits := 1456, dr := a % 2 ^ 1456, boundary := c % 2 ^ 1456 })) ∧
          (p.perstN = true → Gives (q.2 a c) s (selects q.1 1 0))) ∧
      (p.perstN = false → Gives .clamp s (holds 4 { tap with drBits := 1, dr := 0 }) ∧ Gives .highz s (holds 5 { tap with drBits := 1, dr := 0 })) ∧
      (p.perstN = true → Gives .clamp s (selects 4 1 0) ∧ Gives .highz s (selects 5 1 0)))
end

