-- ==== Sys2Proof/Laws/Exec.lean ====
section
/-! SUPPORT. Running a command is running its meaning: one equation per command. -/

namespace Sys2Proof.Machine

open Sys2Proof

theorem exec_nop (c : Nat) (w : W64) (s : State) : exec (.nop c w) s = execNop c w s := rfl
theorem exec_endWork (c : Nat) (b : Body) (s : State) : exec (.endWork c b) s = execEndWork c b s := rfl
theorem exec_alu (c : Nat) (b : Body) (s : State) : exec (.alu c b) s = execAlu c b s := rfl
theorem exec_alui (c : Nat) (b : Body) (s : State) : exec (.alui c b) s = execAlui c b s := rfl
theorem exec_movi (c : Nat) (b : Body) (s : State) : exec (.movi c b) s = execMovi c b s := rfl
theorem exec_movhi (c : Nat) (b : Body) (s : State) : exec (.movhi c b) s = execMovhi c b s := rfl
theorem exec_rdsys (c : Nat) (b : Body) (s : State) : exec (.rdsys c b) s = execRdsys c b s := rfl
theorem exec_br (c : Nat) (b : Body) (s : State) : exec (.br c b) s = execBr c b s := rfl
theorem exec_brp (c : Nat) (b : Body) (s : State) : exec (.brp c b) s = execBrp c b s := rfl
theorem exec_jal (c : Nat) (b : Body) (s : State) : exec (.jal c b) s = execJal c b s := rfl
theorem exec_jalr (c : Nat) (b : Body) (s : State) : exec (.jalr c b) s = execJalr c b s := rfl
theorem exec_ldl (c : Nat) (b : Body) (s : State) : exec (.ldl c b) s = execLdl c b s := rfl
theorem exec_stl (c : Nat) (b : Body) (s : State) : exec (.stl c b) s = execStl c b s := rfl
theorem exec_ld (c : Nat) (b : Body) (s : State) : exec (.ld c b) s = execLd c b s := rfl
theorem exec_st (c : Nat) (b : Body) (s : State) : exec (.st c b) s = execSt c b s := rfl
theorem exec_vop (c : Nat) (b : Body) (s : State) : exec (.vop c b) s = execVop c b s := rfl
theorem exec_vcmp (c : Nat) (b : Body) (s : State) : exec (.vcmp c b) s = execVcmp c b s := rfl
theorem exec_vred (c : Nat) (b : Body) (s : State) : exec (.vred c b) s = execVred c b s := rfl
theorem exec_plog (c : Nat) (b : Body) (s : State) : exec (.plog c b) s = execPlog c b s := rfl
theorem exec_vld (c : Nat) (b : Body) (s : State) : exec (.vld c b) s = execVld c b s := rfl
theorem exec_vst (c : Nat) (b : Body) (s : State) : exec (.vst c b) s = execVst c b s := rfl
theorem exec_vldl (c : Nat) (b : Body) (s : State) : exec (.vldl c b) s = execVldl c b s := rfl
theorem exec_vstl (c : Nat) (b : Body) (s : State) : exec (.vstl c b) s = execVstl c b s := rfl
theorem exec_vlds (c : Nat) (b : Body) (s : State) : exec (.vlds c b) s = execVlds c b s := rfl
theorem exec_trowr (c : Nat) (b : Body) (s : State) : exec (.trowr c b) s = execTrowr c b s := rfl
theorem exec_troww (c : Nat) (b : Body) (s : State) : exec (.troww c b) s = execTroww c b s := rfl
theorem exec_tld (c : Nat) (b : Body) (s : State) : exec (.tld c b) s = execTld c b s := rfl
theorem exec_tst (c : Nat) (b : Body) (s : State) : exec (.tst c b) s = execTst c b s := rfl
theorem exec_tlds (c : Nat) (b : Body) (s : State) : exec (.tlds c b) s = execTlds c b s := rfl
theorem exec_trel (c : Nat) (b : Body) (s : State) : exec (.trel c b) s = execTrel c b s := rfl
theorem exec_mma (c : Nat) (b : Body) (s : State) : exec (.mma c b) s = execMma c b s := rfl
theorem exec_drain (c : Nat) (b : Body) (s : State) : exec (.drain c b) s = execDrain c b s := rfl
theorem exec_dcfg (c : Nat) (b : Body) (s : State) : exec (.dcfg c b) s = execDcfg c b s := rfl
theorem exec_sdecl (c : Nat) (b : Body) (s : State) : exec (.sdecl c b) s = execSdecl c b s := rfl
theorem exec_sfence (c : Nat) (b : Body) (s : State) : exec (.sfence c b) s = execSfence c b s := rfl
theorem exec_sig (c : Nat) (b : Body) (s : State) : exec (.sig c b) s = execSig c b s := rfl
theorem exec_wait (c : Nat) (b : Body) (s : State) : exec (.wait c b) s = execWait c b s := rfl
theorem exec_spoll (c : Nat) (b : Body) (s : State) : exec (.spoll c b) s = execSpoll c b s := rfl
theorem exec_mfence (c : Nat) (b : Body) (s : State) : exec (.mfence c b) s = execMfence c b s := rfl
theorem exec_tileQueueDispatch (c : Nat) (s : State) : exec (.tileQueueDispatch c) s = execTileQueueDispatch c s := rfl
theorem exec_groupStart (c : Nat) (s : State) : exec (.groupStart c) s = execGroupStart c s := rfl
theorem exec_mmaComplete (c : Nat) (s : State) : exec (.mmaComplete c) s = execMmaComplete c s := rfl
theorem exec_drainComplete (c : Nat) (s : State) : exec (.drainComplete c) s = execDrainComplete c s := rfl
theorem exec_lineFillArrival (c : Nat) (i : Nat) (s : State) : exec (.lineFillArrival c i) s = execLineFillArrival c i s := rfl
theorem exec_runaheadFetchIssue (c : Nat) (n : Nat) (s : State) : exec (.runaheadFetchIssue c n) s = execRunaheadFetchIssue c n s := rfl
theorem exec_bankGate (c : Nat) (b : Nat) (s : State) : exec (.bankGate c b) s = execBankGate c b s := rfl
theorem exec_bankWakeDone (c : Nat) (b : Nat) (s : State) : exec (.bankWakeDone c b) s = execBankWakeDone c b s := rfl
theorem exec_parityError (c : Nat) (i : Nat) (s : State) : exec (.parityError c i) s = execParityError c i s := rfl
theorem exec_coreStop (c : Nat) (s : State) : exec (.coreStop c) s = execCoreStop c s := rfl
theorem exec_coreResume (c : Nat) (s : State) : exec (.coreResume c) s = execCoreResume c s := rfl
theorem exec_wakeFlitArrival (b : Nat) (s : State) : exec (.wakeFlitArrival b) s = execWakeFlitArrival b s := rfl
theorem exec_waitDeadline (c : Nat) (s : State) : exec (.waitDeadline c) s = execWaitDeadline c s := rfl
theorem exec_coreWatchdog (c : Nat) (s : State) : exec (.coreWatchdog c) s = execCoreWatchdog c s := rfl
theorem exec_doorbellPoll (n : Nat) (s : State) : exec (.doorbellPoll n) s = execDoorbellPoll n s := rfl
theorem exec_commandDispatch (n : Nat) (s : State) : exec (.commandDispatch n) s = execCommandDispatch n s := rfl
theorem exec_compute (n : Nat) (tag : Nat) (s : State) : exec (.compute n tag) s = execCompute n tag s := rfl
theorem exec_fillTimeout (n : Nat) (key : Nat) (s : State) : exec (.fillTimeout n key) s = execFillTimeout n key s := rfl
theorem exec_dma (n : Nat) (tag : Nat) (s : State) : exec (.dma n tag) s = execDma n tag s := rfl
theorem exec_dmaUnitComplete (n : Nat) (tag : Nat) (u : Nat) (s : State) : exec (.dmaUnitComplete n tag u) s = execDmaUnitComplete n tag u s := rfl
theorem exec_flush (n : Nat) (tag : Nat) (s : State) : exec (.flush n tag) s = execFlush n tag s := rfl
theorem exec_xlateInv (n : Nat) (tag : Nat) (s : State) : exec (.xlateInv n tag) s = execXlateInv n tag s := rfl
theorem exec_press (n : Nat) (tag : Nat) (s : State) : exec (.press n tag) s = execPress n tag s := rfl
theorem exec_pressUnitHandout (p : Nat) (s : State) : exec (.pressUnitHandout p) s = execPressUnitHandout p s := rfl
theorem exec_pressSpanComplete (p : Nat) (s : State) : exec (.pressSpanComplete p) s = execPressSpanComplete p s := rfl
theorem exec_pressParityRestart (p : PressPart) (s : State) : exec (.pressParityRestart p) s = execPressParityRestart p s := rfl
theorem exec_gate (n : Nat) (tag : Nat) (s : State) : exec (.gate n tag) s = execGate n tag s := rfl
theorem exec_gateStart (n : Nat) (tag : Nat) (s : State) : exec (.gateStart n tag) s = execGateStart n tag s := rfl
theorem exec_gateResolve (n : Nat) (tag : Nat) (s : State) : exec (.gateResolve n tag) s = execGateResolve n tag s := rfl
theorem exec_gateTimeout (n : Nat) (tag : Nat) (s : State) : exec (.gateTimeout n tag) s = execGateTimeout n tag s := rfl
theorem exec_ingest (n : Nat) (tag : Nat) (s : State) : exec (.ingest n tag) s = execIngest n tag s := rfl
theorem exec_sampleStart (share : Nat) (s : State) : exec (.sampleStart share) s = execSampleStart share s := rfl
theorem exec_sampleComplete (n : Nat) (tag : Nat) (pos : Nat) (d : Nat) (s : State) : exec (.sampleComplete n tag pos d) s = execSampleComplete n tag pos d s := rfl
theorem exec_freeTake (n : Nat) (tag : Nat) (s : State) : exec (.freeTake n tag) s = execFreeTake n tag s := rfl
theorem exec_mreduce (n : Nat) (tag : Nat) (k : Nat) (s : State) : exec (.mreduce n tag k) s = execMreduce n tag k s := rfl
theorem exec_mmcast (n : Nat) (tag : Nat) (k : Nat) (s : State) : exec (.mmcast n tag k) s = execMmcast n tag k s := rfl
theorem exec_gather (n : Nat) (tag : Nat) (i : Nat) (s : State) : exec (.gather n tag i) s = execGather n tag i s := rfl
theorem exec_scatter (n : Nat) (tag : Nat) (i : Nat) (s : State) : exec (.scatter n tag i) s = execScatter n tag i s := rfl
theorem exec_coll (n : Nat) (tag : Nat) (s : State) : exec (.coll n tag) s = execColl n tag s := rfl
theorem exec_fmcast (n : Nat) (tag : Nat) (s : State) : exec (.fmcast n tag) s = execFmcast n tag s := rfl
theorem exec_syncInit (n : Nat) (tag : Nat) (s : State) : exec (.syncInit n tag) s = execSyncInit n tag s := rfl
theorem exec_syncInitHoldEnd (n : Nat) (tag : Nat) (s : State) : exec (.syncInitHoldEnd n tag) s = execSyncInitHoldEnd n tag s := rfl
theorem exec_syncRetire (n : Nat) (tag : Nat) (s : State) : exec (.syncRetire n tag) s = execSyncRetire n tag s := rfl
theorem exec_syncSignal (n : Nat) (tag : Nat) (s : State) : exec (.syncSignal n tag) s = execSyncSignal n tag s := rfl
theorem exec_syncWait (n : Nat) (tag : Nat) (s : State) : exec (.syncWait n tag) s = execSyncWait n tag s := rfl
theorem exec_syncDump (n : Nat) (tag : Nat) (s : State) : exec (.syncDump n tag) s = execSyncDump n tag s := rfl
theorem exec_commandComplete (n : Nat) (tag : Nat) (s : State) : exec (.commandComplete n tag) s = execCommandComplete n tag s := rfl
theorem exec_completionRecordWrite (n : Nat) (s : State) : exec (.completionRecordWrite n) s = execCompletionRecordWrite n s := rfl
theorem exec_progressWrite (n : Nat) (tag : Nat) (s : State) : exec (.progressWrite n tag) s = execProgressWrite n tag s := rfl
theorem exec_ctxEnable (n : Nat) (s : State) : exec (.ctxEnable n) s = execCtxEnable n s := rfl
theorem exec_ctxDisable (n : Nat) (s : State) : exec (.ctxDisable n) s = execCtxDisable n s := rfl
theorem exec_ctxPreempt (n : Nat) (s : State) : exec (.ctxPreempt n) s = execCtxPreempt n s := rfl
theorem exec_ctxResume (n : Nat) (s : State) : exec (.ctxResume n) s = execCtxResume n s := rfl
theorem exec_ctxReset (n : Nat) (s : State) : exec (.ctxReset n) s = execCtxReset n s := rfl
theorem exec_ctxPtRootWrite (n : Nat) (v : W64) (s : State) : exec (.ctxPtRootWrite n v) s = execCtxPtRootWrite n v s := rfl
theorem exec_dbgHalt (c : Nat) (s : State) : exec (.dbgHalt c) s = execDbgHalt c s := rfl
theorem exec_dbgResume (c : Nat) (s : State) : exec (.dbgResume c) s = execDbgResume c s := rfl
theorem exec_blockReset (b : Nat) (s : State) : exec (.blockReset b) s = execBlockReset b s := rfl
theorem exec_squareSplitApply (v : W32) (s : State) : exec (.squareSplitApply v) s = execSquareSplitApply v s := rfl
theorem exec_squareSplitComplete (s : State) : exec (.squareSplitComplete) s = execSquareSplitComplete s := rfl
theorem exec_squareBankRequest (half : Nat) (bank : Nat) (clk : Nat) (new : List SqReq) (flips : List (Nat × W80)) (s : State) : exec (.squareBankRequest half bank clk new flips) s = execSquareBankRequest half bank clk new flips s := rfl
theorem exec_cacheFillComplete (half : Nat) (set : Nat) (way : Nat) (s : State) : exec (.cacheFillComplete half set way) s = execCacheFillComplete half set way s := rfl
theorem exec_memoryLineAccess (line : Nat) (write : Bool) (data : BitVec 2048) (poison : BitVec 32) (flips : List (Nat × W80)) (fails : Nat) (s : State) : exec (.memoryLineAccess line write data poison flips fails) s = execMemoryLineAccess line write data poison flips fails s := rfl
theorem exec_patrolScrubRead (half : Nat) (kind : Nat) (flip : W80) (s : State) : exec (.patrolScrubRead half kind flip) s = execPatrolScrubRead half kind flip s := rfl
theorem exec_hbmTempSample (stack : Nat) (temp : Int) (s : State) : exec (.hbmTempSample stack temp) s = execHbmTempSample stack temp s := rfl
theorem exec_hbmRefresh (stack : Nat) (s : State) : exec (.hbmRefresh stack) s = execHbmRefresh stack s := rfl
theorem exec_lpddrRefreshRateRead (i : Nat) (rate : LpReport) (s : State) : exec (.lpddrRefreshRateRead i rate) s = execLpddrRefreshRateRead i rate s := rfl
theorem exec_wckTracking (i : Nat) (inRange : Bool) (s : State) : exec (.wckTracking i inRange) s = execWckTracking i inRange s := rfl
theorem exec_meshFlitArrival (x : Nat) (port : Nat) (pkt : Option MeshPkt) (s : State) : exec (.meshFlitArrival x port pkt) s = execMeshFlitArrival x port pkt s := rfl
theorem exec_meshCrcReplay (x : Nat) (port : Nat) (fails : Nat) (s : State) : exec (.meshCrcReplay x port fails) s = execMeshCrcReplay x port fails s := rfl
theorem exec_reductionPacketArrival (x : Nat) (port : Nat) (s : State) : exec (.reductionPacketArrival x port) s = execReductionPacketArrival x port s := rfl
theorem exec_reductionHoldTimeout (x : Nat) (s : State) : exec (.reductionHoldTimeout x) s = execReductionHoldTimeout x s := rfl
theorem exec_meshMcastResend (n : Nat) (tag : Nat) (s : State) : exec (.meshMcastResend n tag) s = execMeshMcastResend n tag s := rfl
theorem exec_meshMcastDeadline (n : Nat) (tag : Nat) (s : State) : exec (.meshMcastDeadline n tag) s = execMeshMcastDeadline n tag s := rfl
theorem exec_fabricEnable (s : State) : exec (.fabricEnable) s = execFabricEnable s := rfl
theorem exec_fabricDisable (s : State) : exec (.fabricDisable) s = execFabricDisable s := rfl
theorem exec_sealApply (s : State) : exec (.sealApply) s = execSealApply s := rfl
theorem exec_sealComplete (s : State) : exec (.sealComplete) s = execSealComplete s := rfl
theorem exec_routeDataWrite (v : W32) (s : State) : exec (.routeDataWrite v) s = execRouteDataWrite v s := rfl
theorem exec_failClear (v : W32) (s : State) : exec (.failClear v) s = execFailClear v s := rfl
theorem exec_helloTimer (p : Nat) (s : State) : exec (.helloTimer p) s = execHelloTimer p s := rfl
theorem exec_hello (p : Nat) (node : Nat) (port : Nat) (leaf : Bool) (lane : Bool) (fec : Bool) (ack : Bool) (grant : List Nat) (s : State) : exec (.hello p node port leaf lane fec ack grant) s = execHello p node port leaf lane fec ack grant s := rfl
theorem exec_dataFrameReceive (p : Nat) (lseq : Nat) (lack : Nat) (credit : List Nat) (f : Frame) (eth : EthHdr) (s : State) : exec (.dataFrameReceive p lseq lack credit f eth) s = execDataFrameReceive p lseq lack credit f eth s := rfl
theorem exec_control (p : Nat) (lack : Nat) (credit : List Nat) (s : State) : exec (.control p lack credit) s = execControl p lack credit s := rfl
theorem exec_replayReq (p : Nat) (lack : Nat) (credit : List Nat) (s : State) : exec (.replayReq p lack credit) s = execReplayReq p lack credit s := rfl
theorem exec_fenced (p : Nat) (s : State) : exec (.fenced p) s = execFenced p s := rfl
theorem exec_frameTransmit (p : Nat) (vc : Nat) (cls : Nat) (s : State) : exec (.frameTransmit p vc cls) s = execFrameTransmit p vc cls s := rfl
theorem exec_lackReportTimer (p : Nat) (s : State) : exec (.lackReportTimer p) s = execLackReportTimer p s := rfl
theorem exec_replayTimeout (p : Nat) (s : State) : exec (.replayTimeout p) s = execReplayTimeout p s := rfl
theorem exec_linkIdleTimer (p : Nat) (s : State) : exec (.linkIdleTimer p) s = execLinkIdleTimer p s := rfl
theorem exec_rxSilenceTimeout (p : Nat) (s : State) : exec (.rxSilenceTimeout p) s = execRxSilenceTimeout p s := rfl
theorem exec_write (s : State) : exec (.write) s = execWrite s := rfl
theorem exec_readReq (s : State) : exec (.readReq) s = execReadReq s := rfl
theorem exec_readResp (s : State) : exec (.readResp) s = execReadResp s := rfl
theorem exec_ack (s : State) : exec (.ack) s = execAck s := rfl
theorem exec_sync (s : State) : exec (.sync) s = execSync s := rfl
theorem exec_mcast (busy : Bool) (s : State) : exec (.mcast busy) s = execMcast busy s := rfl
theorem exec_collFrame (s : State) : exec (.collFrame) s = execCollFrame s := rfl
theorem exec_heartbeat (s : State) : exec (.heartbeat) s = execHeartbeat s := rfl
theorem exec_collAbort (s : State) : exec (.collAbort) s = execCollAbort s := rfl
theorem exec_gateContrib (s : State) : exec (.gateContrib) s = execGateContrib s := rfl
theorem exec_gateResult (s : State) : exec (.gateResult) s = execGateResult s := rfl
theorem exec_rsData (s : State) : exec (.rsData) s = execRsData s := rfl
theorem exec_rsDone (s : State) : exec (.rsDone) s = execRsDone s := rfl
theorem exec_fail (s : State) : exec (.fail) s = execFail s := rfl
theorem exec_e2eTimeout (xid : Nat) (s : State) : exec (.e2eTimeout xid) s = execE2eTimeout xid s := rfl
theorem exec_heartbeatTimer (n : Nat) (tag : Nat) (s : State) : exec (.heartbeatTimer n tag) s = execHeartbeatTimer n tag s := rfl
theorem exec_collSilenceTimeout (n : Nat) (tag : Nat) (s : State) : exec (.collSilenceTimeout n tag) s = execCollSilenceTimeout n tag s := rfl
theorem exec_fabMcastResend (n : Nat) (tag : Nat) (s : State) : exec (.fabMcastResend n tag) s = execFabMcastResend n tag s := rfl
theorem exec_fabMcastDeadline (n : Nat) (tag : Nat) (s : State) : exec (.fabMcastDeadline n tag) s = execFabMcastDeadline n tag s := rfl
theorem exec_fencedTimer (p : Nat) (s : State) : exec (.fencedTimer p) s = execFencedTimer p s := rfl
theorem exec_deviceReset (s : State) : exec (.deviceReset) s = execDeviceReset s := rfl
theorem exec_powerOn (s : State) : exec (.powerOn) s = execPowerOn s := rfl
theorem exec_perstNAssert (ns : Nat) (s : State) : exec (.perstNAssert ns) s = execPerstNAssert ns s := rfl
theorem exec_perstNDeassert (fuseError : Bool) (s : State) : exec (.perstNDeassert fuseError) s = execPerstNDeassert fuseError s := rfl
theorem exec_pwrokRise (mgmtAddr : Nat) (testEn : Bool) (s : State) : exec (.pwrokRise mgmtAddr testEn) s = execPwrokRise mgmtAddr testEn s := rfl
theorem exec_pwrokFall (s : State) : exec (.pwrokFall) s = execPwrokFall s := rfl
theorem exec_pcieHotReset (s : State) : exec (.pcieHotReset) s = execPcieHotReset s := rfl
theorem exec_pcieLinkDown (s : State) : exec (.pcieLinkDown) s = execPcieLinkDown s := rfl
theorem exec_railOutOfRange (s : State) : exec (.railOutOfRange) s = execRailOutOfRange s := rfl
theorem exec_pllLossOfLock (s : State) : exec (.pllLossOfLock) s = execPllLossOfLock s := rfl
theorem exec_memoryTrainingComplete (trained : Nat) (failed : Nat) (s : State) : exec (.memoryTrainingComplete trained failed) s = execMemoryTrainingComplete trained failed s := rfl
theorem exec_go (s : State) : exec (.go) s = execGo s := rfl
theorem exec_verify (s : State) : exec (.verify) s = execVerify s := rfl
theorem exec_fwInitComplete (ok : Bool) (sub : Nat) (s : State) : exec (.fwInitComplete ok sub) s = execFwInitComplete ok sub s := rfl
theorem exec_fwTimeout (s : State) : exec (.fwTimeout) s = execFwTimeout s := rfl
theorem exec_bootReset (key : Nat) (s : State) : exec (.bootReset key) s = execBootReset key s := rfl
theorem exec_advance (s : State) : exec (.advance) s = execAdvance s := rfl
theorem exec_advanceFuseBlown (s : State) : exec (.advanceFuseBlown) s = execAdvanceFuseBlown s := rfl
theorem exec_fatalError (source : Nat) (cls : Nat) (unit : Nat) (info : Nat) (s : State) : exec (.fatalError source cls unit info) s = execFatalError source cls unit info s := rfl
theorem exec_pmDump (v : W64) (s : State) : exec (.pmDump v) s = execPmDump v s := rfl
theorem exec_errSelClear (v : W32) (s : State) : exec (.errSelClear v) s = execErrSelClear v s := rfl
theorem exec_errThresholdWindow (s : State) : exec (.errThresholdWindow) s = execErrThresholdWindow s := rfl
theorem exec_powerControlTick (p100 : Nat) (p1ms : Nat) (mj : Nat) (s : State) : exec (.powerControlTick p100 p1ms mj) s = execPowerControlTick p100 p1ms mj s := rfl
theorem exec_thermalControlTick (half : Nat) (tj : Int) (stack : Int) (s : State) : exec (.thermalControlTick half tj stack) s = execThermalControlTick half tj stack s := rfl
theorem exec_fastClamp (s : State) : exec (.fastClamp) s = execFastClamp s := rfl
theorem exec_fastClampRelease (s : State) : exec (.fastClampRelease) s = execFastClampRelease s := rfl
theorem exec_thermalTrip (s : State) : exec (.thermalTrip) s = execThermalTrip s := rfl
theorem exec_clkLimitWrite (v : W32) (s : State) : exec (.clkLimitWrite v) s = execClkLimitWrite v s := rfl
theorem exec_pmuClear (v : W32) (s : State) : exec (.pmuClear v) s = execPmuClear v s := rfl
theorem exec_pmuCountWrite (c : Nat) (v : W64) (s : State) : exec (.pmuCountWrite c v) s = execPmuCountWrite c v s := rfl
theorem exec_counterTick (u : Nat) (evs : List PmuEvent) (s : State) : exec (.counterTick u evs) s = execCounterTick u evs s := rfl
theorem exec_tagRecord (index : Nat) (a : Bool) (b : Bool) (stages : List Nat) (s : State) : exec (.tagRecord index a b stages) s = execTagRecord index a b stages s := rfl
theorem exec_tapeSnapshot (s : State) : exec (.tapeSnapshot) s = execTapeSnapshot s := rfl
theorem exec_timestampRead (part : Nat) (s : State) : exec (.timestampRead part) s = execTimestampRead part s := rfl
theorem exec_bar2Access (x : Nat) (len : Nat) (data : Option (List Byte)) (s : State) : exec (.bar2Access x len data) s = execBar2Access x len data s := rfl
theorem exec_registerWrite (bar : Nat) (off : Nat) (size : Nat) (v : W64) (s : State) : exec (.registerWrite bar off size v) s = execRegisterWrite bar off size v s := rfl
theorem exec_setEndpointId (b : Nat) (eid : Nat) (s : State) : exec (.setEndpointId b eid) s = execSetEndpointId b eid s := rfl
theorem exec_entdaa (addr : Nat) (s : State) : exec (.entdaa addr) s = execEntdaa addr s := rfl
theorem exec_setdasa (static : Nat) (addr : Nat) (s : State) : exec (.setdasa static addr) s = execSetdasa static addr s := rfl
theorem exec_rstdaa (s : State) : exec (.rstdaa) s = execRstdaa s := rfl
theorem exec_enec (events : Nat) (s : State) : exec (.enec events) s = execEnec events s := rfl
theorem exec_disec (events : Nat) (s : State) : exec (.disec events) s = execDisec events s := rfl
theorem exec_getpid (s : State) : exec (.getpid) s = execGetpid s := rfl
theorem exec_getbcr (s : State) : exec (.getbcr) s = execGetbcr s := rfl
theorem exec_getdcr (s : State) : exec (.getdcr) s = execGetdcr s := rfl
theorem exec_getstatus (s : State) : exec (.getstatus) s = execGetstatus s := rfl
theorem exec_getmrl (s : State) : exec (.getmrl) s = execGetmrl s := rfl
theorem exec_setmrl (v : Nat) (s : State) : exec (.setmrl v) s = execSetmrl v s := rfl
theorem exec_getmwl (s : State) : exec (.getmwl) s = execGetmwl s := rfl
theorem exec_setmwl (v : Nat) (s : State) : exec (.setmwl v) s = execSetmwl v s := rfl
theorem exec_getVersion (b : Nat) (s : State) : exec (.getVersion b) s = execGetVersion b s := rfl
theorem exec_getCapabilities (b : Nat) (s : State) : exec (.getCapabilities b) s = execGetCapabilities b s := rfl
theorem exec_negotiateAlgorithms (b : Nat) (offered : List Bool) (s : State) : exec (.negotiateAlgorithms b offered) s = execNegotiateAlgorithms b offered s := rfl
theorem exec_getDigests (b : Nat) (s : State) : exec (.getDigests b) s = execGetDigests b s := rfl
theorem exec_getCertificate (b : Nat) (slot : Nat) (offset : Nat) (length : Nat) (s : State) : exec (.getCertificate b slot offset length) s = execGetCertificate b slot offset length s := rfl
theorem exec_setCertificate (b : Nat) (slot : Nat) (chain : List Byte) (leafKey : Nat) (s : State) : exec (.setCertificate b slot chain leafKey) s = execSetCertificate b slot chain leafKey s := rfl
theorem exec_challenge (b : Nat) (slot : Nat) (msg : List Byte) (s : State) : exec (.challenge b slot msg) s = execChallenge b slot msg s := rfl
theorem exec_getMeasurements (b : Nat) (index : Nat) (signed : Bool) (msg : List Byte) (s : State) : exec (.getMeasurements b index signed msg) s = execGetMeasurements b index signed msg s := rfl
theorem exec_keyExchange (b : Nat) (msg : List Byte) (s : State) : exec (.keyExchange b msg) s = execKeyExchange b msg s := rfl
theorem exec_finish (b : Nat) (id : Nat) (verified : Bool) (s : State) : exec (.finish b id verified) s = execFinish b id verified s := rfl
theorem exec_keyUpdate (b : Nat) (id : Nat) (s : State) : exec (.keyUpdate b id) s = execKeyUpdate b id s := rfl
theorem exec_endSession (b : Nat) (id : Nat) (s : State) : exec (.endSession b id) s = execEndSession b id s := rfl
theorem exec_revocationOrder (b : Nat) (o : List Byte) (s : State) : exec (.revocationOrder b o) s = execRevocationOrder b o s := rfl
theorem exec_getTid (b : Nat) (s : State) : exec (.getTid b) s = execGetTid b s := rfl
theorem exec_setTid (b : Nat) (v : Nat) (s : State) : exec (.setTid b v) s = execSetTid b v s := rfl
theorem exec_getPldmVersion (b : Nat) (type : Nat) (s : State) : exec (.getPldmVersion b type) s = execGetPldmVersion b type s := rfl
theorem exec_getPldmTypes (b : Nat) (s : State) : exec (.getPldmTypes b) s = execGetPldmTypes b s := rfl
theorem exec_getPldmCommands (b : Nat) (type : Nat) (s : State) : exec (.getPldmCommands b type) s = execGetPldmCommands b type s := rfl
theorem exec_getPdrRepositoryInfo (b : Nat) (s : State) : exec (.getPdrRepositoryInfo b) s = execGetPdrRepositoryInfo b s := rfl
theorem exec_getPdr (b : Nat) (handle : Nat) (s : State) : exec (.getPdr b handle) s = execGetPdr b handle s := rfl
theorem exec_getSensorReading (b : Nat) (id : Nat) (s : State) : exec (.getSensorReading b id) s = execGetSensorReading b id s := rfl
theorem exec_getStateSensorReadings (b : Nat) (id : Nat) (s : State) : exec (.getStateSensorReadings b id) s = execGetStateSensorReadings b id s := rfl
theorem exec_getNumericEffecterValue (b : Nat) (id : Nat) (s : State) : exec (.getNumericEffecterValue b id) s = execGetNumericEffecterValue b id s := rfl
theorem exec_setNumericEffecterValue (b : Nat) (id : Nat) (v : Nat) (s : State) : exec (.setNumericEffecterValue b id v) s = execSetNumericEffecterValue b id v s := rfl
theorem exec_getStateEffecterStates (b : Nat) (id : Nat) (s : State) : exec (.getStateEffecterStates b id) s = execGetStateEffecterStates b id s := rfl
theorem exec_setStateEffecterStates (b : Nat) (id : Nat) (v : Nat) (s : State) : exec (.setStateEffecterStates b id v) s = execSetStateEffecterStates b id v s := rfl
theorem exec_setEventReceiver (b : Nat) (eid : Nat) (s : State) : exec (.setEventReceiver b eid) s = execSetEventReceiver b eid s := rfl
theorem exec_sensorSample (id : Nat) (v : Int) (s : State) : exec (.sensorSample id v) s = execSensorSample id v s := rfl
theorem exec_stateEventTimer (id : Nat) (s : State) : exec (.stateEventTimer id) s = execStateEventTimer id s := rfl
theorem exec_extest (pins : Nat) (cells : Nat) (s : State) : exec (.extest pins cells) s = execExtest pins cells s := rfl
theorem exec_samplePreload (pins : Nat) (cells : Nat) (s : State) : exec (.samplePreload pins cells) s = execSamplePreload pins cells s := rfl
theorem exec_extestPulse (pins : Nat) (cells : Nat) (s : State) : exec (.extestPulse pins cells) s = execExtestPulse pins cells s := rfl
theorem exec_extestTrain (pins : Nat) (cells : Nat) (s : State) : exec (.extestTrain pins cells) s = execExtestTrain pins cells s := rfl
theorem exec_syncWaitTimeLimit (n : Nat) (tag : Nat) (s : State) : exec (.syncWaitTimeLimit n tag) s = execSyncWaitTimeLimit n tag s := rfl
theorem exec_readServiceDeadline (xid : Nat) (s : State) : exec (.readServiceDeadline xid) s = execReadServiceDeadline xid s := rfl
theorem exec_lpddrRefresh (i : Nat) (s : State) : exec (.lpddrRefresh i) s = execLpddrRefresh i s := rfl
theorem exec_zqCalibration (i : Nat) (inRange : Bool) (s : State) : exec (.zqCalibration i inRange) s = execZqCalibration i inRange s := rfl
theorem exec_sramInitComplete (ok : Bool) (s : State) : exec (.sramInitComplete ok) s = execSramInitComplete ok s := rfl
theorem exec_pcieConfigRequest (msix : Option (Bool × Bool)) (s : State) : exec (.pcieConfigRequest msix) s = execPcieConfigRequest msix s := rfl
theorem exec_msixVectorUnmask (v : Nat) (s : State) : exec (.msixVectorUnmask v) s = execMsixVectorUnmask v s := rfl
theorem exec_portCtrlWrite (p : Nat) (v : W32) (s : State) : exec (.portCtrlWrite p v) s = execPortCtrlWrite p v s := rfl
theorem exec_portTrainingComplete (p : Nat) (s : State) : exec (.portTrainingComplete p) s = execPortTrainingComplete p s := rfl
theorem exec_pcieCompletionTimeout (w : HostReader) (s : State) : exec (.pcieCompletionTimeout w) s = execPcieCompletionTimeout w s := rfl
theorem exec_tapReset (s : State) : exec (.tapReset) s = execTapReset s := rfl
theorem exec_idcode (s : State) : exec (.idcode) s = execIdcode s := rfl
theorem exec_clamp (s : State) : exec (.clamp) s = execClamp s := rfl
theorem exec_highz (s : State) : exec (.highz) s = execHighz s := rfl
theorem exec_bypass (s : State) : exec (.bypass) s = execBypass s := rfl
theorem exec_railInRange (s : State) : exec (.railInRange) s = execRailInRange s := rfl
theorem exec_pcieLinkUp (s : State) : exec (.pcieLinkUp) s = execPcieLinkUp s := rfl

end Sys2Proof.Machine
end

