-- ==== Sys2Proof/Laws/Store.lean ====
section
/-! SUPPORT. Sparse stores and byte memories: a read after a write, a write that leaves every other key alone, and the canonical
form kept by every operation. -/

namespace Sys2Proof.Machine

open Sys2Proof

variable {α : Type}

theorem Store.get_drop_self (d : α) (m : Store α) (k : Nat) : Store.get d (Store.drop m k) k = d := by
  induction m with
  | nil => rfl
  | cons p m ih =>
    obtain ⟨j, v⟩ := p
    by_cases h : j = k <;> simp [Store.drop, Store.get, h, ih]

theorem Store.get_drop_ne (d : α) (m : Store α) {k i : Nat} (h : i ≠ k) : Store.get d (Store.drop m k) i = Store.get d m i := by
  induction m with
  | nil => rfl
  | cons p m ih =>
    obtain ⟨j, v⟩ := p
    by_cases hj : j = k
    · subst hj
      simp [Store.drop, Store.get, ih, Ne.symm h]
    · by_cases hi : j = i
      · subst hi
        simp [Store.drop, Store.get, h]
      · simp [Store.drop, Store.get, hj, hi, ih]

theorem Store.length_drop_le (m : Store α) (k : Nat) : (Store.drop m k).length ≤ m.length := by
  induction m with
  | nil => exact Nat.le_refl 0
  | cons q m ih =>
    obtain ⟨i, u⟩ := q
    by_cases hi : i = k <;> simp [Store.drop, hi] <;> omega

theorem Store.get_put_self (d : α) (m : Store α) (k : Nat) (v : α) (h : Store.drop m k = m) :
    Store.get d (Store.put m k v) k = v := by
  induction m with
  | nil => simp [Store.put, Store.get]
  | cons p m ih =>
    obtain ⟨j, w⟩ := p
    by_cases hj : j = k
    · exfalso
      have h1 := congrArg List.length h
      have h2 := Store.length_drop_le m k
      simp [Store.drop, hj] at h1
      omega
    · have hm : Store.drop m k = m := by simpa [Store.drop, hj] using h
      by_cases hk : k < j <;> simp [Store.put, Store.get, hk, hj, ih hm]

theorem Store.get_put_ne (d : α) (m : Store α) {k i : Nat} (v : α) (h : i ≠ k) :
    Store.get d (Store.put m k v) i = Store.get d m i := by
  induction m with
  | nil => simp [Store.put, Store.get, Ne.symm h]
  | cons p m ih =>
    obtain ⟨j, w⟩ := p
    by_cases hk : k < j
    · simp [Store.put, Store.get, hk, Ne.symm h]
    · by_cases hi : j = i
      · subst hi
        simp [Store.put, Store.get, hk]
      · simp [Store.put, Store.get, hk, hi, ih]

theorem Store.drop_drop (m : Store α) (k : Nat) : Store.drop (Store.drop m k) k = Store.drop m k := by
  induction m with
  | nil => rfl
  | cons p m ih =>
    obtain ⟨j, v⟩ := p
    by_cases h : j = k <;> simp [Store.drop, h, ih]

section Canonical

variable [DecidableEq α]

/-- A read after a write to the same key gives the value written. -/
theorem Store.get_set_self (d : α) (m : Store α) (k : Nat) (v : α) : Store.get d (Store.set d m k v) k = v := by
  unfold Store.set
  split
  · next h => rw [Store.get_drop_self, h]
  · exact Store.get_put_self d _ k v (Store.drop_drop m k)

/-- A write leaves every other key alone. -/
theorem Store.get_set_ne (d : α) (m : Store α) {k i : Nat} (v : α) (h : i ≠ k) :
    Store.get d (Store.set d m k v) i = Store.get d m i := by
  unfold Store.set
  split
  · exact Store.get_drop_ne d m h
  · rw [Store.get_put_ne d _ v h, Store.get_drop_ne d m h]

theorem Store.wfFrom_mono (d : α) (m : Store α) {a b : Nat} (h : a ≤ b) (hm : Store.wfFrom d b m = true) :
    Store.wfFrom d a m = true := by
  cases m with
  | nil => rfl
  | cons p m =>
    obtain ⟨k, v⟩ := p
    simp only [Store.wfFrom, Bool.and_eq_true, decide_eq_true_eq] at hm ⊢
    exact ⟨⟨le_trans h hm.1.1, hm.1.2⟩, hm.2⟩

theorem Store.wfFrom_drop (d : α) (m : Store α) (k : Nat) {lo : Nat} (hm : Store.wfFrom d lo m = true) :
    Store.wfFrom d lo (Store.drop m k) = true := by
  induction m generalizing lo with
  | nil => rfl
  | cons p m ih =>
    obtain ⟨j, v⟩ := p
    simp only [Store.wfFrom, Bool.and_eq_true, decide_eq_true_eq] at hm
    by_cases hj : j = k
    · simp only [Store.drop, hj, if_true]
      exact Store.wfFrom_mono d _ (by omega) (ih hm.2)
    · simp only [Store.drop, hj, if_false, Store.wfFrom, Bool.and_eq_true, decide_eq_true_eq]
      exact ⟨hm.1, ih hm.2⟩

theorem Store.wfFrom_put (d : α) (m : Store α) (k : Nat) (v : α) (hv : v ≠ d) {lo : Nat} (hlo : lo ≤ k)
    (hk : Store.drop m k = m) (hm : Store.wfFrom d lo m = true) : Store.wfFrom d lo (Store.put m k v) = true := by
  induction m generalizing lo with
  | nil => simp [Store.put, Store.wfFrom, hlo, hv]
  | cons p m ih =>
    obtain ⟨j, w⟩ := p
    have hj : j ≠ k := by
      intro hj
      have h1 := congrArg List.length hk
      have h2 := Store.length_drop_le m k
      simp [Store.drop, hj] at h1
      omega
    have hm' : Store.drop m k = m := by simpa [Store.drop, hj] using hk
    simp only [Store.wfFrom, Bool.and_eq_true, decide_eq_true_eq] at hm
    by_cases hlt : k < j
    · simp only [Store.put, hlt, if_true, Store.wfFrom, Bool.and_eq_true, decide_eq_true_eq]
      exact ⟨⟨hlo, by simp [hv]⟩, ⟨by omega, hm.1.2⟩, hm.2⟩
    · simp only [Store.put, hlt, if_false, Store.wfFrom, Bool.and_eq_true, decide_eq_true_eq]
      exact ⟨hm.1, ih (by omega) hm' hm.2⟩

/-- A write keeps the canonical form. -/
theorem Store.wf_set (d : α) (m : Store α) (k : Nat) (v : α) (hm : Store.wf d m = true) : Store.wf d (Store.set d m k v) = true := by
  unfold Store.set Store.wf at *
  split
  · exact Store.wfFrom_drop d m k hm
  · next h => exact Store.wfFrom_put d _ k v h (Nat.zero_le k) (Store.drop_drop m k) (Store.wfFrom_drop d m k hm)

/-- Writing every entry of one store into another keeps the canonical form. -/
theorem Store.wf_setFrom (d : α) (l m : Store α) (hm : Store.wf d m = true) :
    Store.wf d (l.foldl (fun (m : Store α) p => Store.set d m p.1 p.2) m) = true := by
  induction l generalizing m with
  | nil => exact hm
  | cons p l ih => exact ih _ (Store.wf_set d _ _ _ hm)

theorem Store.wfFrom_keep (d : α) (p : Nat → Bool) (m : Store α) {lo : Nat} (hm : Store.wfFrom d lo m = true) :
    Store.wfFrom d lo (Store.keep p m) = true := by
  induction m generalizing lo with
  | nil => rfl
  | cons q m ih =>
    obtain ⟨k, v⟩ := q
    simp only [Store.wfFrom, Bool.and_eq_true, decide_eq_true_eq] at hm
    by_cases h : p k = true
    · simp only [Store.keep, h, if_true, Store.wfFrom, Bool.and_eq_true, decide_eq_true_eq]
      exact ⟨hm.1, ih hm.2⟩
    · simp only [Store.keep, h]
      exact Store.wfFrom_mono d _ (by omega) (ih hm.2)

/-- Keeping some of the entries keeps the canonical form. -/
theorem Store.wf_keep (d : α) (p : Nat → Bool) (m : Store α) (hm : Store.wf d m = true) : Store.wf d (Store.keep p m) = true :=
  Store.wfFrom_keep d p m hm

/-- What keeping some of the entries leaves at every key. -/
theorem Store.get_keep (d : α) (p : Nat → Bool) (m : Store α) (i : Nat) :
    Store.get d (Store.keep p m) i = if p i = true then Store.get d m i else d := by
  induction m with
  | nil => simp [Store.keep, Store.get]
  | cons q m ih =>
    obtain ⟨j, v⟩ := q
    by_cases hj : j = i
    · subst hj
      by_cases h : p j = true <;> simp [Store.keep, Store.get, h, ih]
    · by_cases h : p j = true <;> simp [Store.keep, Store.get, h, hj, ih]

/-- A key that the first part does not list is read from the second. -/
theorem Store.get_append (d : α) (a b : Store α) (i : Nat) (h : ∀ q ∈ a, q.1 ≠ i) : Store.get d (a ++ b) i = Store.get d b i := by
  induction a with
  | nil => rfl
  | cons q a ih =>
    obtain ⟨j, v⟩ := q
    have hj : j ≠ i := h (j, v) (by simp)
    simp only [List.cons_append, Store.get, hj, if_false]
    exact ih (fun q hq => h q (by simp [hq]))

/-- A key that the second part does not list is read from the first. -/
theorem Store.get_append_left (d : α) (a b : Store α) (i : Nat) (h : ∀ q ∈ b, q.1 ≠ i) : Store.get d (a ++ b) i = Store.get d a i := by
  induction a with
  | nil =>
    show Store.get d b i = d
    induction b with
    | nil => rfl
    | cons q b ih =>
      obtain ⟨j, v⟩ := q
      have hj : j ≠ i := h (j, v) (by simp)
      simp only [Store.get, hj, if_false]
      exact ih (fun q hq => h q (by simp [hq]))
  | cons q a ih =>
    obtain ⟨j, v⟩ := q
    by_cases hj : j = i <;> simp [Store.get, hj, ih]

theorem Store.keys_keep (p : Nat → Bool) (m : Store α) : ∀ q ∈ Store.keep p m, p q.1 = true := by
  induction m with
  | nil => simp [Store.keep]
  | cons q m ih =>
    obtain ⟨j, v⟩ := q
    by_cases h : p j = true
    · intro q hq
      rw [Store.keep, if_pos h] at hq
      rcases List.mem_cons.mp hq with rfl | hq
      · exact h
      · exact ih q hq
    · simp only [Store.keep, h]
      exact ih

theorem Store.keys_runAt (d : α) (k : Nat) (vs : List α) : ∀ q ∈ Store.runAt d k vs, k ≤ q.1 ∧ q.1 < k + vs.length := by
  induction vs generalizing k with
  | nil => simp [Store.runAt]
  | cons v vs ih =>
    intro q hq
    have step : q ∈ Store.runAt d (k + 1) vs → k ≤ q.1 ∧ q.1 < k + (v :: vs).length := by
      intro h
      have := ih (k + 1) q h
      simp only [List.length_cons]
      omega
    by_cases hv : v = d
    · rw [Store.runAt, if_pos hv] at hq
      exact step hq
    · rw [Store.runAt, if_neg hv] at hq
      rcases List.mem_cons.mp hq with rfl | h
      · simp
      · exact step h

theorem Store.get_runAt (d : α) (k i : Nat) (vs : List α) :
    Store.get d (Store.runAt d k vs) i = if h : k ≤ i ∧ i < k + vs.length then vs[i - k]'(by omega) else d := by
  induction vs generalizing k with
  | nil => rw [dif_neg (by simp)]; rfl
  | cons v vs ih =>
    by_cases hi : i = k
    · subst hi
      rw [dif_pos (by simp)]
      by_cases hv : v = d
      · rw [Store.runAt, if_pos hv, ih, dif_neg (by omega)]; simp [hv]
      · rw [Store.runAt, if_neg hv]; simp [Store.get]
    · have e : Store.get d (Store.runAt d k (v :: vs)) i = Store.get d (Store.runAt d (k + 1) vs) i := by
        by_cases hv : v = d
        · rw [Store.runAt, if_pos hv]
        · rw [Store.runAt, if_neg hv]; simp [Store.get, Ne.symm hi]
      rw [e, ih]
      by_cases h : k + 1 ≤ i ∧ i < k + 1 + vs.length
      · rw [dif_pos h, dif_pos (by simp; omega)]
        have : i - k = (i - (k + 1)) + 1 := by omega
        simp only [this, List.getElem_cons_succ]
      · rw [dif_neg h, dif_neg (by simp; omega)]

/-- A run of values written at `k` is read at every key of the run. -/
theorem Store.get_setAll (d : α) (m : Store α) (k i : Nat) (vs : List α) :
    Store.get d (Store.setAll d m k vs) i = if h : k ≤ i ∧ i < k + vs.length then vs[i - k]'(by omega) else Store.get d m i := by
  unfold Store.setAll
  by_cases h1 : i < k
  · rw [Store.get_append_left, Store.get_keep, if_pos (by simpa using h1), dif_neg (by omega)]
    intro q hq
    rcases List.mem_append.mp hq with hq | hq
    · have := Store.keys_runAt d k vs q hq; omega
    · have := Store.keys_keep _ m q hq; simp at this; omega
  · rw [Store.get_append _ _ _ _ (by intro q hq; have := Store.keys_keep _ m q hq; simp at this; omega)]
    by_cases h2 : i < k + vs.length
    · rw [Store.get_append_left _ _ _ _ (by intro q hq; have := Store.keys_keep _ m q hq; simp at this; omega), Store.get_runAt,
        dif_pos ⟨by omega, h2⟩, dif_pos ⟨by omega, h2⟩]
    · rw [Store.get_append _ _ _ _ (by intro q hq; have := Store.keys_runAt d k vs q hq; omega), Store.get_keep,
        if_pos (by simp; omega), dif_neg (by omega)]

theorem Store.wfFrom_append (d : α) (a b : Store α) {lo mid : Nat} (hlo : lo ≤ mid) (ha : Store.wfFrom d lo a = true)
    (hb : Store.wfFrom d mid b = true) (h : ∀ q ∈ a, q.1 < mid) : Store.wfFrom d lo (a ++ b) = true := by
  induction a generalizing lo with
  | nil => exact Store.wfFrom_mono d b hlo hb
  | cons q a ih =>
    obtain ⟨j, v⟩ := q
    simp only [Store.wfFrom, Bool.and_eq_true, decide_eq_true_eq, List.cons_append] at ha ⊢
    exact ⟨ha.1, ih (h (j, v) (by simp)) ha.2 (fun q hq => h q (by simp [hq]))⟩

theorem Store.wfFrom_runAt (d : α) (k : Nat) (vs : List α) : Store.wfFrom d k (Store.runAt d k vs) = true := by
  induction vs generalizing k with
  | nil => rfl
  | cons v vs ih =>
    by_cases hv : v = d
    · rw [Store.runAt, if_pos hv]
      exact Store.wfFrom_mono d _ (Nat.le_succ k) (ih (k + 1))
    · rw [Store.runAt, if_neg hv]
      simp [Store.wfFrom, hv, ih (k + 1)]

theorem Store.wfFrom_keep_from (d : α) (p : Nat → Bool) (m : Store α) {lo mid : Nat} (hm : Store.wfFrom d lo m = true)
    (h : ∀ j, p j = true → mid ≤ j) : Store.wfFrom d mid (Store.keep p m) = true := by
  induction m generalizing lo mid with
  | nil => rfl
  | cons q m ih =>
    obtain ⟨j, v⟩ := q
    simp only [Store.wfFrom, Bool.and_eq_true, decide_eq_true_eq] at hm
    by_cases hj : p j = true
    · simp only [Store.keep, hj, if_true, Store.wfFrom, Bool.and_eq_true, decide_eq_true_eq]
      exact ⟨⟨h j hj, hm.1.2⟩, Store.wfFrom_keep d p m hm.2⟩
    · simp only [Store.keep, hj]
      exact ih hm.2 h

/-- A write of a run of values keeps the canonical form. -/
theorem Store.wf_setAll (d : α) (m : Store α) (k : Nat) (vs : List α) (hm : Store.wf d m = true) :
    Store.wf d (Store.setAll d m k vs) = true := by
  unfold Store.setAll Store.wf
  refine Store.wfFrom_append d _ _ (Nat.zero_le k) (Store.wfFrom_keep d _ m hm)
    (Store.wfFrom_append d _ _ (Nat.le_add_right k vs.length) (Store.wfFrom_runAt d k vs)
      (Store.wfFrom_keep_from d _ m hm (by intro j; simp)) (fun q hq => (Store.keys_runAt d k vs q hq).2)) ?_
  intro q hq
  simpa using Store.keys_keep _ m q hq

theorem Store.walk_getElem? (d : α) (m : Store α) (k n i : Nat) :
    (Store.walk d m k n)[i]? = if i < n then some (Store.get d m (k + i)) else none := by
  induction n generalizing k i with
  | zero => simp [Store.walk]
  | succ n ih =>
    cases i with
    | zero => simp [Store.walk]
    | succ i =>
      simp only [Store.walk, List.getElem?_cons_succ, ih]
      simp [Nat.add_comm, Nat.add_left_comm]

/-- The values of a run are the values at its keys. -/
theorem Store.getAll_getElem? (d : α) (m : Store α) (k n i : Nat) :
    (Store.getAll d m k n)[i]? = if i < n then some (Store.get d m (k + i)) else none := by
  unfold Store.getAll
  rw [Store.walk_getElem?]
  by_cases h : i < n
  · rw [if_pos h, if_pos h, Store.get_keep, if_pos (by simp; omega)]
  · rw [if_neg h, if_neg h]

/-- A run read where a run of its length was written is that run. -/
theorem Store.getAll_setAll (d : α) (m : Store α) (k : Nat) (vs : List α) :
    Store.getAll d (Store.setAll d m k vs) k vs.length = vs := by
  apply List.ext_getElem?
  intro i
  rw [Store.getAll_getElem?]
  by_cases h : i < vs.length
  · rw [if_pos h, Store.get_setAll, dif_pos (by omega), List.getElem?_eq_getElem h]
    simp
  · rw [if_neg h, List.getElem?_eq_none (by omega)]

end Canonical

/-- A byte written is the byte read. -/
theorem Memory.byte_setByte_self (m : Memory) (a : Nat) (b : Byte) : (m.setByte a b).byte a = b := Store.get_set_self 0 m a b

/-- Writing one byte leaves every other byte alone. -/
theorem Memory.byte_setByte_ne (m : Memory) {a i : Nat} (b : Byte) (h : i ≠ a) : (m.setByte a b).byte i = m.byte i :=
  Store.get_set_ne 0 m b h

/-- What a run of bytes written at `a` leaves at every address. -/
theorem Memory.byte_setBytes (m : Memory) (a i : Nat) (bs : List Byte) :
    (m.setBytes a bs).byte i = if h : a ≤ i ∧ i < a + bs.length then bs[i - a]'(by omega) else m.byte i :=
  Store.get_setAll 0 m a i bs

/-- Bytes written are the bytes read. -/
theorem Memory.bytes_setBytes (m : Memory) (a : Nat) (bs : List Byte) : (m.setBytes a bs).bytes a bs.length = bs :=
  Store.getAll_setAll 0 m a bs

theorem Memory.wf_setByte (m : Memory) (a : Nat) (b : Byte) (h : m.wf = true) : (m.setByte a b).wf = true := Store.wf_set 0 m a b h

theorem Memory.wf_setBytes (m : Memory) (a : Nat) (bs : List Byte) (h : m.wf = true) : (m.setBytes a bs).wf = true :=
  Store.wf_setAll 0 m a bs h

theorem Memory.wf_writeLE (m : Memory) (a n v : Nat) (h : m.wf = true) : (m.writeLE a n v).wf = true := by
  induction n generalizing m a v with
  | zero => exact h
  | succ n ih => exact ih _ _ _ (Memory.wf_setByte m a _ h)

theorem Memory.wf_keep (p : Nat → Bool) (m : Memory) (h : m.wf = true) : Memory.wf (Store.keep p m) = true := Store.wf_keep 0 p m h

end Sys2Proof.Machine
end

