-- ==== Sys2Proof/Laws/State.lean ====
section
/-! SUPPORT. One lemma per field per update of the state, and what a core, a context, a register and a byte read as after an
update. -/

namespace Sys2Proof.Machine

open Sys2Proof

@[simp] theorem State.setCore_now (s : State) (c : Nat) (k : Core) : (s.setCore c k).now = s.now := rfl
@[simp] theorem State.setCore_free (s : State) (c : Nat) (k : Core) : (s.setCore c k).free = s.free := rfl
@[simp] theorem State.setCore_dev (s : State) (c : Nat) (k : Core) : (s.setCore c k).dev = s.dev := rfl
@[simp] theorem State.setCore_poison (s : State) (c : Nat) (k : Core) : (s.setCore c k).poison = s.poison := rfl
@[simp] theorem State.setCore_host (s : State) (c : Nat) (k : Core) : (s.setCore c k).host = s.host := rfl
@[simp] theorem State.setCore_hostEp (s : State) (c : Nat) (k : Core) : (s.setCore c k).hostEp = s.hostEp := rfl
@[simp] theorem State.setCore_hostBad (s : State) (c : Nat) (k : Core) : (s.setCore c k).hostBad = s.hostBad := rfl
@[simp] theorem State.setCore_regs (s : State) (c : Nat) (k : Core) : (s.setCore c k).regs = s.regs := rfl
@[simp] theorem State.setCore_staged (s : State) (c : Nat) (k : Core) : (s.setCore c k).staged = s.staged := rfl
@[simp] theorem State.setCore_cores (s : State) (c : Nat) (k : Core) : (s.setCore c k).cores = Store.set {} s.cores c k := rfl
@[simp] theorem State.setCore_dbg (s : State) (c : Nat) (k : Core) : (s.setCore c k).dbg = s.dbg := rfl
@[simp] theorem State.setCore_sync (s : State) (c : Nat) (k : Core) : (s.setCore c k).sync = s.sync := rfl
@[simp] theorem State.setCore_roomWait (s : State) (c : Nat) (k : Core) : (s.setCore c k).roomWait = s.roomWait := rfl
@[simp] theorem State.setCore_roomTurn (s : State) (c : Nat) (k : Core) : (s.setCore c k).roomTurn = s.roomTurn := rfl
@[simp] theorem State.setCore_fab (s : State) (c : Nat) (k : Core) : (s.setCore c k).fab = s.fab := rfl
@[simp] theorem State.setCore_err (s : State) (c : Nat) (k : Core) : (s.setCore c k).err = s.err := rfl
@[simp] theorem State.setCore_press (s : State) (c : Nat) (k : Core) : (s.setCore c k).press = s.press := rfl
@[simp] theorem State.setCore_pressTurn (s : State) (c : Nat) (k : Core) : (s.setCore c k).pressTurn = s.pressTurn := rfl
@[simp] theorem State.setCore_ctxs (s : State) (c : Nat) (k : Core) : (s.setCore c k).ctxs = s.ctxs := rfl
@[simp] theorem State.setCore_msixTable (s : State) (c : Nat) (k : Core) : (s.setCore c k).msixTable = s.msixTable := rfl
@[simp] theorem State.setCore_msixPending (s : State) (c : Nat) (k : Core) : (s.setCore c k).msixPending = s.msixPending := rfl
@[simp] theorem State.setCore_msixEnable (s : State) (c : Nat) (k : Core) : (s.setCore c k).msixEnable = s.msixEnable := rfl
@[simp] theorem State.setCore_msixMask (s : State) (c : Nat) (k : Core) : (s.setCore c k).msixMask = s.msixMask := rfl
@[simp] theorem State.setCore_msixSent (s : State) (c : Nat) (k : Core) : (s.setCore c k).msixSent = s.msixSent := rfl
@[simp] theorem State.setCore_plat (s : State) (c : Nat) (k : Core) : (s.setCore c k).plat = s.plat := rfl
@[simp] theorem State.setCore_mem (s : State) (c : Nat) (k : Core) : (s.setCore c k).mem = s.mem := rfl
@[simp] theorem State.setCore_mesh (s : State) (c : Nat) (k : Core) : (s.setCore c k).mesh = s.mesh := rfl
@[simp] theorem State.setCore_pending (s : State) (c : Nat) (k : Core) : (s.setCore c k).pending = s.pending := rfl

@[simp] theorem State.setCtx_now (s : State) (n : Nat) (x : Ctx) : (s.setCtx n x).now = s.now := rfl
@[simp] theorem State.setCtx_free (s : State) (n : Nat) (x : Ctx) : (s.setCtx n x).free = s.free := rfl
@[simp] theorem State.setCtx_dev (s : State) (n : Nat) (x : Ctx) : (s.setCtx n x).dev = s.dev := rfl
@[simp] theorem State.setCtx_poison (s : State) (n : Nat) (x : Ctx) : (s.setCtx n x).poison = s.poison := rfl
@[simp] theorem State.setCtx_host (s : State) (n : Nat) (x : Ctx) : (s.setCtx n x).host = s.host := rfl
@[simp] theorem State.setCtx_hostEp (s : State) (n : Nat) (x : Ctx) : (s.setCtx n x).hostEp = s.hostEp := rfl
@[simp] theorem State.setCtx_hostBad (s : State) (n : Nat) (x : Ctx) : (s.setCtx n x).hostBad = s.hostBad := rfl
@[simp] theorem State.setCtx_regs (s : State) (n : Nat) (x : Ctx) : (s.setCtx n x).regs = s.regs := rfl
@[simp] theorem State.setCtx_staged (s : State) (n : Nat) (x : Ctx) : (s.setCtx n x).staged = s.staged := rfl
@[simp] theorem State.setCtx_cores (s : State) (n : Nat) (x : Ctx) : (s.setCtx n x).cores = s.cores := rfl
@[simp] theorem State.setCtx_dbg (s : State) (n : Nat) (x : Ctx) : (s.setCtx n x).dbg = s.dbg := rfl
@[simp] theorem State.setCtx_sync (s : State) (n : Nat) (x : Ctx) : (s.setCtx n x).sync = s.sync := rfl
@[simp] theorem State.setCtx_roomWait (s : State) (n : Nat) (x : Ctx) : (s.setCtx n x).roomWait = s.roomWait := rfl
@[simp] theorem State.setCtx_roomTurn (s : State) (n : Nat) (x : Ctx) : (s.setCtx n x).roomTurn = s.roomTurn := rfl
@[simp] theorem State.setCtx_fab (s : State) (n : Nat) (x : Ctx) : (s.setCtx n x).fab = s.fab := rfl
@[simp] theorem State.setCtx_err (s : State) (n : Nat) (x : Ctx) : (s.setCtx n x).err = s.err := rfl
@[simp] theorem State.setCtx_press (s : State) (n : Nat) (x : Ctx) : (s.setCtx n x).press = s.press := rfl
@[simp] theorem State.setCtx_pressTurn (s : State) (n : Nat) (x : Ctx) : (s.setCtx n x).pressTurn = s.pressTurn := rfl
@[simp] theorem State.setCtx_ctxs (s : State) (n : Nat) (x : Ctx) : (s.setCtx n x).ctxs = Store.set {} s.ctxs n x := rfl
@[simp] theorem State.setCtx_msixTable (s : State) (n : Nat) (x : Ctx) : (s.setCtx n x).msixTable = s.msixTable := rfl
@[simp] theorem State.setCtx_msixPending (s : State) (n : Nat) (x : Ctx) : (s.setCtx n x).msixPending = s.msixPending := rfl
@[simp] theorem State.setCtx_msixEnable (s : State) (n : Nat) (x : Ctx) : (s.setCtx n x).msixEnable = s.msixEnable := rfl
@[simp] theorem State.setCtx_msixMask (s : State) (n : Nat) (x : Ctx) : (s.setCtx n x).msixMask = s.msixMask := rfl
@[simp] theorem State.setCtx_msixSent (s : State) (n : Nat) (x : Ctx) : (s.setCtx n x).msixSent = s.msixSent := rfl
@[simp] theorem State.setCtx_plat (s : State) (n : Nat) (x : Ctx) : (s.setCtx n x).plat = s.plat := rfl
@[simp] theorem State.setCtx_mem (s : State) (n : Nat) (x : Ctx) : (s.setCtx n x).mem = s.mem := rfl
@[simp] theorem State.setCtx_mesh (s : State) (n : Nat) (x : Ctx) : (s.setCtx n x).mesh = s.mesh := rfl
@[simp] theorem State.setCtx_pending (s : State) (n : Nat) (x : Ctx) : (s.setCtx n x).pending = s.pending := rfl

@[simp] theorem State.setReg_now (s : State) (off v : Nat) : (s.setReg off v).now = s.now := rfl
@[simp] theorem State.setReg_free (s : State) (off v : Nat) : (s.setReg off v).free = s.free := rfl
@[simp] theorem State.setReg_dev (s : State) (off v : Nat) : (s.setReg off v).dev = s.dev := rfl
@[simp] theorem State.setReg_poison (s : State) (off v : Nat) : (s.setReg off v).poison = s.poison := rfl
@[simp] theorem State.setReg_host (s : State) (off v : Nat) : (s.setReg off v).host = s.host := rfl
@[simp] theorem State.setReg_hostEp (s : State) (off v : Nat) : (s.setReg off v).hostEp = s.hostEp := rfl
@[simp] theorem State.setReg_hostBad (s : State) (off v : Nat) : (s.setReg off v).hostBad = s.hostBad := rfl
@[simp] theorem State.setReg_regs (s : State) (off v : Nat) : (s.setReg off v).regs = Store.set 0 s.regs off (BitVec.ofNat 32 v) := rfl
@[simp] theorem State.setReg_staged (s : State) (off v : Nat) : (s.setReg off v).staged = s.staged := rfl
@[simp] theorem State.setReg_cores (s : State) (off v : Nat) : (s.setReg off v).cores = s.cores := rfl
@[simp] theorem State.setReg_dbg (s : State) (off v : Nat) : (s.setReg off v).dbg = s.dbg := rfl
@[simp] theorem State.setReg_sync (s : State) (off v : Nat) : (s.setReg off v).sync = s.sync := rfl
@[simp] theorem State.setReg_roomWait (s : State) (off v : Nat) : (s.setReg off v).roomWait = s.roomWait := rfl
@[simp] theorem State.setReg_roomTurn (s : State) (off v : Nat) : (s.setReg off v).roomTurn = s.roomTurn := rfl
@[simp] theorem State.setReg_fab (s : State) (off v : Nat) : (s.setReg off v).fab = s.fab := rfl
@[simp] theorem State.setReg_err (s : State) (off v : Nat) : (s.setReg off v).err = s.err := rfl
@[simp] theorem State.setReg_press (s : State) (off v : Nat) : (s.setReg off v).press = s.press := rfl
@[simp] theorem State.setReg_pressTurn (s : State) (off v : Nat) : (s.setReg off v).pressTurn = s.pressTurn := rfl
@[simp] theorem State.setReg_ctxs (s : State) (off v : Nat) : (s.setReg off v).ctxs = s.ctxs := rfl
@[simp] theorem State.setReg_msixTable (s : State) (off v : Nat) : (s.setReg off v).msixTable = s.msixTable := rfl
@[simp] theorem State.setReg_msixPending (s : State) (off v : Nat) : (s.setReg off v).msixPending = s.msixPending := rfl
@[simp] theorem State.setReg_msixEnable (s : State) (off v : Nat) : (s.setReg off v).msixEnable = s.msixEnable := rfl
@[simp] theorem State.setReg_msixMask (s : State) (off v : Nat) : (s.setReg off v).msixMask = s.msixMask := rfl
@[simp] theorem State.setReg_msixSent (s : State) (off v : Nat) : (s.setReg off v).msixSent = s.msixSent := rfl
@[simp] theorem State.setReg_plat (s : State) (off v : Nat) : (s.setReg off v).plat = s.plat := rfl
@[simp] theorem State.setReg_mem (s : State) (off v : Nat) : (s.setReg off v).mem = s.mem := rfl
@[simp] theorem State.setReg_mesh (s : State) (off v : Nat) : (s.setReg off v).mesh = s.mesh := rfl
@[simp] theorem State.setReg_pending (s : State) (off v : Nat) : (s.setReg off v).pending = s.pending := rfl

@[simp] theorem State.tick_now (s : State) : (s.tick).now = s.now + 1 := rfl
@[simp] theorem State.tick_free (s : State) : (s.tick).free = s.free := rfl
@[simp] theorem State.tick_dev (s : State) : (s.tick).dev = s.dev := rfl
@[simp] theorem State.tick_poison (s : State) : (s.tick).poison = s.poison := rfl
@[simp] theorem State.tick_host (s : State) : (s.tick).host = s.host := rfl
@[simp] theorem State.tick_hostEp (s : State) : (s.tick).hostEp = s.hostEp := rfl
@[simp] theorem State.tick_hostBad (s : State) : (s.tick).hostBad = s.hostBad := rfl
@[simp] theorem State.tick_regs (s : State) : (s.tick).regs = s.regs := rfl
@[simp] theorem State.tick_staged (s : State) : (s.tick).staged = s.staged := rfl
@[simp] theorem State.tick_cores (s : State) : (s.tick).cores = s.cores := rfl
@[simp] theorem State.tick_dbg (s : State) : (s.tick).dbg = s.dbg := rfl
@[simp] theorem State.tick_sync (s : State) : (s.tick).sync = s.sync := rfl
@[simp] theorem State.tick_roomWait (s : State) : (s.tick).roomWait = s.roomWait := rfl
@[simp] theorem State.tick_roomTurn (s : State) : (s.tick).roomTurn = s.roomTurn := rfl
@[simp] theorem State.tick_fab (s : State) : (s.tick).fab = s.fab := rfl
@[simp] theorem State.tick_err (s : State) : (s.tick).err = s.err := rfl
@[simp] theorem State.tick_press (s : State) : (s.tick).press = s.press := rfl
@[simp] theorem State.tick_pressTurn (s : State) : (s.tick).pressTurn = s.pressTurn := rfl
@[simp] theorem State.tick_ctxs (s : State) : (s.tick).ctxs = s.ctxs := rfl
@[simp] theorem State.tick_msixTable (s : State) : (s.tick).msixTable = s.msixTable := rfl
@[simp] theorem State.tick_msixPending (s : State) : (s.tick).msixPending = s.msixPending := rfl
@[simp] theorem State.tick_msixEnable (s : State) : (s.tick).msixEnable = s.msixEnable := rfl
@[simp] theorem State.tick_msixMask (s : State) : (s.tick).msixMask = s.msixMask := rfl
@[simp] theorem State.tick_msixSent (s : State) : (s.tick).msixSent = s.msixSent := rfl
@[simp] theorem State.tick_plat (s : State) : (s.tick).plat = s.plat := rfl
@[simp] theorem State.tick_mem (s : State) : (s.tick).mem = s.mem := rfl
@[simp] theorem State.tick_mesh (s : State) : (s.tick).mesh = s.mesh := rfl
@[simp] theorem State.tick_pending (s : State) : (s.tick).pending = s.pending := rfl

@[simp] theorem State.devWrite_now (s : State) (a : Nat) (bs : List Byte) : (s.devWrite a bs).now = s.now := rfl
@[simp] theorem State.devWrite_free (s : State) (a : Nat) (bs : List Byte) : (s.devWrite a bs).free = s.free := rfl
@[simp] theorem State.devWrite_dev (s : State) (a : Nat) (bs : List Byte) : (s.devWrite a bs).dev = Memory.setBytes s.dev a bs := rfl
@[simp] theorem State.devWrite_poison (s : State) (a : Nat) (bs : List Byte) : (s.devWrite a bs).poison = cleanWords s.poison a bs.length := rfl
@[simp] theorem State.devWrite_host (s : State) (a : Nat) (bs : List Byte) : (s.devWrite a bs).host = s.host := rfl
@[simp] theorem State.devWrite_hostEp (s : State) (a : Nat) (bs : List Byte) : (s.devWrite a bs).hostEp = s.hostEp := rfl
@[simp] theorem State.devWrite_hostBad (s : State) (a : Nat) (bs : List Byte) : (s.devWrite a bs).hostBad = s.hostBad := rfl
@[simp] theorem State.devWrite_regs (s : State) (a : Nat) (bs : List Byte) : (s.devWrite a bs).regs = s.regs := rfl
@[simp] theorem State.devWrite_staged (s : State) (a : Nat) (bs : List Byte) : (s.devWrite a bs).staged = s.staged := rfl
@[simp] theorem State.devWrite_cores (s : State) (a : Nat) (bs : List Byte) : (s.devWrite a bs).cores = s.cores := rfl
@[simp] theorem State.devWrite_dbg (s : State) (a : Nat) (bs : List Byte) : (s.devWrite a bs).dbg = s.dbg := rfl
@[simp] theorem State.devWrite_sync (s : State) (a : Nat) (bs : List Byte) : (s.devWrite a bs).sync = s.sync := rfl
@[simp] theorem State.devWrite_roomWait (s : State) (a : Nat) (bs : List Byte) : (s.devWrite a bs).roomWait = s.roomWait := rfl
@[simp] theorem State.devWrite_roomTurn (s : State) (a : Nat) (bs : List Byte) : (s.devWrite a bs).roomTurn = s.roomTurn := rfl
@[simp] theorem State.devWrite_fab (s : State) (a : Nat) (bs : List Byte) : (s.devWrite a bs).fab = s.fab := rfl
@[simp] theorem State.devWrite_err (s : State) (a : Nat) (bs : List Byte) : (s.devWrite a bs).err = s.err := rfl
@[simp] theorem State.devWrite_press (s : State) (a : Nat) (bs : List Byte) : (s.devWrite a bs).press = s.press := rfl
@[simp] theorem State.devWrite_pressTurn (s : State) (a : Nat) (bs : List Byte) : (s.devWrite a bs).pressTurn = s.pressTurn := rfl
@[simp] theorem State.devWrite_ctxs (s : State) (a : Nat) (bs : List Byte) : (s.devWrite a bs).ctxs = s.ctxs := rfl
@[simp] theorem State.devWrite_msixTable (s : State) (a : Nat) (bs : List Byte) : (s.devWrite a bs).msixTable = s.msixTable := rfl
@[simp] theorem State.devWrite_msixPending (s : State) (a : Nat) (bs : List Byte) : (s.devWrite a bs).msixPending = s.msixPending := rfl
@[simp] theorem State.devWrite_msixEnable (s : State) (a : Nat) (bs : List Byte) : (s.devWrite a bs).msixEnable = s.msixEnable := rfl
@[simp] theorem State.devWrite_msixMask (s : State) (a : Nat) (bs : List Byte) : (s.devWrite a bs).msixMask = s.msixMask := rfl
@[simp] theorem State.devWrite_msixSent (s : State) (a : Nat) (bs : List Byte) : (s.devWrite a bs).msixSent = s.msixSent := rfl
@[simp] theorem State.devWrite_plat (s : State) (a : Nat) (bs : List Byte) : (s.devWrite a bs).plat = s.plat := rfl
@[simp] theorem State.devWrite_mem (s : State) (a : Nat) (bs : List Byte) : (s.devWrite a bs).mem = s.mem := rfl
@[simp] theorem State.devWrite_mesh (s : State) (a : Nat) (bs : List Byte) : (s.devWrite a bs).mesh = s.mesh := rfl
@[simp] theorem State.devWrite_pending (s : State) (a : Nat) (bs : List Byte) : (s.devWrite a bs).pending = s.pending := rfl

@[simp] theorem State.hostWrite_now (s : State) (a : Nat) (bs : List Byte) : (s.hostWrite a bs).now = s.now := rfl
@[simp] theorem State.hostWrite_free (s : State) (a : Nat) (bs : List Byte) : (s.hostWrite a bs).free = s.free := rfl
@[simp] theorem State.hostWrite_dev (s : State) (a : Nat) (bs : List Byte) : (s.hostWrite a bs).dev = s.dev := rfl
@[simp] theorem State.hostWrite_poison (s : State) (a : Nat) (bs : List Byte) : (s.hostWrite a bs).poison = s.poison := rfl
@[simp] theorem State.hostWrite_host (s : State) (a : Nat) (bs : List Byte) : (s.hostWrite a bs).host = Memory.setBytes s.host a bs := rfl
@[simp] theorem State.hostWrite_hostEp (s : State) (a : Nat) (bs : List Byte) : (s.hostWrite a bs).hostEp = cleanWords s.hostEp a bs.length := rfl
@[simp] theorem State.hostWrite_hostBad (s : State) (a : Nat) (bs : List Byte) : (s.hostWrite a bs).hostBad = s.hostBad := rfl
@[simp] theorem State.hostWrite_regs (s : State) (a : Nat) (bs : List Byte) : (s.hostWrite a bs).regs = s.regs := rfl
@[simp] theorem State.hostWrite_staged (s : State) (a : Nat) (bs : List Byte) : (s.hostWrite a bs).staged = s.staged := rfl
@[simp] theorem State.hostWrite_cores (s : State) (a : Nat) (bs : List Byte) : (s.hostWrite a bs).cores = s.cores := rfl
@[simp] theorem State.hostWrite_dbg (s : State) (a : Nat) (bs : List Byte) : (s.hostWrite a bs).dbg = s.dbg := rfl
@[simp] theorem State.hostWrite_sync (s : State) (a : Nat) (bs : List Byte) : (s.hostWrite a bs).sync = s.sync := rfl
@[simp] theorem State.hostWrite_roomWait (s : State) (a : Nat) (bs : List Byte) : (s.hostWrite a bs).roomWait = s.roomWait := rfl
@[simp] theorem State.hostWrite_roomTurn (s : State) (a : Nat) (bs : List Byte) : (s.hostWrite a bs).roomTurn = s.roomTurn := rfl
@[simp] theorem State.hostWrite_fab (s : State) (a : Nat) (bs : List Byte) : (s.hostWrite a bs).fab = s.fab := rfl
@[simp] theorem State.hostWrite_err (s : State) (a : Nat) (bs : List Byte) : (s.hostWrite a bs).err = s.err := rfl
@[simp] theorem State.hostWrite_press (s : State) (a : Nat) (bs : List Byte) : (s.hostWrite a bs).press = s.press := rfl
@[simp] theorem State.hostWrite_pressTurn (s : State) (a : Nat) (bs : List Byte) : (s.hostWrite a bs).pressTurn = s.pressTurn := rfl
@[simp] theorem State.hostWrite_ctxs (s : State) (a : Nat) (bs : List Byte) : (s.hostWrite a bs).ctxs = s.ctxs := rfl
@[simp] theorem State.hostWrite_msixTable (s : State) (a : Nat) (bs : List Byte) : (s.hostWrite a bs).msixTable = s.msixTable := rfl
@[simp] theorem State.hostWrite_msixPending (s : State) (a : Nat) (bs : List Byte) : (s.hostWrite a bs).msixPending = s.msixPending := rfl
@[simp] theorem State.hostWrite_msixEnable (s : State) (a : Nat) (bs : List Byte) : (s.hostWrite a bs).msixEnable = s.msixEnable := rfl
@[simp] theorem State.hostWrite_msixMask (s : State) (a : Nat) (bs : List Byte) : (s.hostWrite a bs).msixMask = s.msixMask := rfl
@[simp] theorem State.hostWrite_msixSent (s : State) (a : Nat) (bs : List Byte) : (s.hostWrite a bs).msixSent = s.msixSent := rfl
@[simp] theorem State.hostWrite_plat (s : State) (a : Nat) (bs : List Byte) : (s.hostWrite a bs).plat = s.plat := rfl
@[simp] theorem State.hostWrite_mem (s : State) (a : Nat) (bs : List Byte) : (s.hostWrite a bs).mem = s.mem := rfl
@[simp] theorem State.hostWrite_mesh (s : State) (a : Nat) (bs : List Byte) : (s.hostWrite a bs).mesh = s.mesh := rfl
@[simp] theorem State.hostWrite_pending (s : State) (a : Nat) (bs : List Byte) : (s.hostWrite a bs).pending = s.pending := rfl

@[simp] theorem State.setPlat_now (s : State) (p : Plat) : (s.setPlat p).now = s.now := rfl
@[simp] theorem State.setPlat_free (s : State) (p : Plat) : (s.setPlat p).free = s.free := rfl
@[simp] theorem State.setPlat_dev (s : State) (p : Plat) : (s.setPlat p).dev = s.dev := rfl
@[simp] theorem State.setPlat_poison (s : State) (p : Plat) : (s.setPlat p).poison = s.poison := rfl
@[simp] theorem State.setPlat_host (s : State) (p : Plat) : (s.setPlat p).host = s.host := rfl
@[simp] theorem State.setPlat_hostEp (s : State) (p : Plat) : (s.setPlat p).hostEp = s.hostEp := rfl
@[simp] theorem State.setPlat_hostBad (s : State) (p : Plat) : (s.setPlat p).hostBad = s.hostBad := rfl
@[simp] theorem State.setPlat_regs (s : State) (p : Plat) : (s.setPlat p).regs = s.regs := rfl
@[simp] theorem State.setPlat_staged (s : State) (p : Plat) : (s.setPlat p).staged = s.staged := rfl
@[simp] theorem State.setPlat_cores (s : State) (p : Plat) : (s.setPlat p).cores = s.cores := rfl
@[simp] theorem State.setPlat_dbg (s : State) (p : Plat) : (s.setPlat p).dbg = s.dbg := rfl
@[simp] theorem State.setPlat_sync (s : State) (p : Plat) : (s.setPlat p).sync = s.sync := rfl
@[simp] theorem State.setPlat_roomWait (s : State) (p : Plat) : (s.setPlat p).roomWait = s.roomWait := rfl
@[simp] theorem State.setPlat_roomTurn (s : State) (p : Plat) : (s.setPlat p).roomTurn = s.roomTurn := rfl
@[simp] theorem State.setPlat_fab (s : State) (p : Plat) : (s.setPlat p).fab = s.fab := rfl
@[simp] theorem State.setPlat_err (s : State) (p : Plat) : (s.setPlat p).err = s.err := rfl
@[simp] theorem State.setPlat_press (s : State) (p : Plat) : (s.setPlat p).press = s.press := rfl
@[simp] theorem State.setPlat_pressTurn (s : State) (p : Plat) : (s.setPlat p).pressTurn = s.pressTurn := rfl
@[simp] theorem State.setPlat_ctxs (s : State) (p : Plat) : (s.setPlat p).ctxs = s.ctxs := rfl
@[simp] theorem State.setPlat_msixTable (s : State) (p : Plat) : (s.setPlat p).msixTable = s.msixTable := rfl
@[simp] theorem State.setPlat_msixPending (s : State) (p : Plat) : (s.setPlat p).msixPending = s.msixPending := rfl
@[simp] theorem State.setPlat_msixEnable (s : State) (p : Plat) : (s.setPlat p).msixEnable = s.msixEnable := rfl
@[simp] theorem State.setPlat_msixMask (s : State) (p : Plat) : (s.setPlat p).msixMask = s.msixMask := rfl
@[simp] theorem State.setPlat_msixSent (s : State) (p : Plat) : (s.setPlat p).msixSent = s.msixSent := rfl
@[simp] theorem State.setPlat_plat (s : State) (p : Plat) : (s.setPlat p).plat = p := rfl
@[simp] theorem State.setPlat_mem (s : State) (p : Plat) : (s.setPlat p).mem = s.mem := rfl
@[simp] theorem State.setPlat_mesh (s : State) (p : Plat) : (s.setPlat p).mesh = s.mesh := rfl
@[simp] theorem State.setPlat_pending (s : State) (p : Plat) : (s.setPlat p).pending = s.pending := rfl

@[simp] theorem State.setBoot_now (s : State) (x : Boot) : (s.setBoot x).now = s.now := rfl
@[simp] theorem State.setBoot_free (s : State) (x : Boot) : (s.setBoot x).free = s.free := rfl
@[simp] theorem State.setBoot_dev (s : State) (x : Boot) : (s.setBoot x).dev = s.dev := rfl
@[simp] theorem State.setBoot_poison (s : State) (x : Boot) : (s.setBoot x).poison = s.poison := rfl
@[simp] theorem State.setBoot_host (s : State) (x : Boot) : (s.setBoot x).host = s.host := rfl
@[simp] theorem State.setBoot_hostEp (s : State) (x : Boot) : (s.setBoot x).hostEp = s.hostEp := rfl
@[simp] theorem State.setBoot_hostBad (s : State) (x : Boot) : (s.setBoot x).hostBad = s.hostBad := rfl
@[simp] theorem State.setBoot_regs (s : State) (x : Boot) : (s.setBoot x).regs = s.regs := rfl
@[simp] theorem State.setBoot_staged (s : State) (x : Boot) : (s.setBoot x).staged = s.staged := rfl
@[simp] theorem State.setBoot_cores (s : State) (x : Boot) : (s.setBoot x).cores = s.cores := rfl
@[simp] theorem State.setBoot_dbg (s : State) (x : Boot) : (s.setBoot x).dbg = s.dbg := rfl
@[simp] theorem State.setBoot_sync (s : State) (x : Boot) : (s.setBoot x).sync = s.sync := rfl
@[simp] theorem State.setBoot_roomWait (s : State) (x : Boot) : (s.setBoot x).roomWait = s.roomWait := rfl
@[simp] theorem State.setBoot_roomTurn (s : State) (x : Boot) : (s.setBoot x).roomTurn = s.roomTurn := rfl
@[simp] theorem State.setBoot_fab (s : State) (x : Boot) : (s.setBoot x).fab = s.fab := rfl
@[simp] theorem State.setBoot_err (s : State) (x : Boot) : (s.setBoot x).err = s.err := rfl
@[simp] theorem State.setBoot_press (s : State) (x : Boot) : (s.setBoot x).press = s.press := rfl
@[simp] theorem State.setBoot_pressTurn (s : State) (x : Boot) : (s.setBoot x).pressTurn = s.pressTurn := rfl
@[simp] theorem State.setBoot_ctxs (s : State) (x : Boot) : (s.setBoot x).ctxs = s.ctxs := rfl
@[simp] theorem State.setBoot_msixTable (s : State) (x : Boot) : (s.setBoot x).msixTable = s.msixTable := rfl
@[simp] theorem State.setBoot_msixPending (s : State) (x : Boot) : (s.setBoot x).msixPending = s.msixPending := rfl
@[simp] theorem State.setBoot_msixEnable (s : State) (x : Boot) : (s.setBoot x).msixEnable = s.msixEnable := rfl
@[simp] theorem State.setBoot_msixMask (s : State) (x : Boot) : (s.setBoot x).msixMask = s.msixMask := rfl
@[simp] theorem State.setBoot_msixSent (s : State) (x : Boot) : (s.setBoot x).msixSent = s.msixSent := rfl
@[simp] theorem State.setBoot_plat (s : State) (x : Boot) : (s.setBoot x).plat = { s.plat with boot := x } := rfl
@[simp] theorem State.setBoot_mem (s : State) (x : Boot) : (s.setBoot x).mem = s.mem := rfl
@[simp] theorem State.setBoot_mesh (s : State) (x : Boot) : (s.setBoot x).mesh = s.mesh := rfl
@[simp] theorem State.setBoot_pending (s : State) (x : Boot) : (s.setBoot x).pending = s.pending := rfl

@[simp] theorem State.setPins_now (s : State) (x : Pins) : (s.setPins x).now = s.now := rfl
@[simp] theorem State.setPins_free (s : State) (x : Pins) : (s.setPins x).free = s.free := rfl
@[simp] theorem State.setPins_dev (s : State) (x : Pins) : (s.setPins x).dev = s.dev := rfl
@[simp] theorem State.setPins_poison (s : State) (x : Pins) : (s.setPins x).poison = s.poison := rfl
@[simp] theorem State.setPins_host (s : State) (x : Pins) : (s.setPins x).host = s.host := rfl
@[simp] theorem State.setPins_hostEp (s : State) (x : Pins) : (s.setPins x).hostEp = s.hostEp := rfl
@[simp] theorem State.setPins_hostBad (s : State) (x : Pins) : (s.setPins x).hostBad = s.hostBad := rfl
@[simp] theorem State.setPins_regs (s : State) (x : Pins) : (s.setPins x).regs = s.regs := rfl
@[simp] theorem State.setPins_staged (s : State) (x : Pins) : (s.setPins x).staged = s.staged := rfl
@[simp] theorem State.setPins_cores (s : State) (x : Pins) : (s.setPins x).cores = s.cores := rfl
@[simp] theorem State.setPins_dbg (s : State) (x : Pins) : (s.setPins x).dbg = s.dbg := rfl
@[simp] theorem State.setPins_sync (s : State) (x : Pins) : (s.setPins x).sync = s.sync := rfl
@[simp] theorem State.setPins_roomWait (s : State) (x : Pins) : (s.setPins x).roomWait = s.roomWait := rfl
@[simp] theorem State.setPins_roomTurn (s : State) (x : Pins) : (s.setPins x).roomTurn = s.roomTurn := rfl
@[simp] theorem State.setPins_fab (s : State) (x : Pins) : (s.setPins x).fab = s.fab := rfl
@[simp] theorem State.setPins_err (s : State) (x : Pins) : (s.setPins x).err = s.err := rfl
@[simp] theorem State.setPins_press (s : State) (x : Pins) : (s.setPins x).press = s.press := rfl
@[simp] theorem State.setPins_pressTurn (s : State) (x : Pins) : (s.setPins x).pressTurn = s.pressTurn := rfl
@[simp] theorem State.setPins_ctxs (s : State) (x : Pins) : (s.setPins x).ctxs = s.ctxs := rfl
@[simp] theorem State.setPins_msixTable (s : State) (x : Pins) : (s.setPins x).msixTable = s.msixTable := rfl
@[simp] theorem State.setPins_msixPending (s : State) (x : Pins) : (s.setPins x).msixPending = s.msixPending := rfl
@[simp] theorem State.setPins_msixEnable (s : State) (x : Pins) : (s.setPins x).msixEnable = s.msixEnable := rfl
@[simp] theorem State.setPins_msixMask (s : State) (x : Pins) : (s.setPins x).msixMask = s.msixMask := rfl
@[simp] theorem State.setPins_msixSent (s : State) (x : Pins) : (s.setPins x).msixSent = s.msixSent := rfl
@[simp] theorem State.setPins_plat (s : State) (x : Pins) : (s.setPins x).plat = { s.plat with pins := x } := rfl
@[simp] theorem State.setPins_mem (s : State) (x : Pins) : (s.setPins x).mem = s.mem := rfl
@[simp] theorem State.setPins_mesh (s : State) (x : Pins) : (s.setPins x).mesh = s.mesh := rfl
@[simp] theorem State.setPins_pending (s : State) (x : Pins) : (s.setPins x).pending = s.pending := rfl

@[simp] theorem State.setTap_now (s : State) (x : Tap) : (s.setTap x).now = s.now := rfl
@[simp] theorem State.setTap_free (s : State) (x : Tap) : (s.setTap x).free = s.free := rfl
@[simp] theorem State.setTap_dev (s : State) (x : Tap) : (s.setTap x).dev = s.dev := rfl
@[simp] theorem State.setTap_poison (s : State) (x : Tap) : (s.setTap x).poison = s.poison := rfl
@[simp] theorem State.setTap_host (s : State) (x : Tap) : (s.setTap x).host = s.host := rfl
@[simp] theorem State.setTap_hostEp (s : State) (x : Tap) : (s.setTap x).hostEp = s.hostEp := rfl
@[simp] theorem State.setTap_hostBad (s : State) (x : Tap) : (s.setTap x).hostBad = s.hostBad := rfl
@[simp] theorem State.setTap_regs (s : State) (x : Tap) : (s.setTap x).regs = s.regs := rfl
@[simp] theorem State.setTap_staged (s : State) (x : Tap) : (s.setTap x).staged = s.staged := rfl
@[simp] theorem State.setTap_cores (s : State) (x : Tap) : (s.setTap x).cores = s.cores := rfl
@[simp] theorem State.setTap_dbg (s : State) (x : Tap) : (s.setTap x).dbg = s.dbg := rfl
@[simp] theorem State.setTap_sync (s : State) (x : Tap) : (s.setTap x).sync = s.sync := rfl
@[simp] theorem State.setTap_roomWait (s : State) (x : Tap) : (s.setTap x).roomWait = s.roomWait := rfl
@[simp] theorem State.setTap_roomTurn (s : State) (x : Tap) : (s.setTap x).roomTurn = s.roomTurn := rfl
@[simp] theorem State.setTap_fab (s : State) (x : Tap) : (s.setTap x).fab = s.fab := rfl
@[simp] theorem State.setTap_err (s : State) (x : Tap) : (s.setTap x).err = s.err := rfl
@[simp] theorem State.setTap_press (s : State) (x : Tap) : (s.setTap x).press = s.press := rfl
@[simp] theorem State.setTap_pressTurn (s : State) (x : Tap) : (s.setTap x).pressTurn = s.pressTurn := rfl
@[simp] theorem State.setTap_ctxs (s : State) (x : Tap) : (s.setTap x).ctxs = s.ctxs := rfl
@[simp] theorem State.setTap_msixTable (s : State) (x : Tap) : (s.setTap x).msixTable = s.msixTable := rfl
@[simp] theorem State.setTap_msixPending (s : State) (x : Tap) : (s.setTap x).msixPending = s.msixPending := rfl
@[simp] theorem State.setTap_msixEnable (s : State) (x : Tap) : (s.setTap x).msixEnable = s.msixEnable := rfl
@[simp] theorem State.setTap_msixMask (s : State) (x : Tap) : (s.setTap x).msixMask = s.msixMask := rfl
@[simp] theorem State.setTap_msixSent (s : State) (x : Tap) : (s.setTap x).msixSent = s.msixSent := rfl
@[simp] theorem State.setTap_plat (s : State) (x : Tap) : (s.setTap x).plat = { s.plat with tap := x } := rfl
@[simp] theorem State.setTap_mem (s : State) (x : Tap) : (s.setTap x).mem = s.mem := rfl
@[simp] theorem State.setTap_mesh (s : State) (x : Tap) : (s.setTap x).mesh = s.mesh := rfl
@[simp] theorem State.setTap_pending (s : State) (x : Tap) : (s.setTap x).pending = s.pending := rfl

@[simp] theorem State.setFuses_now (s : State) (x : Fuses) : (s.setFuses x).now = s.now := rfl
@[simp] theorem State.setFuses_free (s : State) (x : Fuses) : (s.setFuses x).free = s.free := rfl
@[simp] theorem State.setFuses_dev (s : State) (x : Fuses) : (s.setFuses x).dev = s.dev := rfl
@[simp] theorem State.setFuses_poison (s : State) (x : Fuses) : (s.setFuses x).poison = s.poison := rfl
@[simp] theorem State.setFuses_host (s : State) (x : Fuses) : (s.setFuses x).host = s.host := rfl
@[simp] theorem State.setFuses_hostEp (s : State) (x : Fuses) : (s.setFuses x).hostEp = s.hostEp := rfl
@[simp] theorem State.setFuses_hostBad (s : State) (x : Fuses) : (s.setFuses x).hostBad = s.hostBad := rfl
@[simp] theorem State.setFuses_regs (s : State) (x : Fuses) : (s.setFuses x).regs = s.regs := rfl
@[simp] theorem State.setFuses_staged (s : State) (x : Fuses) : (s.setFuses x).staged = s.staged := rfl
@[simp] theorem State.setFuses_cores (s : State) (x : Fuses) : (s.setFuses x).cores = s.cores := rfl
@[simp] theorem State.setFuses_dbg (s : State) (x : Fuses) : (s.setFuses x).dbg = s.dbg := rfl
@[simp] theorem State.setFuses_sync (s : State) (x : Fuses) : (s.setFuses x).sync = s.sync := rfl
@[simp] theorem State.setFuses_roomWait (s : State) (x : Fuses) : (s.setFuses x).roomWait = s.roomWait := rfl
@[simp] theorem State.setFuses_roomTurn (s : State) (x : Fuses) : (s.setFuses x).roomTurn = s.roomTurn := rfl
@[simp] theorem State.setFuses_fab (s : State) (x : Fuses) : (s.setFuses x).fab = s.fab := rfl
@[simp] theorem State.setFuses_err (s : State) (x : Fuses) : (s.setFuses x).err = s.err := rfl
@[simp] theorem State.setFuses_press (s : State) (x : Fuses) : (s.setFuses x).press = s.press := rfl
@[simp] theorem State.setFuses_pressTurn (s : State) (x : Fuses) : (s.setFuses x).pressTurn = s.pressTurn := rfl
@[simp] theorem State.setFuses_ctxs (s : State) (x : Fuses) : (s.setFuses x).ctxs = s.ctxs := rfl
@[simp] theorem State.setFuses_msixTable (s : State) (x : Fuses) : (s.setFuses x).msixTable = s.msixTable := rfl
@[simp] theorem State.setFuses_msixPending (s : State) (x : Fuses) : (s.setFuses x).msixPending = s.msixPending := rfl
@[simp] theorem State.setFuses_msixEnable (s : State) (x : Fuses) : (s.setFuses x).msixEnable = s.msixEnable := rfl
@[simp] theorem State.setFuses_msixMask (s : State) (x : Fuses) : (s.setFuses x).msixMask = s.msixMask := rfl
@[simp] theorem State.setFuses_msixSent (s : State) (x : Fuses) : (s.setFuses x).msixSent = s.msixSent := rfl
@[simp] theorem State.setFuses_plat (s : State) (x : Fuses) : (s.setFuses x).plat = { s.plat with fuses := x } := rfl
@[simp] theorem State.setFuses_mem (s : State) (x : Fuses) : (s.setFuses x).mem = s.mem := rfl
@[simp] theorem State.setFuses_mesh (s : State) (x : Fuses) : (s.setFuses x).mesh = s.mesh := rfl
@[simp] theorem State.setFuses_pending (s : State) (x : Fuses) : (s.setFuses x).pending = s.pending := rfl

@[simp] theorem State.setMgmt_now (s : State) (x : Mgmt) : (s.setMgmt x).now = s.now := rfl
@[simp] theorem State.setMgmt_free (s : State) (x : Mgmt) : (s.setMgmt x).free = s.free := rfl
@[simp] theorem State.setMgmt_dev (s : State) (x : Mgmt) : (s.setMgmt x).dev = s.dev := rfl
@[simp] theorem State.setMgmt_poison (s : State) (x : Mgmt) : (s.setMgmt x).poison = s.poison := rfl
@[simp] theorem State.setMgmt_host (s : State) (x : Mgmt) : (s.setMgmt x).host = s.host := rfl
@[simp] theorem State.setMgmt_hostEp (s : State) (x : Mgmt) : (s.setMgmt x).hostEp = s.hostEp := rfl
@[simp] theorem State.setMgmt_hostBad (s : State) (x : Mgmt) : (s.setMgmt x).hostBad = s.hostBad := rfl
@[simp] theorem State.setMgmt_regs (s : State) (x : Mgmt) : (s.setMgmt x).regs = s.regs := rfl
@[simp] theorem State.setMgmt_staged (s : State) (x : Mgmt) : (s.setMgmt x).staged = s.staged := rfl
@[simp] theorem State.setMgmt_cores (s : State) (x : Mgmt) : (s.setMgmt x).cores = s.cores := rfl
@[simp] theorem State.setMgmt_dbg (s : State) (x : Mgmt) : (s.setMgmt x).dbg = s.dbg := rfl
@[simp] theorem State.setMgmt_sync (s : State) (x : Mgmt) : (s.setMgmt x).sync = s.sync := rfl
@[simp] theorem State.setMgmt_roomWait (s : State) (x : Mgmt) : (s.setMgmt x).roomWait = s.roomWait := rfl
@[simp] theorem State.setMgmt_roomTurn (s : State) (x : Mgmt) : (s.setMgmt x).roomTurn = s.roomTurn := rfl
@[simp] theorem State.setMgmt_fab (s : State) (x : Mgmt) : (s.setMgmt x).fab = s.fab := rfl
@[simp] theorem State.setMgmt_err (s : State) (x : Mgmt) : (s.setMgmt x).err = s.err := rfl
@[simp] theorem State.setMgmt_press (s : State) (x : Mgmt) : (s.setMgmt x).press = s.press := rfl
@[simp] theorem State.setMgmt_pressTurn (s : State) (x : Mgmt) : (s.setMgmt x).pressTurn = s.pressTurn := rfl
@[simp] theorem State.setMgmt_ctxs (s : State) (x : Mgmt) : (s.setMgmt x).ctxs = s.ctxs := rfl
@[simp] theorem State.setMgmt_msixTable (s : State) (x : Mgmt) : (s.setMgmt x).msixTable = s.msixTable := rfl
@[simp] theorem State.setMgmt_msixPending (s : State) (x : Mgmt) : (s.setMgmt x).msixPending = s.msixPending := rfl
@[simp] theorem State.setMgmt_msixEnable (s : State) (x : Mgmt) : (s.setMgmt x).msixEnable = s.msixEnable := rfl
@[simp] theorem State.setMgmt_msixMask (s : State) (x : Mgmt) : (s.setMgmt x).msixMask = s.msixMask := rfl
@[simp] theorem State.setMgmt_msixSent (s : State) (x : Mgmt) : (s.setMgmt x).msixSent = s.msixSent := rfl
@[simp] theorem State.setMgmt_plat (s : State) (x : Mgmt) : (s.setMgmt x).plat = { s.plat with mgmt := x } := rfl
@[simp] theorem State.setMgmt_mem (s : State) (x : Mgmt) : (s.setMgmt x).mem = s.mem := rfl
@[simp] theorem State.setMgmt_mesh (s : State) (x : Mgmt) : (s.setMgmt x).mesh = s.mesh := rfl
@[simp] theorem State.setMgmt_pending (s : State) (x : Mgmt) : (s.setMgmt x).pending = s.pending := rfl

@[simp] theorem State.setPower_now (s : State) (x : Power) : (s.setPower x).now = s.now := rfl
@[simp] theorem State.setPower_free (s : State) (x : Power) : (s.setPower x).free = s.free := rfl
@[simp] theorem State.setPower_dev (s : State) (x : Power) : (s.setPower x).dev = s.dev := rfl
@[simp] theorem State.setPower_poison (s : State) (x : Power) : (s.setPower x).poison = s.poison := rfl
@[simp] theorem State.setPower_host (s : State) (x : Power) : (s.setPower x).host = s.host := rfl
@[simp] theorem State.setPower_hostEp (s : State) (x : Power) : (s.setPower x).hostEp = s.hostEp := rfl
@[simp] theorem State.setPower_hostBad (s : State) (x : Power) : (s.setPower x).hostBad = s.hostBad := rfl
@[simp] theorem State.setPower_regs (s : State) (x : Power) : (s.setPower x).regs = s.regs := rfl
@[simp] theorem State.setPower_staged (s : State) (x : Power) : (s.setPower x).staged = s.staged := rfl
@[simp] theorem State.setPower_cores (s : State) (x : Power) : (s.setPower x).cores = s.cores := rfl
@[simp] theorem State.setPower_dbg (s : State) (x : Power) : (s.setPower x).dbg = s.dbg := rfl
@[simp] theorem State.setPower_sync (s : State) (x : Power) : (s.setPower x).sync = s.sync := rfl
@[simp] theorem State.setPower_roomWait (s : State) (x : Power) : (s.setPower x).roomWait = s.roomWait := rfl
@[simp] theorem State.setPower_roomTurn (s : State) (x : Power) : (s.setPower x).roomTurn = s.roomTurn := rfl
@[simp] theorem State.setPower_fab (s : State) (x : Power) : (s.setPower x).fab = s.fab := rfl
@[simp] theorem State.setPower_err (s : State) (x : Power) : (s.setPower x).err = s.err := rfl
@[simp] theorem State.setPower_press (s : State) (x : Power) : (s.setPower x).press = s.press := rfl
@[simp] theorem State.setPower_pressTurn (s : State) (x : Power) : (s.setPower x).pressTurn = s.pressTurn := rfl
@[simp] theorem State.setPower_ctxs (s : State) (x : Power) : (s.setPower x).ctxs = s.ctxs := rfl
@[simp] theorem State.setPower_msixTable (s : State) (x : Power) : (s.setPower x).msixTable = s.msixTable := rfl
@[simp] theorem State.setPower_msixPending (s : State) (x : Power) : (s.setPower x).msixPending = s.msixPending := rfl
@[simp] theorem State.setPower_msixEnable (s : State) (x : Power) : (s.setPower x).msixEnable = s.msixEnable := rfl
@[simp] theorem State.setPower_msixMask (s : State) (x : Power) : (s.setPower x).msixMask = s.msixMask := rfl
@[simp] theorem State.setPower_msixSent (s : State) (x : Power) : (s.setPower x).msixSent = s.msixSent := rfl
@[simp] theorem State.setPower_plat (s : State) (x : Power) : (s.setPower x).plat = { s.plat with power := x } := rfl
@[simp] theorem State.setPower_mem (s : State) (x : Power) : (s.setPower x).mem = s.mem := rfl
@[simp] theorem State.setPower_mesh (s : State) (x : Power) : (s.setPower x).mesh = s.mesh := rfl
@[simp] theorem State.setPower_pending (s : State) (x : Power) : (s.setPower x).pending = s.pending := rfl

@[simp] theorem State.setPmu_now (s : State) (x : Pmu) : (s.setPmu x).now = s.now := rfl
@[simp] theorem State.setPmu_free (s : State) (x : Pmu) : (s.setPmu x).free = s.free := rfl
@[simp] theorem State.setPmu_dev (s : State) (x : Pmu) : (s.setPmu x).dev = s.dev := rfl
@[simp] theorem State.setPmu_poison (s : State) (x : Pmu) : (s.setPmu x).poison = s.poison := rfl
@[simp] theorem State.setPmu_host (s : State) (x : Pmu) : (s.setPmu x).host = s.host := rfl
@[simp] theorem State.setPmu_hostEp (s : State) (x : Pmu) : (s.setPmu x).hostEp = s.hostEp := rfl
@[simp] theorem State.setPmu_hostBad (s : State) (x : Pmu) : (s.setPmu x).hostBad = s.hostBad := rfl
@[simp] theorem State.setPmu_regs (s : State) (x : Pmu) : (s.setPmu x).regs = s.regs := rfl
@[simp] theorem State.setPmu_staged (s : State) (x : Pmu) : (s.setPmu x).staged = s.staged := rfl
@[simp] theorem State.setPmu_cores (s : State) (x : Pmu) : (s.setPmu x).cores = s.cores := rfl
@[simp] theorem State.setPmu_dbg (s : State) (x : Pmu) : (s.setPmu x).dbg = s.dbg := rfl
@[simp] theorem State.setPmu_sync (s : State) (x : Pmu) : (s.setPmu x).sync = s.sync := rfl
@[simp] theorem State.setPmu_roomWait (s : State) (x : Pmu) : (s.setPmu x).roomWait = s.roomWait := rfl
@[simp] theorem State.setPmu_roomTurn (s : State) (x : Pmu) : (s.setPmu x).roomTurn = s.roomTurn := rfl
@[simp] theorem State.setPmu_fab (s : State) (x : Pmu) : (s.setPmu x).fab = s.fab := rfl
@[simp] theorem State.setPmu_err (s : State) (x : Pmu) : (s.setPmu x).err = s.err := rfl
@[simp] theorem State.setPmu_press (s : State) (x : Pmu) : (s.setPmu x).press = s.press := rfl
@[simp] theorem State.setPmu_pressTurn (s : State) (x : Pmu) : (s.setPmu x).pressTurn = s.pressTurn := rfl
@[simp] theorem State.setPmu_ctxs (s : State) (x : Pmu) : (s.setPmu x).ctxs = s.ctxs := rfl
@[simp] theorem State.setPmu_msixTable (s : State) (x : Pmu) : (s.setPmu x).msixTable = s.msixTable := rfl
@[simp] theorem State.setPmu_msixPending (s : State) (x : Pmu) : (s.setPmu x).msixPending = s.msixPending := rfl
@[simp] theorem State.setPmu_msixEnable (s : State) (x : Pmu) : (s.setPmu x).msixEnable = s.msixEnable := rfl
@[simp] theorem State.setPmu_msixMask (s : State) (x : Pmu) : (s.setPmu x).msixMask = s.msixMask := rfl
@[simp] theorem State.setPmu_msixSent (s : State) (x : Pmu) : (s.setPmu x).msixSent = s.msixSent := rfl
@[simp] theorem State.setPmu_plat (s : State) (x : Pmu) : (s.setPmu x).plat = { s.plat with pmu := x } := rfl
@[simp] theorem State.setPmu_mem (s : State) (x : Pmu) : (s.setPmu x).mem = s.mem := rfl
@[simp] theorem State.setPmu_mesh (s : State) (x : Pmu) : (s.setPmu x).mesh = s.mesh := rfl
@[simp] theorem State.setPmu_pending (s : State) (x : Pmu) : (s.setPmu x).pending = s.pending := rfl

@[simp] theorem State.setFab_now (s : State) (x : Fabric) : (s.setFab x).now = s.now := rfl
@[simp] theorem State.setFab_free (s : State) (x : Fabric) : (s.setFab x).free = s.free := rfl
@[simp] theorem State.setFab_dev (s : State) (x : Fabric) : (s.setFab x).dev = s.dev := rfl
@[simp] theorem State.setFab_poison (s : State) (x : Fabric) : (s.setFab x).poison = s.poison := rfl
@[simp] theorem State.setFab_host (s : State) (x : Fabric) : (s.setFab x).host = s.host := rfl
@[simp] theorem State.setFab_hostEp (s : State) (x : Fabric) : (s.setFab x).hostEp = s.hostEp := rfl
@[simp] theorem State.setFab_hostBad (s : State) (x : Fabric) : (s.setFab x).hostBad = s.hostBad := rfl
@[simp] theorem State.setFab_regs (s : State) (x : Fabric) : (s.setFab x).regs = s.regs := rfl
@[simp] theorem State.setFab_staged (s : State) (x : Fabric) : (s.setFab x).staged = s.staged := rfl
@[simp] theorem State.setFab_cores (s : State) (x : Fabric) : (s.setFab x).cores = s.cores := rfl
@[simp] theorem State.setFab_dbg (s : State) (x : Fabric) : (s.setFab x).dbg = s.dbg := rfl
@[simp] theorem State.setFab_sync (s : State) (x : Fabric) : (s.setFab x).sync = s.sync := rfl
@[simp] theorem State.setFab_roomWait (s : State) (x : Fabric) : (s.setFab x).roomWait = s.roomWait := rfl
@[simp] theorem State.setFab_roomTurn (s : State) (x : Fabric) : (s.setFab x).roomTurn = s.roomTurn := rfl
@[simp] theorem State.setFab_fab (s : State) (x : Fabric) : (s.setFab x).fab = x := rfl
@[simp] theorem State.setFab_err (s : State) (x : Fabric) : (s.setFab x).err = s.err := rfl
@[simp] theorem State.setFab_press (s : State) (x : Fabric) : (s.setFab x).press = s.press := rfl
@[simp] theorem State.setFab_pressTurn (s : State) (x : Fabric) : (s.setFab x).pressTurn = s.pressTurn := rfl
@[simp] theorem State.setFab_ctxs (s : State) (x : Fabric) : (s.setFab x).ctxs = s.ctxs := rfl
@[simp] theorem State.setFab_msixTable (s : State) (x : Fabric) : (s.setFab x).msixTable = s.msixTable := rfl
@[simp] theorem State.setFab_msixPending (s : State) (x : Fabric) : (s.setFab x).msixPending = s.msixPending := rfl
@[simp] theorem State.setFab_msixEnable (s : State) (x : Fabric) : (s.setFab x).msixEnable = s.msixEnable := rfl
@[simp] theorem State.setFab_msixMask (s : State) (x : Fabric) : (s.setFab x).msixMask = s.msixMask := rfl
@[simp] theorem State.setFab_msixSent (s : State) (x : Fabric) : (s.setFab x).msixSent = s.msixSent := rfl
@[simp] theorem State.setFab_plat (s : State) (x : Fabric) : (s.setFab x).plat = s.plat := rfl
@[simp] theorem State.setFab_mem (s : State) (x : Fabric) : (s.setFab x).mem = s.mem := rfl
@[simp] theorem State.setFab_mesh (s : State) (x : Fabric) : (s.setFab x).mesh = s.mesh := rfl
@[simp] theorem State.setFab_pending (s : State) (x : Fabric) : (s.setFab x).pending = s.pending := rfl

@[simp] theorem State.setMesh_now (s : State) (x : Mesh) : (s.setMesh x).now = s.now := rfl
@[simp] theorem State.setMesh_free (s : State) (x : Mesh) : (s.setMesh x).free = s.free := rfl
@[simp] theorem State.setMesh_dev (s : State) (x : Mesh) : (s.setMesh x).dev = s.dev := rfl
@[simp] theorem State.setMesh_poison (s : State) (x : Mesh) : (s.setMesh x).poison = s.poison := rfl
@[simp] theorem State.setMesh_host (s : State) (x : Mesh) : (s.setMesh x).host = s.host := rfl
@[simp] theorem State.setMesh_hostEp (s : State) (x : Mesh) : (s.setMesh x).hostEp = s.hostEp := rfl
@[simp] theorem State.setMesh_hostBad (s : State) (x : Mesh) : (s.setMesh x).hostBad = s.hostBad := rfl
@[simp] theorem State.setMesh_regs (s : State) (x : Mesh) : (s.setMesh x).regs = s.regs := rfl
@[simp] theorem State.setMesh_staged (s : State) (x : Mesh) : (s.setMesh x).staged = s.staged := rfl
@[simp] theorem State.setMesh_cores (s : State) (x : Mesh) : (s.setMesh x).cores = s.cores := rfl
@[simp] theorem State.setMesh_dbg (s : State) (x : Mesh) : (s.setMesh x).dbg = s.dbg := rfl
@[simp] theorem State.setMesh_sync (s : State) (x : Mesh) : (s.setMesh x).sync = s.sync := rfl
@[simp] theorem State.setMesh_roomWait (s : State) (x : Mesh) : (s.setMesh x).roomWait = s.roomWait := rfl
@[simp] theorem State.setMesh_roomTurn (s : State) (x : Mesh) : (s.setMesh x).roomTurn = s.roomTurn := rfl
@[simp] theorem State.setMesh_fab (s : State) (x : Mesh) : (s.setMesh x).fab = s.fab := rfl
@[simp] theorem State.setMesh_err (s : State) (x : Mesh) : (s.setMesh x).err = s.err := rfl
@[simp] theorem State.setMesh_press (s : State) (x : Mesh) : (s.setMesh x).press = s.press := rfl
@[simp] theorem State.setMesh_pressTurn (s : State) (x : Mesh) : (s.setMesh x).pressTurn = s.pressTurn := rfl
@[simp] theorem State.setMesh_ctxs (s : State) (x : Mesh) : (s.setMesh x).ctxs = s.ctxs := rfl
@[simp] theorem State.setMesh_msixTable (s : State) (x : Mesh) : (s.setMesh x).msixTable = s.msixTable := rfl
@[simp] theorem State.setMesh_msixPending (s : State) (x : Mesh) : (s.setMesh x).msixPending = s.msixPending := rfl
@[simp] theorem State.setMesh_msixEnable (s : State) (x : Mesh) : (s.setMesh x).msixEnable = s.msixEnable := rfl
@[simp] theorem State.setMesh_msixMask (s : State) (x : Mesh) : (s.setMesh x).msixMask = s.msixMask := rfl
@[simp] theorem State.setMesh_msixSent (s : State) (x : Mesh) : (s.setMesh x).msixSent = s.msixSent := rfl
@[simp] theorem State.setMesh_plat (s : State) (x : Mesh) : (s.setMesh x).plat = s.plat := rfl
@[simp] theorem State.setMesh_mem (s : State) (x : Mesh) : (s.setMesh x).mem = s.mem := rfl
@[simp] theorem State.setMesh_mesh (s : State) (x : Mesh) : (s.setMesh x).mesh = x := rfl
@[simp] theorem State.setMesh_pending (s : State) (x : Mesh) : (s.setMesh x).pending = s.pending := rfl

@[simp] theorem State.setPressEng_now (s : State) (p : Nat) (e : PressEng) : (s.setPressEng p e).now = s.now := rfl
@[simp] theorem State.setPressEng_free (s : State) (p : Nat) (e : PressEng) : (s.setPressEng p e).free = s.free := rfl
@[simp] theorem State.setPressEng_dev (s : State) (p : Nat) (e : PressEng) : (s.setPressEng p e).dev = s.dev := rfl
@[simp] theorem State.setPressEng_poison (s : State) (p : Nat) (e : PressEng) : (s.setPressEng p e).poison = s.poison := rfl
@[simp] theorem State.setPressEng_host (s : State) (p : Nat) (e : PressEng) : (s.setPressEng p e).host = s.host := rfl
@[simp] theorem State.setPressEng_hostEp (s : State) (p : Nat) (e : PressEng) : (s.setPressEng p e).hostEp = s.hostEp := rfl
@[simp] theorem State.setPressEng_hostBad (s : State) (p : Nat) (e : PressEng) : (s.setPressEng p e).hostBad = s.hostBad := rfl
@[simp] theorem State.setPressEng_regs (s : State) (p : Nat) (e : PressEng) : (s.setPressEng p e).regs = s.regs := rfl
@[simp] theorem State.setPressEng_staged (s : State) (p : Nat) (e : PressEng) : (s.setPressEng p e).staged = s.staged := rfl
@[simp] theorem State.setPressEng_cores (s : State) (p : Nat) (e : PressEng) : (s.setPressEng p e).cores = s.cores := rfl
@[simp] theorem State.setPressEng_dbg (s : State) (p : Nat) (e : PressEng) : (s.setPressEng p e).dbg = s.dbg := rfl
@[simp] theorem State.setPressEng_sync (s : State) (p : Nat) (e : PressEng) : (s.setPressEng p e).sync = s.sync := rfl
@[simp] theorem State.setPressEng_roomWait (s : State) (p : Nat) (e : PressEng) : (s.setPressEng p e).roomWait = s.roomWait := rfl
@[simp] theorem State.setPressEng_roomTurn (s : State) (p : Nat) (e : PressEng) : (s.setPressEng p e).roomTurn = s.roomTurn := rfl
@[simp] theorem State.setPressEng_fab (s : State) (p : Nat) (e : PressEng) : (s.setPressEng p e).fab = s.fab := rfl
@[simp] theorem State.setPressEng_err (s : State) (p : Nat) (e : PressEng) : (s.setPressEng p e).err = s.err := rfl
@[simp] theorem State.setPressEng_press (s : State) (p : Nat) (e : PressEng) : (s.setPressEng p e).press = Store.set {} s.press p e := rfl
@[simp] theorem State.setPressEng_pressTurn (s : State) (p : Nat) (e : PressEng) : (s.setPressEng p e).pressTurn = s.pressTurn := rfl
@[simp] theorem State.setPressEng_ctxs (s : State) (p : Nat) (e : PressEng) : (s.setPressEng p e).ctxs = s.ctxs := rfl
@[simp] theorem State.setPressEng_msixTable (s : State) (p : Nat) (e : PressEng) : (s.setPressEng p e).msixTable = s.msixTable := rfl
@[simp] theorem State.setPressEng_msixPending (s : State) (p : Nat) (e : PressEng) : (s.setPressEng p e).msixPending = s.msixPending := rfl
@[simp] theorem State.setPressEng_msixEnable (s : State) (p : Nat) (e : PressEng) : (s.setPressEng p e).msixEnable = s.msixEnable := rfl
@[simp] theorem State.setPressEng_msixMask (s : State) (p : Nat) (e : PressEng) : (s.setPressEng p e).msixMask = s.msixMask := rfl
@[simp] theorem State.setPressEng_msixSent (s : State) (p : Nat) (e : PressEng) : (s.setPressEng p e).msixSent = s.msixSent := rfl
@[simp] theorem State.setPressEng_plat (s : State) (p : Nat) (e : PressEng) : (s.setPressEng p e).plat = s.plat := rfl
@[simp] theorem State.setPressEng_mem (s : State) (p : Nat) (e : PressEng) : (s.setPressEng p e).mem = s.mem := rfl
@[simp] theorem State.setPressEng_mesh (s : State) (p : Nat) (e : PressEng) : (s.setPressEng p e).mesh = s.mesh := rfl
@[simp] theorem State.setPressEng_pending (s : State) (p : Nat) (e : PressEng) : (s.setPressEng p e).pending = s.pending := rfl

/-- The core just written reads as written. -/
@[simp] theorem State.core_setCore_self (s : State) (c : Nat) (k : Core) : (s.setCore c k).core c = k := by
  exact Store.get_set_self _ s.cores c k

/-- The other cores read as before. -/
theorem State.core_setCore_ne {c d : Nat} (s : State) (k : Core) (h : d ≠ c) : (s.setCore c k).core d = s.core d := by
  exact Store.get_set_ne _ s.cores k h

/-- The context just written reads as written. -/
@[simp] theorem State.ctx_setCtx_self (s : State) (n : Nat) (x : Ctx) : (s.setCtx n x).ctx n = x := by
  exact Store.get_set_self _ s.ctxs n x

/-- The other contexts read as before. -/
theorem State.ctx_setCtx_ne {n m : Nat} (s : State) (x : Ctx) (h : m ≠ n) : (s.setCtx n x).ctx m = s.ctx m := by
  exact Store.get_set_ne _ s.ctxs x h

/-- The register word just written reads as the low 32 bits written. -/
@[simp] theorem State.reg_setReg_self (s : State) (off v : Nat) : (s.setReg off v).reg off = v % 2 ^ 32 := by
  simp [State.reg, Store.get_set_self]

/-- The other register words read as before. -/
theorem State.reg_setReg_ne {off o : Nat} (s : State) (v : Nat) (h : o ≠ off) : (s.setReg off v).reg o = s.reg o := by
  simp [State.reg, Store.get_set_ne _ _ _ h]

end Sys2Proof.Machine
end

