-- ==== Sys2Proof/Laws/Issue.lean ====
section
/-! SUPPORT. What issuing a core instruction does, once for every core instruction: where the word issues, the next state is that of
its effect, but for the tagging generator of the core. -/

namespace Sys2Proof.Machine

open Sys2Proof

/-- An instruction that issues answers its effect, with the core's tagging advanced. -/
theorem issue_eq {s : State} {c op reserved : Nat} {b : Body} (h : s.issues c b op reserved) (f : Nat → State) :
    issue c b op reserved s f = .next (s.tagIssue (f (wordOf op b)) c op (wordOf op b)) := by
  obtain ⟨h1, h2, h3⟩ := h
  simp only [State.canIssue, Bool.and_eq_true, Bool.not_eq_true'] at h1
  simp [issue, h1.1, h1.2, h2, h3]

/-- As `issue_eq`, for an instruction that can end in a fault of its own and does not. -/
theorem issueO_eq {s : State} {c op reserved : Nat} {b : Body} (h : s.issues c b op reserved)
    (f : Nat → Host.Outcome State Fault Refusal) {t : State} (hf : f (wordOf op b) = .next t) :
    issueO c b op reserved s f = .next (s.tagIssue t c op (wordOf op b)) := by
  obtain ⟨h1, h2, h3⟩ := h
  simp only [State.canIssue, Bool.and_eq_true, Bool.not_eq_true'] at h1
  simp [issueO, h1.1, h1.2, h2, h3, hf]

/-- Tagging changes the core's tagging generator and tagged item, and nothing else. -/
theorem tagIssue_cases (s t : State) (c op w : Nat) :
    s.tagIssue t c op w = t ∨
      ∃ g i, s.tagIssue t c op w = t.setCore c { t.core c with tagGen := g, tagItem := i } := by
  unfold State.tagIssue
  dsimp only
  split
  · exact .inl rfl
  · exact .inr ⟨_, _, rfl⟩

/-- Tagging leaves the core as it is, its tagging aside. -/
theorem tagIssue_untagged (s t : State) (c op w : Nat) : ((s.tagIssue t c op w).core c).untagged = (t.core c).untagged := by
  rcases tagIssue_cases s t c op w with h | ⟨g, i, h⟩ <;> rw [h]
  simp [Core.untagged]

/-- Tagging leaves the other cores as they are. -/
theorem tagIssue_core_ne (s t : State) {c d : Nat} (op w : Nat) (h : d ≠ c) : (s.tagIssue t c op w).core d = t.core d := by
  rcases tagIssue_cases s t c op w with e | ⟨g, i, e⟩ <;> rw [e]
  exact State.core_setCore_ne t _ h

/-- Tagging leaves everything but the cores as it is. -/
theorem tagIssue_rest (s t : State) (c op w : Nat) : { s.tagIssue t c op w with cores := t.cores } = t := by
  rcases tagIssue_cases s t c op w with e | ⟨g, i, e⟩ <;> rw [e]
  rfl

/-- An effect that sets the issuing core alone does that and nothing else. -/
theorem onlyCore_tagIssue (s : State) (c op w : Nat) (k : Core) : s.onlyCore c k (s.tagIssue (s.setCore c k) c op w) := by
  refine ⟨⟨by rw [tagIssue_untagged, State.core_setCore_self], fun d hd => ?_⟩, ?_⟩
  · rw [tagIssue_core_ne _ _ _ _ hd, State.core_setCore_ne _ _ hd]
  · have h := tagIssue_rest s (s.setCore c k) c op w
    rcases tagIssue_cases s (s.setCore c k) c op w with e | ⟨g, i, e⟩ <;> rw [e] <;> rfl

/-- Tagging after an effect leaves it as it is but for the tags. -/
theorem upToTags_tagIssue (s u : State) (c op w : Nat) : u.upToTags c (s.tagIssue u c op w) :=
  ⟨⟨tagIssue_untagged s u c op w, fun _ hd => tagIssue_core_ne s u op w hd⟩, tagIssue_rest s u c op w⟩

/-- A command whose meaning issues an instruction gives what the instruction's effect gives. -/
theorem gives_issue {i : Instr} {s : State} {c op reserved : Nat} {b : Body} {f : Nat → State} {P : State → Prop}
    (e : exec i s = issue c b op reserved s f) (h : s.issues c b op reserved)
    (hp : P (s.tagIssue (f (wordOf op b)) c op (wordOf op b))) : Gives i s P :=
  ⟨_, e.trans (issue_eq h f), hp⟩

/-- As `gives_issue`, for an instruction that can end in a fault of its own and does not. -/
theorem gives_issueO {i : Instr} {s t : State} {c op reserved : Nat} {b : Body} {f : Nat → Host.Outcome State Fault Refusal}
    {P : State → Prop} (e : exec i s = issueO c b op reserved s f) (h : s.issues c b op reserved) (ht : f (wordOf op b) = .next t)
    (hp : P (s.tagIssue t c op (wordOf op b))) : Gives i s P :=
  ⟨_, e.trans (issueO_eq h f ht), hp⟩

/-- An instruction that updates its core and moves on does that and nothing else. -/
theorem onlyCore_retire (s : State) (c op w : Nat) (f : Core → Core) :
    s.onlyCore c ((f (s.core c)).advance s.now) (s.tagIssue (s.retire c f) c op w) := onlyCore_tagIssue s c op w _

end Sys2Proof.Machine
end

