-- ==== Sys2Proof/Laws/Keep.lean ====
section
/-! SUPPORT. What every operation but ADVANCE_FUSE_BLOWN leaves alone: the queue and MIN_VERSION stay, no blown fuse is unblown, and
the memories and the register file stay in canonical form. -/

namespace Sys2Proof.Machine

open Sys2Proof

theorem Fuses.blownFrom_refl (f : Fuses) : f.blownFrom f := ⟨Nat.le_refl _, fun _ h => h, rfl, rfl, rfl⟩

theorem Fuses.blownFrom_trans {f g h : Fuses} (a : f.blownFrom g) (b : g.blownFrom h) : f.blownFrom h :=
  ⟨Nat.le_trans a.1 b.1, fun k x => b.2.1 k (a.2.1 k x), b.2.2.1.trans a.2.2.1, b.2.2.2.1.trans a.2.2.2.1,
    b.2.2.2.2.trans a.2.2.2.2⟩

/-- From `s` to `t` the queue and MIN_VERSION are the same, no fuse is unblown, and the canonical form is kept. -/
structure Keep (s t : State) : Prop where
  pending : t.pending = s.pending
  version : t.plat.fuses.minVersion = s.plat.fuses.minVersion
  fuses : s.plat.fuses.blownFrom t.plat.fuses
  canonical : s.canonical → t.canonical

/-- Every next state of an outcome is related to `s` by `Keep`. -/
def OKeep (s : State) (o : Host.Outcome State Fault Refusal) : Prop := ∀ t, o = .next t → Keep s t

theorem Keep.refl (s : State) : Keep s s := ⟨rfl, rfl, Fuses.blownFrom_refl _, id⟩

theorem Keep.trans {a b c : State} (h : Keep a b) (k : Keep b c) : Keep a c :=
  ⟨k.pending.trans h.pending, k.version.trans h.version, Fuses.blownFrom_trans h.fuses k.fuses, fun x => k.canonical (h.canonical x)⟩

/-- An update of other parts of the state. -/
theorem Keep.parts {s t u : State} (h : Keep s t) (hq : u.pending = t.pending) (hf : u.plat.fuses = t.plat.fuses)
    (hd : t.dev.wf = true → u.dev.wf = true) (hh : t.host.wf = true → u.host.wf = true)
    (hr : Store.wf (0 : W32) t.regs = true → Store.wf (0 : W32) u.regs = true) : Keep s u :=
  ⟨hq.trans h.pending, (congrArg Fuses.minVersion hf).trans h.version, hf ▸ h.fuses,
    fun x => ⟨hd (h.canonical x).1, hh (h.canonical x).2.1, hr (h.canonical x).2.2⟩⟩

/-- An update that touches neither the queue, the memories, the registers nor the fuses. -/
theorem Keep.upd {s t : State} {now free} {poison hostEp hostBad staged cores dbg sync roomWait roomTurn fab err press pressTurn ctxs
    msixTable msixPending msixEnable msixMask msixSent plat mem mesh} (hf : plat.fuses = t.plat.fuses) (h : Keep s t) :
    Keep s (State.mk now free t.dev poison t.host hostEp hostBad t.regs staged cores dbg sync roomWait roomTurn fab err press pressTurn
      ctxs msixTable msixPending msixEnable msixMask msixSent plat mem mesh t.pending) :=
  h.parts rfl hf id id id

/-- The same with a change of the local memory that keeps its canonical form. -/
theorem Keep.updDev {s t : State} {now free} {dev : Memory} {poison hostEp hostBad staged cores dbg sync roomWait roomTurn fab err press
    pressTurn ctxs msixTable msixPending msixEnable msixMask msixSent mem mesh} (hd : t.dev.wf = true → dev.wf = true) (h : Keep s t) :
    Keep s (State.mk now free dev poison t.host hostEp hostBad t.regs staged cores dbg sync roomWait roomTurn fab err press pressTurn
      ctxs msixTable msixPending msixEnable msixMask msixSent t.plat mem mesh t.pending) :=
  h.parts rfl rfl hd id id

/-- The same with the local memory of another state. -/
theorem Keep.borrow {s t u : State} {now free} {poison hostEp hostBad staged cores dbg sync roomWait roomTurn fab err press
    pressTurn ctxs msixTable msixPending msixEnable msixMask msixSent mem mesh} (hu : Keep s u) (h : Keep s t) :
    Keep s (State.mk now free u.dev poison t.host hostEp hostBad t.regs staged cores dbg sync roomWait roomTurn fab err press pressTurn
      ctxs msixTable msixPending msixEnable msixMask msixSent t.plat mem mesh t.pending) :=
  ⟨h.pending, h.version, h.fuses, fun x => ⟨(hu.canonical x).1, (h.canonical x).2.1, (h.canonical x).2.2⟩⟩

theorem Keep.foldl {α : Type} {s : State} {g : State → α → State} {l : List α} {t : State}
    (hg : ∀ u a, Keep s u → Keep s (g u a)) (h : Keep s t) : Keep s (l.foldl g t) := by
  induction l generalizing t with
  | nil => exact h
  | cons a l ih => exact ih (hg t a h)

theorem OKeep.next {s t : State} (h : Keep s t) : OKeep s (.next t) := fun _ e => Host.Outcome.next.inj e ▸ h
theorem OKeep.fault {s : State} {r : Fault} : OKeep s (.fault r) := fun _ e => nomatch e
theorem OKeep.refused {s : State} {r : Refusal} : OKeep s (.refused r) := fun _ e => nomatch e

variable {s0 s : State}

theorem State.setReg_keep {off v : Nat} (h : Keep s0 s) : Keep s0 (s.setReg off v) :=
  h.parts rfl rfl id id (fun x => Store.wf_set 0 _ _ _ x)

theorem State.setFuses_keep {f : Fuses} (hv : f.minVersion = s.plat.fuses.minVersion) (hf : s.plat.fuses.blownFrom f) (h : Keep s0 s) :
    Keep s0 (s.setFuses f) :=
  ⟨h.pending, hv.trans h.version, Fuses.blownFrom_trans h.fuses hf, h.canonical⟩

/-- Revoking a key slot unblows nothing. -/
theorem Fuses.blownFrom_revoke (f : Fuses) (k : Nat) : f.blownFrom { f with keyRevoked := Store.set false f.keyRevoked k true } := by
  refine ⟨Nat.le_refl _, fun i h => ?_, rfl, rfl, rfl⟩
  change Store.get false (Store.set false f.keyRevoked k true) i = true
  by_cases e : i = k
  · subst e
    exact Store.get_set_self false _ _ _
  · exact (Store.get_set_ne false _ _ e).trans h

theorem State.devWrite_keep {a : Nat} {bs : List Byte} (h : Keep s0 s) : Keep s0 (s.devWrite a bs) :=
  h.parts rfl rfl (fun x => Memory.wf_setBytes _ _ _ x) id id

theorem State.hostWrite_keep {a : Nat} {bs : List Byte} (h : Keep s0 s) : Keep s0 (s.hostWrite a bs) :=
  h.parts rfl rfl id (fun x => Memory.wf_setBytes _ _ _ x) id

theorem State.fresh_keep (h : Keep s0 s) : Keep s0 s.fresh.2 := Keep.upd rfl h

theorem State.fresh_keep_of {v : Nat} {t : State} (e : s.fresh = (v, t)) (h : Keep s0 s) : Keep s0 t := by
  have := State.fresh_keep h
  rw [e] at this
  exact this

end Sys2Proof.Machine
end

