-- ==== Sys2Proof/Laws/KeepRes.lean ====
section
/-! SUPPORT. The frame `Keep` for operations that answer an option, an exception or a result of their own. -/

namespace Sys2Proof.Machine

open Sys2Proof

/-- Every state an option holds is related to `s` by `Keep`. -/
def PKeep (s : State) (o : Option State) : Prop := ∀ t, o = some t → Keep s t

/-- The same of a frame taken from the inbox. -/
def FKeep (s : State) (o : Option (Frame × State)) : Prop := ∀ f t, o = some (f, t) → Keep s t

/-- The same of the requests an engine sent. -/
def EKeepL (s : State) (o : Except Nat (List Nat × State)) : Prop := ∀ l t, o = .ok (l, t) → Keep s t

theorem PKeep.some {s t : State} (h : Keep s t) : PKeep s (some t) := fun _ e => Option.some.inj e ▸ h
theorem PKeep.none {s : State} : PKeep s none := fun _ e => nomatch e
theorem FKeep.some {s t : State} {f : Frame} (h : Keep s t) : FKeep s (some (f, t)) :=
  fun _ _ e => (Prod.mk.inj (Option.some.inj e)).2 ▸ h
theorem FKeep.none {s : State} : FKeep s none := fun _ _ e => nomatch e
theorem EKeepL.ok {s t : State} {l : List Nat} (h : Keep s t) : EKeepL s (.ok (l, t)) :=
  fun _ _ e => (Prod.mk.inj (Except.ok.inj e)).2 ▸ h
theorem EKeepL.error {s : State} {x : Nat} : EKeepL s (.error x) := fun _ _ e => nomatch e

theorem EKeepL.elim {s t : State} {l : List Nat} {o : Except Nat (List Nat × State)} (h : EKeepL s o) (e : o = .ok (l, t)) :
    Keep s t := h l t e

theorem EKeepL.foldl {α : Type} {s : State} {g : Except Nat (List Nat × State) → α → Except Nat (List Nat × State)} {l : List α}
    {o : Except Nat (List Nat × State)} (hg : ∀ u a, EKeepL s u → EKeepL s (g u a)) (h : EKeepL s o) : EKeepL s (l.foldl g o) := by
  induction l generalizing o with
  | nil => exact h
  | cons a l ih => exact ih (hg o a h)

theorem Keep.foldl_snd {α β : Type} {s : State} {g : β × State → α → β × State} {l : List α} {p : β × State}
    (hg : ∀ u a, Keep s u.2 → Keep s (g u a).2) (h : Keep s p.2) : Keep s (l.foldl g p).2 := by
  induction l generalizing p with
  | nil => exact h
  | cons a l ih => exact ih (hg p a h)

def EngOut.Keeps (s : State) : EngOut → Prop
  | .lost t => Keep s t
  | .ok _ t => Keep s t
def XferRes.Keeps (s : State) : XferRes → Prop
  | .wait t => Keep s t
  | .fault _ _ t => Keep s t
  | .lost t => Keep s t
  | .done _ t => Keep s t
def EngNow.Keeps (s : State) : EngNow → Prop
  | .wait t => Keep s t
  | .refused _ _ t => Keep s t
  | .lost t => Keep s t
  | .done t => Keep s t
  | .go _ _ t => Keep s t
def PumpRes.Keeps (s : State) : PumpRes → Prop
  | .stop t => Keep s t
  | .more t => Keep s t
def ThIn.Keeps (s : State) : ThIn → Prop
  | .ok _ t => Keep s t
  | .fault _ t => Keep s t
  | .again t => Keep s t
  | .wait t => Keep s t
  | .lost t => Keep s t
def ThOut.Keeps (s : State) : ThOut → Prop
  | .ok _ t => Keep s t
  | .wait t => Keep s t
  | .lost t => Keep s t
def LoadRes.Keeps (s : State) : LoadRes → Prop
  | .ok t => Keep s t
  | .error => True
def FinalRes.Keeps (s : State) : FinalRes → Prop
  | .wait t => Keep s t
  | .done t => Keep s t
def StartRes.Keeps (s : State) : StartRes → Prop
  | .waits t => Keep s t
  | .taken t => Keep s t
def ChunkRes.Keeps (s : State) : ChunkRes → Prop
  | .wait t => Keep s t
  | .done t => Keep s t
def PreRes.Keeps (s : State) : PreRes → Prop
  | .go t => Keep s t
  | .hold t => Keep s t
  | .fail _ t => Keep s t
def DescRead.Keeps (s : State) : DescRead → Prop
  | .ok t => Keep s t
  | .error => True

end Sys2Proof.Machine
end

