-- ==== Sys2Proof/Laws/Keep01.lean ====
section
/-! SUPPORT. The operations of the model and the frame `Keep`, part 1. -/

namespace Sys2Proof.Machine

open Sys2Proof

variable {s0 : State}

theorem State.setMgmt_keep {s : State} {m : Mgmt} (hk : Keep s0 s) :
    Keep s0 (State.setMgmt s m) := by
  unfold State.setMgmt
  repeat' first
    | with_reducible assumption
    | with_reducible refine Keep.foldl (fun _ _ _ => ?_) ?_
    | with_reducible refine Keep.foldl_snd (fun _ _ _ => ?_) ?_
    | split
    | fail_if_no_progress ((with_reducible refine Keep.upd ?_ ?_); exact rfl)

theorem State.measureHardware_keep {s : State} (hk : Keep s0 s) :
    Keep s0 (State.measureHardware s) := by
  unfold State.measureHardware
  repeat' first
    | with_reducible assumption
    | with_reducible refine State.setMgmt_keep ?_

theorem State.setFld_keep {s : State} {off : ℕ} {lo : ℕ} {n : ℕ} {v : ℕ} (hk : Keep s0 s) :
    Keep s0 (State.setFld s off lo n v) := by
  unfold State.setFld
  repeat' first
    | with_reducible assumption
    | with_reducible refine State.setReg_keep ?_

theorem State.setFlag_keep {s : State} {off : ℕ} {i : ℕ} {b : Bool} (hk : Keep s0 s) :
    Keep s0 (State.setFlag s off i b) := by
  unfold State.setFlag
  repeat' first
    | with_reducible assumption
    | with_reducible refine State.setFld_keep ?_

theorem State.advanceDone_keep {s : State} (hk : Keep s0 s) :
    Keep s0 (State.advanceDone s) := by
  unfold State.advanceDone
  repeat' first
    | with_reducible assumption
    | with_reducible refine State.measureHardware_keep ?_
    | with_reducible refine State.setFlag_keep ?_

theorem State.setBoot_keep {s : State} {b : Boot} (hk : Keep s0 s) :
    Keep s0 (State.setBoot s b) := by
  unfold State.setBoot
  repeat' first
    | with_reducible assumption
    | with_reducible refine Keep.foldl (fun _ _ _ => ?_) ?_
    | with_reducible refine Keep.foldl_snd (fun _ _ _ => ?_) ?_
    | split
    | fail_if_no_progress ((with_reducible refine Keep.upd ?_ ?_); exact rfl)

theorem execAdvance_keep {s : State} (hk : Keep s0 s) :
    OKeep s0 (execAdvance s) := by
  unfold execAdvance
  repeat' first
    | with_reducible assumption
    | with_reducible refine State.advanceDone_keep ?_
    | with_reducible refine State.setBoot_keep ?_
    | with_reducible refine State.setFlag_keep ?_
    | with_reducible refine OKeep.next ?_
    | with_reducible exact OKeep.fault
    | with_reducible exact OKeep.refused
    | with_reducible refine Keep.foldl (fun _ _ _ => ?_) ?_
    | with_reducible refine Keep.foldl_snd (fun _ _ _ => ?_) ?_
    | split

theorem execBootReset_keep {key : ℕ} {s : State} (hk : Keep s0 s) :
    OKeep s0 (execBootReset key s) := by
  unfold execBootReset
  repeat' first
    | with_reducible assumption
    | with_reducible refine State.setBoot_keep ?_
    | with_reducible refine OKeep.next ?_
    | with_reducible exact OKeep.fault
    | with_reducible exact OKeep.refused
    | with_reducible refine Keep.foldl (fun _ _ _ => ?_) ?_
    | with_reducible refine Keep.foldl_snd (fun _ _ _ => ?_) ?_
    | split

theorem State.setCode_keep {s : State} {code : ℕ} {sub : ℕ} (hk : Keep s0 s) :
    Keep s0 (State.setCode s code sub) := by
  unfold State.setCode
  repeat' first
    | with_reducible assumption
    | with_reducible refine State.setFld_keep ?_

theorem State.startBoot_keep {s : State} (hk : Keep s0 s) :
    Keep s0 (State.startBoot s) := by
  unfold State.startBoot
  repeat' first
    | with_reducible assumption
    | with_reducible refine State.setCode_keep ?_
    | with_reducible refine State.setBoot_keep ?_
    | with_reducible refine State.measureHardware_keep ?_
    | with_reducible refine State.setMgmt_keep ?_
    | with_reducible refine Keep.foldl (fun _ _ _ => ?_) ?_
    | with_reducible refine Keep.foldl_snd (fun _ _ _ => ?_) ?_
    | split

theorem State.toReset_keep {s : State} (h : Keep s0 s) : Keep s0 s.toReset := by
  unfold State.toReset
  dsimp only
  refine State.setFld_keep (h.parts rfl rfl (fun _ => rfl) id (fun _ => ?_))
  refine Store.wf_setFrom (0 : W32) _ _ ?_
  exact Store.wf_keep (0 : W32) (fun o => !fusedReg o) State.reset.regs (by decide)

theorem State.deviceReset_keep {s : State} (hk : Keep s0 s) :
    Keep s0 (State.deviceReset s) := by
  unfold State.deviceReset
  repeat' first
    | with_reducible assumption
    | with_reducible refine State.startBoot_keep ?_
    | with_reducible refine State.toReset_keep ?_

theorem execDeviceReset_keep {s : State} (hk : Keep s0 s) :
    OKeep s0 (execDeviceReset s) := by
  unfold execDeviceReset
  repeat' first
    | with_reducible assumption
    | with_reducible refine State.deviceReset_keep ?_
    | with_reducible refine OKeep.next ?_
    | with_reducible exact OKeep.fault
    | with_reducible exact OKeep.refused
    | with_reducible refine Keep.foldl (fun _ _ _ => ?_) ?_
    | with_reducible refine Keep.foldl_snd (fun _ _ _ => ?_) ?_
    | split

theorem State.sendMsix_keep {s : State} {v : ℕ} (hk : Keep s0 s) :
    Keep s0 (State.sendMsix s v) := by
  unfold State.sendMsix
  repeat' first
    | with_reducible assumption
    | with_reducible refine Keep.foldl (fun _ _ _ => ?_) ?_
    | with_reducible refine Keep.foldl_snd (fun _ _ _ => ?_) ?_
    | split
    | fail_if_no_progress ((with_reducible refine Keep.upd ?_ ?_); exact rfl)

theorem State.msix_keep {s : State} {v : ℕ} (hk : Keep s0 s) :
    Keep s0 (State.msix s v) := by
  unfold State.msix
  repeat' first
    | with_reducible assumption
    | with_reducible refine State.sendMsix_keep ?_
    | with_reducible refine Keep.foldl (fun _ _ _ => ?_) ?_
    | with_reducible refine Keep.foldl_snd (fun _ _ _ => ?_) ?_
    | split
    | fail_if_no_progress ((with_reducible refine Keep.upd ?_ ?_); exact rfl)

theorem State.writeAvail_keep {s : State} (hk : Keep s0 s) :
    Keep s0 (State.writeAvail s) := by
  unfold State.writeAvail
  repeat' first
    | with_reducible assumption
    | with_reducible refine State.setReg_keep ?_
    | with_reducible refine Keep.foldl (fun _ _ _ => ?_) ?_

theorem State.setBootState_keep {s : State} {v : ℕ} (hk : Keep s0 s) :
    Keep s0 (State.setBootState s v) := by
  unfold State.setBootState
  repeat' first
    | with_reducible assumption
    | with_reducible refine State.setFld_keep ?_

theorem State.bootFail_keep {s : State} {code : ℕ} (hk : Keep s0 s) :
    Keep s0 (State.bootFail s code) := by
  unfold State.bootFail
  repeat' first
    | with_reducible assumption
    | with_reducible refine State.msix_keep ?_
    | with_reducible refine State.setBoot_keep ?_
    | with_reducible refine State.setFld_keep ?_
    | with_reducible refine State.setBootState_keep ?_

theorem execFwInitComplete_keep {ok : Bool} {sub : ℕ} {s : State} (hk : Keep s0 s) :
    OKeep s0 (execFwInitComplete ok sub s) := by
  unfold execFwInitComplete
  repeat' first
    | with_reducible assumption
    | with_reducible refine State.msix_keep ?_
    | with_reducible refine State.writeAvail_keep ?_
    | with_reducible refine State.setCode_keep ?_
    | with_reducible refine State.setBootState_keep ?_
    | with_reducible refine State.bootFail_keep ?_
    | with_reducible refine OKeep.next ?_
    | with_reducible exact OKeep.fault
    | with_reducible exact OKeep.refused
    | with_reducible refine Keep.foldl (fun _ _ _ => ?_) ?_
    | with_reducible refine Keep.foldl_snd (fun _ _ _ => ?_) ?_
    | split

theorem execFwTimeout_keep {s : State} (hk : Keep s0 s) :
    OKeep s0 (execFwTimeout s) := by
  unfold execFwTimeout
  repeat' first
    | with_reducible assumption
    | with_reducible refine State.bootFail_keep ?_
    | with_reducible refine OKeep.next ?_
    | with_reducible exact OKeep.fault
    | with_reducible exact OKeep.refused
    | with_reducible refine Keep.foldl (fun _ _ _ => ?_) ?_
    | with_reducible refine Keep.foldl_snd (fun _ _ _ => ?_) ?_
    | split

theorem State.tryVerify_keep {s : State} (hk : Keep s0 s) :
    Keep s0 (State.tryVerify s) := by
  unfold State.tryVerify
  repeat' first
    | with_reducible assumption
    | with_reducible refine State.setBoot_keep ?_
    | with_reducible refine State.setFld_keep ?_
    | with_reducible refine State.setBootState_keep ?_
    | with_reducible refine Keep.foldl (fun _ _ _ => ?_) ?_
    | with_reducible refine Keep.foldl_snd (fun _ _ _ => ?_) ?_
    | split

theorem execGo_keep {s : State} (hk : Keep s0 s) :
    OKeep s0 (execGo s) := by
  unfold execGo
  repeat' first
    | with_reducible assumption
    | with_reducible refine State.tryVerify_keep ?_
    | with_reducible refine State.setBoot_keep ?_
    | with_reducible refine OKeep.next ?_
    | with_reducible exact OKeep.fault
    | with_reducible exact OKeep.refused
    | with_reducible refine Keep.foldl (fun _ _ _ => ?_) ?_
    | with_reducible refine Keep.foldl_snd (fun _ _ _ => ?_) ?_
    | split
    | dsimp only

theorem execMemoryTrainingComplete_keep {trained : ℕ} {failed : ℕ} {s : State} (hk : Keep s0 s) :
    OKeep s0 (execMemoryTrainingComplete trained failed s) := by
  unfold execMemoryTrainingComplete
  repeat' first
    | with_reducible assumption
    | with_reducible refine State.setFld_keep ?_
    | with_reducible refine State.bootFail_keep ?_
    | with_reducible refine State.tryVerify_keep ?_
    | with_reducible refine OKeep.next ?_
    | with_reducible exact OKeep.fault
    | with_reducible exact OKeep.refused
    | with_reducible refine Keep.foldl (fun _ _ _ => ?_) ?_
    | with_reducible refine Keep.foldl_snd (fun _ _ _ => ?_) ?_
    | split

theorem execPcieHotReset_keep {s : State} (hk : Keep s0 s) :
    OKeep s0 (execPcieHotReset s) := by
  unfold execPcieHotReset
  repeat' first
    | with_reducible assumption
    | with_reducible refine State.deviceReset_keep ?_
    | with_reducible refine OKeep.next ?_

theorem execPcieLinkDown_keep {s : State} (hk : Keep s0 s) :
    OKeep s0 (execPcieLinkDown s) := by
  unfold execPcieLinkDown
  repeat' first
    | with_reducible assumption
    | with_reducible refine State.deviceReset_keep ?_
    | with_reducible refine OKeep.next ?_

theorem State.setPins_keep {s : State} {p : Pins} (hk : Keep s0 s) :
    Keep s0 (State.setPins s p) := by
  unfold State.setPins
  repeat' first
    | with_reducible assumption
    | with_reducible refine Keep.foldl (fun _ _ _ => ?_) ?_
    | with_reducible refine Keep.foldl_snd (fun _ _ _ => ?_) ?_
    | split
    | fail_if_no_progress ((with_reducible refine Keep.upd ?_ ?_); exact rfl)

theorem State.tryAwait_keep {s : State} (hk : Keep s0 s) :
    Keep s0 (State.tryAwait s) := by
  unfold State.tryAwait
  repeat' first
    | with_reducible assumption
    | with_reducible refine State.setPins_keep ?_
    | with_reducible refine State.setCode_keep ?_
    | with_reducible refine State.setBootState_keep ?_
    | with_reducible refine Keep.foldl (fun _ _ _ => ?_) ?_
    | with_reducible refine Keep.foldl_snd (fun _ _ _ => ?_) ?_
    | split
    | fail_if_no_progress ((with_reducible refine Keep.upd ?_ ?_); exact rfl)
    | dsimp only

theorem execPcieLinkUp_keep {s : State} (hk : Keep s0 s) :
    OKeep s0 (execPcieLinkUp s) := by
  unfold execPcieLinkUp
  repeat' first
    | with_reducible assumption
    | with_reducible refine State.setBoot_keep ?_
    | with_reducible refine State.tryAwait_keep ?_
    | with_reducible refine State.setCode_keep ?_
    | with_reducible refine OKeep.next ?_
    | with_reducible exact OKeep.fault
    | with_reducible exact OKeep.refused
    | with_reducible refine Keep.foldl (fun _ _ _ => ?_) ?_
    | with_reducible refine Keep.foldl_snd (fun _ _ _ => ?_) ?_
    | split
    | dsimp only

theorem execPerstNAssert_keep {ns : ℕ} {s : State} (hk : Keep s0 s) :
    OKeep s0 (execPerstNAssert ns s) := by
  unfold execPerstNAssert
  repeat' first
    | with_reducible assumption
    | with_reducible refine State.setPins_keep ?_
    | with_reducible refine State.deviceReset_keep ?_
    | with_reducible refine State.fresh_keep ?_
    | with_reducible refine State.fresh_keep_of (by assumption) ?_
    | with_reducible refine OKeep.next ?_
    | with_reducible exact OKeep.fault
    | with_reducible exact OKeep.refused
    | with_reducible refine Keep.foldl (fun _ _ _ => ?_) ?_
    | with_reducible refine Keep.foldl_snd (fun _ _ _ => ?_) ?_
    | split

theorem execPerstNDeassert_keep {fuseError : Bool} {s : State} (hk : Keep s0 s) :
    OKeep s0 (execPerstNDeassert fuseError s) := by
  unfold execPerstNDeassert
  repeat' first
    | with_reducible assumption
    | with_reducible refine State.startBoot_keep ?_
    | with_reducible refine State.setPins_keep ?_
    | with_reducible refine State.bootFail_keep ?_
    | with_reducible refine OKeep.next ?_
    | with_reducible exact OKeep.fault
    | with_reducible exact OKeep.refused
    | with_reducible refine Keep.foldl (fun _ _ _ => ?_) ?_
    | with_reducible refine Keep.foldl_snd (fun _ _ _ => ?_) ?_
    | split

theorem State.setReg64_keep {s : State} {off : ℕ} {v : ℕ} (hk : Keep s0 s) :
    Keep s0 (State.setReg64 s off v) := by
  unfold State.setReg64
  repeat' first
    | with_reducible assumption
    | with_reducible refine State.setReg_keep ?_

theorem State.stopAll_keep {s : State} (hk : Keep s0 s) :
    Keep s0 (State.stopAll s) := by
  unfold State.stopAll
  repeat' first
    | with_reducible assumption
    | with_reducible refine Keep.foldl (fun _ _ _ => ?_) ?_
    | with_reducible refine Keep.foldl_snd (fun _ _ _ => ?_) ?_
    | split
    | fail_if_no_progress ((with_reducible refine Keep.upd ?_ ?_); exact rfl)

theorem State.setPort_keep {s : State} {p : ℕ} {x : Port} (hk : Keep s0 s) :
    Keep s0 (State.setPort s p x) := by
  unfold State.setPort
  repeat' first
    | with_reducible assumption
    | with_reducible refine Keep.foldl (fun _ _ _ => ?_) ?_
    | with_reducible refine Keep.foldl_snd (fun _ _ _ => ?_) ?_
    | split
    | fail_if_no_progress ((with_reducible refine Keep.upd ?_ ?_); exact rfl)

theorem State.sendData_keep {s : State} {p : ℕ} {f : Frame} (hk : Keep s0 s) :
    Keep s0 (State.sendData s p f) := by
  unfold State.sendData
  repeat' first
    | with_reducible assumption
    | with_reducible refine State.setPort_keep ?_

theorem State.sendFails_keep {s : State} (hk : Keep s0 s) :
    Keep s0 (State.sendFails s) := by
  unfold State.sendFails
  repeat' first
    | with_reducible assumption
    | with_reducible refine State.sendData_keep ?_
    | with_reducible refine State.setPort_keep ?_
    | with_reducible refine Keep.foldl (fun _ _ _ => ?_) ?_
    | with_reducible refine Keep.foldl_snd (fun _ _ _ => ?_) ?_
    | split
    | fail_if_no_progress ((with_reducible refine Keep.upd ?_ ?_); exact rfl)

theorem State.msixIf_keep {s : State} {b : Bool} {v : ℕ} (hk : Keep s0 s) :
    Keep s0 (State.msixIf s b v) := by
  unfold State.msixIf
  repeat' first
    | with_reducible assumption
    | with_reducible refine State.msix_keep ?_
    | with_reducible refine Keep.foldl (fun _ _ _ => ?_) ?_
    | with_reducible refine Keep.foldl_snd (fun _ _ _ => ?_) ?_
    | split

theorem State.errRecord_keep {s : State} {kind : ℕ} {cls : ℕ} {unit : ℕ} {count : ℕ} {addr : ℕ} {ctx : ℕ} {source : ℕ} (hk : Keep s0 s) :
    Keep s0 (State.errRecord s kind cls unit count addr ctx source) := by
  unfold State.errRecord
  repeat' first
    | with_reducible assumption
    | with_reducible refine State.setReg_keep ?_
    | with_reducible refine State.hostWrite_keep ?_
    | with_reducible refine State.msixIf_keep ?_
    | with_reducible refine Keep.foldl (fun _ _ _ => ?_) ?_
    | with_reducible refine Keep.foldl_snd (fun _ _ _ => ?_) ?_
    | split
    | fail_if_no_progress ((with_reducible refine Keep.upd ?_ ?_); exact rfl)
    | dsimp only

theorem State.setCtx_keep {s : State} {n : ℕ} {x : Ctx} (hk : Keep s0 s) :
    Keep s0 (State.setCtx s n x) := by
  unfold State.setCtx
  repeat' first
    | with_reducible assumption
    | with_reducible refine Keep.foldl (fun _ _ _ => ?_) ?_
    | with_reducible refine Keep.foldl_snd (fun _ _ _ => ?_) ?_
    | split
    | fail_if_no_progress ((with_reducible refine Keep.upd ?_ ?_); exact rfl)

theorem State.putRecord_keep {s : State} {n : ℕ} {r : HeldRec} (hk : Keep s0 s) :
    Keep s0 (State.putRecord s n r) := by
  unfold State.putRecord
  repeat' first
    | with_reducible assumption
    | with_reducible refine State.hostWrite_keep ?_
    | with_reducible refine State.msixIf_keep ?_
    | with_reducible refine State.setCtx_keep ?_

theorem State.putAll_keep {s : State} {n : ℕ} {x2 : List HeldRec} (hk : Keep s0 s) :
    Keep s0 (State.putAll s n x2) := by
  induction x2 generalizing s with
  | nil =>
    rw [State.putAll]
    repeat' first
      | with_reducible assumption
  | cons _ _ ih =>
    rw [State.putAll]
    repeat' first
      | with_reducible assumption
      | with_reducible refine ih ?_
      | with_reducible refine State.putRecord_keep ?_
      | with_reducible refine Keep.foldl (fun _ _ _ => ?_) ?_
      | with_reducible refine Keep.foldl_snd (fun _ _ _ => ?_) ?_
      | split

theorem State.fatalRecordsAll_keep {s : State} (hk : Keep s0 s) :
    Keep s0 (State.fatalRecordsAll s) := by
  unfold State.fatalRecordsAll
  repeat' first
    | with_reducible assumption
    | with_reducible refine State.putAll_keep ?_
    | with_reducible refine Keep.foldl (fun _ _ _ => ?_) ?_
    | with_reducible refine Keep.foldl_snd (fun _ _ _ => ?_) ?_
    | split

theorem State.fatal_keep {s : State} {source : ℕ} {cls : ℕ} {unit : ℕ} {info : ℕ} (hk : Keep s0 s) :
    Keep s0 (State.fatal s source cls unit info) := by
  unfold State.fatal
  repeat' first
    | with_reducible assumption
    | with_reducible refine State.setFlag_keep ?_
    | with_reducible refine State.setReg_keep ?_
    | with_reducible refine State.setFld_keep ?_
    | with_reducible refine State.setReg64_keep ?_
    | with_reducible refine State.stopAll_keep ?_
    | with_reducible refine State.sendFails_keep ?_
    | with_reducible refine State.msix_keep ?_
    | with_reducible refine State.errRecord_keep ?_
    | with_reducible refine State.fatalRecordsAll_keep ?_
    | with_reducible refine Keep.foldl (fun _ _ _ => ?_) ?_
    | with_reducible refine Keep.foldl_snd (fun _ _ _ => ?_) ?_
    | split
    | fail_if_no_progress ((with_reducible refine Keep.upd ?_ ?_); exact rfl)
    | dsimp only

theorem execPllLossOfLock_keep {s : State} (hk : Keep s0 s) :
    OKeep s0 (execPllLossOfLock s) := by
  unfold execPllLossOfLock
  repeat' first
    | with_reducible assumption
    | with_reducible refine State.fatal_keep ?_
    | with_reducible refine OKeep.next ?_

theorem execPowerOn_keep {s : State} (hk : Keep s0 s) :
    OKeep s0 (execPowerOn s) := by
  unfold execPowerOn
  repeat' first
    | with_reducible assumption
    | with_reducible refine State.deviceReset_keep ?_
    | with_reducible refine State.setPins_keep ?_
    | with_reducible refine OKeep.next ?_

theorem State.setTap_keep {s : State} {t : Tap} (hk : Keep s0 s) :
    Keep s0 (State.setTap s t) := by
  unfold State.setTap
  repeat' first
    | with_reducible assumption
    | with_reducible refine Keep.foldl (fun _ _ _ => ?_) ?_
    | with_reducible refine Keep.foldl_snd (fun _ _ _ => ?_) ?_
    | split
    | fail_if_no_progress ((with_reducible refine Keep.upd ?_ ?_); exact rfl)

theorem execPwrokFall_keep {s : State} (hk : Keep s0 s) :
    OKeep s0 (execPwrokFall s) := by
  unfold execPwrokFall
  repeat' first
    | with_reducible assumption
    | with_reducible refine State.deviceReset_keep ?_
    | with_reducible refine State.setTap_keep ?_
    | with_reducible refine State.setPins_keep ?_
    | with_reducible refine OKeep.next ?_

theorem execPwrokRise_keep {mgmtAddr : ℕ} {testEn : Bool} {s : State} (hk : Keep s0 s) :
    OKeep s0 (execPwrokRise mgmtAddr testEn s) := by
  unfold execPwrokRise
  repeat' first
    | with_reducible assumption
    | with_reducible refine State.startBoot_keep ?_
    | with_reducible refine State.setPins_keep ?_
    | with_reducible refine OKeep.next ?_
    | with_reducible exact OKeep.fault
    | with_reducible exact OKeep.refused
    | with_reducible refine Keep.foldl (fun _ _ _ => ?_) ?_
    | with_reducible refine Keep.foldl_snd (fun _ _ _ => ?_) ?_
    | split

theorem execRailInRange_keep {s : State} (hk : Keep s0 s) :
    OKeep s0 (execRailInRange s) := by
  unfold execRailInRange
  repeat' first
    | with_reducible assumption
    | with_reducible refine State.startBoot_keep ?_
    | with_reducible refine State.setPins_keep ?_
    | with_reducible refine OKeep.next ?_

theorem execRailOutOfRange_keep {s : State} (hk : Keep s0 s) :
    OKeep s0 (execRailOutOfRange s) := by
  unfold execRailOutOfRange
  repeat' first
    | with_reducible assumption
    | with_reducible refine State.setPins_keep ?_
    | with_reducible refine State.fatal_keep ?_
    | with_reducible refine State.setCode_keep ?_
    | with_reducible refine State.toReset_keep ?_
    | with_reducible refine OKeep.next ?_
    | with_reducible exact OKeep.fault
    | with_reducible exact OKeep.refused
    | with_reducible refine Keep.foldl (fun _ _ _ => ?_) ?_
    | with_reducible refine Keep.foldl_snd (fun _ _ _ => ?_) ?_
    | split

theorem execSramInitComplete_keep {ok : Bool} {s : State} (h : Keep s0 s) : OKeep s0 (execSramInitComplete ok s) := by
  unfold execSramInitComplete
  repeat' first
    | with_reducible assumption
    | with_reducible exact h.parts rfl rfl (fun x => Memory.wf_keep _ _ x) id id
    | with_reducible refine State.bootFail_keep ?_
    | with_reducible refine State.tryAwait_keep ?_
    | with_reducible refine State.setCode_keep ?_
    | with_reducible refine State.setBoot_keep ?_
    | with_reducible refine OKeep.next ?_
    | with_reducible exact OKeep.fault
    | with_reducible exact OKeep.refused
    | with_reducible refine Keep.foldl (fun _ _ _ => ?_) ?_
    | with_reducible refine Keep.foldl_snd (fun _ _ _ => ?_) ?_
    | split
    | dsimp only

theorem State.setCacheSet_keep {s : State} {half : ℕ} {i : ℕ} {x : CacheSet} (hk : Keep s0 s) :
    Keep s0 (State.setCacheSet s half i x) := by
  unfold State.setCacheSet
  repeat' first
    | with_reducible assumption
    | with_reducible refine Keep.foldl (fun _ _ _ => ?_) ?_
    | with_reducible refine Keep.foldl_snd (fun _ _ _ => ?_) ?_
    | split
    | fail_if_no_progress ((with_reducible refine Keep.upd ?_ ?_); exact rfl)

theorem State.devWriteLE_keep {s : State} {a : ℕ} {n : ℕ} {v : ℕ} (hk : Keep s0 s) :
    Keep s0 (State.devWriteLE s a n v) := by
  unfold State.devWriteLE
  repeat' first
    | with_reducible assumption
    | with_reducible refine State.devWrite_keep ?_

theorem State.putWord_keep {s : State} {a : ℕ} {d : W64} {bad : Bool} (hk : Keep s0 s) :
    Keep s0 (State.putWord s a d bad) := by
  unfold State.putWord
  repeat' first
    | with_reducible assumption
    | with_reducible refine State.devWriteLE_keep ?_
    | with_reducible refine Keep.foldl (fun _ _ _ => ?_) ?_
    | with_reducible refine Keep.foldl_snd (fun _ _ _ => ?_) ?_
    | split
    | fail_if_no_progress ((with_reducible refine Keep.upd ?_ ?_); exact rfl)

theorem State.evictWay_keep {s : State} {y : Way} (hk : Keep s0 s) :
    Keep s0 (State.evictWay s y) := by
  unfold State.evictWay
  repeat' first
    | with_reducible assumption
    | with_reducible refine State.putWord_keep ?_
    | with_reducible refine Keep.foldl (fun _ _ _ => ?_) ?_
    | with_reducible refine Keep.foldl_snd (fun _ _ _ => ?_) ?_
    | split

theorem State.touchLine_keep {s : State} {line : ℕ} {write : Bool} {demand : Bool} {stp : Bool} (hk : Keep s0 s) :
    Keep s0 (State.touchLine s line write demand stp) := by
  unfold State.touchLine
  repeat' first
    | with_reducible assumption
    | with_reducible refine State.setCacheSet_keep ?_
    | with_reducible refine State.evictWay_keep ?_
    | with_reducible refine Keep.foldl (fun _ _ _ => ?_) ?_
    | with_reducible refine Keep.foldl_snd (fun _ _ _ => ?_) ?_
    | split
    | fail_if_no_progress ((with_reducible refine Keep.upd ?_ ?_); exact rfl)
    | dsimp only

theorem State.touchRange_keep {s : State} {a : ℕ} {n : ℕ} {write : Bool} {demand : Bool} {stp : Bool} (hk : Keep s0 s) :
    Keep s0 (State.touchRange s a n write demand stp) := by
  unfold State.touchRange
  repeat' first
    | with_reducible assumption
    | with_reducible refine State.touchLine_keep ?_
    | with_reducible refine Keep.foldl (fun _ _ _ => ?_) ?_
    | with_reducible refine Keep.foldl_snd (fun _ _ _ => ?_) ?_
    | split

theorem State.setUnitErr_keep {s : State} {cls : ℕ} {unit : ℕ} {u : UnitErr} (hk : Keep s0 s) :
    Keep s0 (State.setUnitErr s cls unit u) := by
  unfold State.setUnitErr
  repeat' first
    | with_reducible assumption
    | with_reducible refine Keep.foldl (fun _ _ _ => ?_) ?_
    | with_reducible refine Keep.foldl_snd (fun _ _ _ => ?_) ?_
    | split
    | fail_if_no_progress ((with_reducible refine Keep.upd ?_ ?_); exact rfl)

theorem State.countPoisoned_keep {s : State} {cls : ℕ} {unit : ℕ} {addr : ℕ} (hk : Keep s0 s) :
    Keep s0 (State.countPoisoned s cls unit addr) := by
  unfold State.countPoisoned
  repeat' first
    | with_reducible assumption
    | with_reducible refine State.setUnitErr_keep ?_

theorem State.countFound_keep {s : State} {a : ℕ} {n : ℕ} (hk : Keep s0 s) :
    Keep s0 (State.countFound s a n) := by
  unfold State.countFound
  repeat' first
    | with_reducible assumption
    | with_reducible refine State.countPoisoned_keep ?_
    | with_reducible refine Keep.foldl (fun _ _ _ => ?_) ?_
    | with_reducible refine Keep.foldl_snd (fun _ _ _ => ?_) ?_
    | split
    | fail_if_no_progress ((with_reducible refine Keep.upd ?_ ?_); exact rfl)
    | dsimp only

theorem State.countPartial_keep {s : State} {a : ℕ} {n : ℕ} (hk : Keep s0 s) :
    Keep s0 (State.countPartial s a n) := by
  unfold State.countPartial
  repeat' first
    | with_reducible assumption
    | with_reducible refine State.countFound_keep ?_
    | with_reducible refine Keep.foldl (fun _ _ _ => ?_) ?_
    | with_reducible refine Keep.foldl_snd (fun _ _ _ => ?_) ?_
    | split

theorem State.physWrite_keep {s : State} {pa : ℕ} {v : View} {demand : optParam Bool Bool.false} {stp : optParam Bool Bool.false} (hk : Keep s0 s) :
    Keep s0 (State.physWrite s pa v demand stp) := by
  unfold State.physWrite
  repeat' first
    | with_reducible assumption
    | with_reducible refine State.devWrite_keep ?_
    | with_reducible refine State.touchRange_keep ?_
    | with_reducible refine State.countPartial_keep ?_
    | with_reducible refine State.hostWrite_keep ?_
    | with_reducible refine Keep.foldl (fun _ _ _ => ?_) ?_
    | with_reducible refine Keep.foldl_snd (fun _ _ _ => ?_) ?_
    | split
    | fail_if_no_progress ((with_reducible refine Keep.upd ?_ ?_); exact rfl)

theorem State.copyImage_keep {s : State} (hk : Keep s0 s) :
    Keep s0 (State.copyImage s) := by
  unfold State.copyImage
  repeat' first
    | with_reducible assumption
    | with_reducible refine State.physWrite_keep ?_

theorem execVerify_keep {s : State} (hk : Keep s0 s) :
    OKeep s0 (execVerify s) := by
  unfold execVerify
  repeat' first
    | with_reducible assumption
    | with_reducible refine State.bootFail_keep ?_
    | with_reducible refine State.setCode_keep ?_
    | with_reducible refine State.copyImage_keep ?_
    | with_reducible refine State.setBootState_keep ?_
    | with_reducible refine State.setMgmt_keep ?_
    | with_reducible refine State.setBoot_keep ?_
    | with_reducible refine OKeep.next ?_
    | with_reducible exact OKeep.fault
    | with_reducible exact OKeep.refused
    | with_reducible refine Keep.foldl (fun _ _ _ => ?_) ?_
    | with_reducible refine Keep.foldl_snd (fun _ _ _ => ?_) ?_
    | split
    | dsimp only

theorem State.measureSeal_keep {s : State} (hk : Keep s0 s) :
    Keep s0 (State.measureSeal s) := by
  unfold State.measureSeal
  repeat' first
    | with_reducible assumption
    | with_reducible refine State.setMgmt_keep ?_

theorem State.setPlat_keep {s : State} {p : Plat} (hp : p.fuses = s.plat.fuses) (h : Keep s0 s) : Keep s0 (s.setPlat p) :=
  Keep.upd hp h

theorem State.setPmu_keep {s : State} {p : Pmu} (hk : Keep s0 s) :
    Keep s0 (State.setPmu s p) := by
  unfold State.setPmu
  repeat' first
    | with_reducible assumption
    | with_reducible refine Keep.foldl (fun _ _ _ => ?_) ?_
    | with_reducible refine Keep.foldl_snd (fun _ _ _ => ?_) ?_
    | split
    | fail_if_no_progress ((with_reducible refine Keep.upd ?_ ?_); exact rfl)

theorem State.setPower_keep {s : State} {p : Power} (hk : Keep s0 s) :
    Keep s0 (State.setPower s p) := by
  unfold State.setPower
  repeat' first
    | with_reducible assumption
    | with_reducible refine Keep.foldl (fun _ _ _ => ?_) ?_
    | with_reducible refine Keep.foldl_snd (fun _ _ _ => ?_) ?_
    | split
    | fail_if_no_progress ((with_reducible refine Keep.upd ?_ ?_); exact rfl)

theorem State.setCore_keep {s : State} {c : ℕ} {k : Core} (hk : Keep s0 s) :
    Keep s0 (State.setCore s c k) := by
  unfold State.setCore
  repeat' first
    | with_reducible assumption
    | with_reducible refine Keep.foldl (fun _ _ _ => ?_) ?_
    | with_reducible refine Keep.foldl_snd (fun _ _ _ => ?_) ?_
    | split
    | fail_if_no_progress ((with_reducible refine Keep.upd ?_ ?_); exact rfl)

theorem State.startNext_keep {s : State} {c : ℕ} (hk : Keep s0 s) :
    Keep s0 (State.startNext s c) := by
  unfold State.startNext
  repeat' first
    | with_reducible assumption
    | with_reducible refine State.setCore_keep ?_
    | with_reducible refine Keep.foldl (fun _ _ _ => ?_) ?_
    | with_reducible refine Keep.foldl_snd (fun _ _ _ => ?_) ?_
    | split
    | fail_if_no_progress ((with_reducible refine Keep.upd ?_ ?_); exact rfl)
    | dsimp only

theorem State.setCmd_keep {s : State} {n : ℕ} {c : Cmd} (hk : Keep s0 s) :
    Keep s0 (State.setCmd s n c) := by
  unfold State.setCmd
  repeat' first
    | with_reducible assumption
    | with_reducible refine State.setCtx_keep ?_

theorem State.updCmd_keep {s : State} {n : ℕ} {tag : ℕ} {f : Cmd → Cmd} (hk : Keep s0 s) :
    Keep s0 (State.updCmd s n tag f) := by
  unfold State.updCmd
  repeat' first
    | with_reducible assumption
    | with_reducible refine State.setCmd_keep ?_
    | with_reducible refine Keep.foldl (fun _ _ _ => ?_) ?_
    | with_reducible refine Keep.foldl_snd (fun _ _ _ => ?_) ?_
    | split

theorem State.showHalted_keep {s : State} (hk : Keep s0 s) :
    Keep s0 (State.showHalted s) := by
  unfold State.showHalted
  repeat' first
    | with_reducible assumption
    | with_reducible refine State.setFlag_keep ?_

theorem State.endWork_keep {s : State} {c : ℕ} {how : WorkEnd} (hk : Keep s0 s) :
    Keep s0 (State.endWork s c how) := by
  unfold State.endWork
  repeat' first
    | with_reducible assumption
    | with_reducible refine State.startNext_keep ?_
    | with_reducible refine State.updCmd_keep ?_
    | with_reducible refine State.setCore_keep ?_
    | with_reducible refine State.showHalted_keep ?_
    | with_reducible refine Keep.foldl (fun _ _ _ => ?_) ?_
    | with_reducible refine Keep.foldl_snd (fun _ _ _ => ?_) ?_
    | split
    | fail_if_no_progress ((with_reducible refine Keep.upd ?_ ?_); exact rfl)
    | dsimp only

theorem State.breakCores_keep {s : State} {x1 : List ℕ} (hk : Keep s0 s) :
    Keep s0 (State.breakCores s x1) := by
  induction x1 generalizing s with
  | nil =>
    rw [State.breakCores]
    repeat' first
      | with_reducible assumption
  | cons _ _ ih =>
    rw [State.breakCores]
    repeat' first
      | with_reducible assumption
      | with_reducible refine ih ?_
      | with_reducible refine State.endWork_keep ?_

theorem State.event_keep {s : State} {n : ℕ} {rec : List Byte} (hk : Keep s0 s) :
    Keep s0 (State.event s n rec).1 := by
  unfold State.event
  repeat' first
    | with_reducible assumption
    | with_reducible refine State.hostWrite_keep ?_
    | with_reducible refine State.setCtx_keep ?_
    | with_reducible refine State.msixIf_keep ?_
    | with_reducible refine Keep.foldl (fun _ _ _ => ?_) ?_
    | with_reducible refine Keep.foldl_snd (fun _ _ _ => ?_) ?_
    | dsimp only
    | split
theorem State.event_keep_of {s : State} {n : ℕ} {rec : List Byte} {v1 : ℕ} {t1 : State} (e : State.event s n rec = (t1, v1)) (hk : Keep s0 s) : Keep s0 t1 := by
  have k := State.event_keep (s0 := s0) (s := s) (n := n) (rec := rec) hk
  rw [e] at k
  exact k

theorem State.cmdEvent_keep {s : State} {n : ℕ} {tag : ℕ} {rec : List Byte} (hk : Keep s0 s) :
    Keep s0 (State.cmdEvent s n tag rec) := by
  unfold State.cmdEvent
  repeat' first
    | with_reducible assumption
    | with_reducible refine State.event_keep ?_
    | with_reducible refine State.event_keep_of (by assumption) ?_
    | with_reducible refine State.updCmd_keep ?_
    | with_reducible refine Keep.foldl (fun _ _ _ => ?_) ?_
    | with_reducible refine Keep.foldl_snd (fun _ _ _ => ?_) ?_
    | split

theorem State.runBreaks_keep {u0 : State} {s : State} {bs : List Break} {but : ℕ} (hk : Keep s0 u0) (h2 : Keep s0 s) :
    Keep s0 (State.runBreaks u0 s bs but) := by
  unfold State.runBreaks
  repeat' first
    | with_reducible assumption
    | with_reducible refine State.breakCores_keep ?_
    | with_reducible refine State.cmdEvent_keep ?_
    | with_reducible refine Keep.foldl (fun _ _ _ => ?_) ?_

theorem State.coreFault_keep {s : State} {c : ℕ} {cause : ℕ} {rec : List Byte} (hk : Keep s0 s) :
    Keep s0 (State.coreFault s c cause rec) := by
  unfold State.coreFault
  repeat' first
    | with_reducible assumption
    | with_reducible refine State.runBreaks_keep ?_ ?_
    | with_reducible refine State.endWork_keep ?_
    | with_reducible refine State.cmdEvent_keep ?_
    | with_reducible refine Keep.foldl (fun _ _ _ => ?_) ?_
    | with_reducible refine Keep.foldl_snd (fun _ _ _ => ?_) ?_
    | split
    | fail_if_no_progress ((with_reducible refine Keep.upd ?_ ?_); exact rfl)
    | dsimp only

theorem State.accFault_keep {s : State} {c : ℕ} {f : AccFault} {write : Bool} {isLocal : Bool} (hk : Keep s0 s) :
    Keep s0 (State.accFault s c f write isLocal) := by
  unfold State.accFault
  repeat' first
    | with_reducible assumption
    | with_reducible refine State.coreFault_keep ?_

theorem State.settleCmd_keep {s : State} {n : ℕ} {tag : ℕ} {status : ℕ} {cause : ℕ} {position : ℕ} (hk : Keep s0 s) :
    Keep s0 (State.settleCmd s n tag status cause position) := by
  unfold State.settleCmd
  repeat' first
    | with_reducible assumption
    | with_reducible refine State.updCmd_keep ?_

theorem State.cmdFaultRec_keep {s : State} {n : ℕ} {tag : ℕ} {cls : ℕ} {id : ℕ} {f : AccFault} {write : Bool} (hk : Keep s0 s) :
    Keep s0 (State.cmdFaultRec s n tag cls id f write) := by
  unfold State.cmdFaultRec
  repeat' first
    | with_reducible assumption
    | with_reducible refine State.cmdEvent_keep ?_

theorem State.cmdFault_keep {s : State} {n : ℕ} {tag : ℕ} {cls : ℕ} {id : ℕ} {f : AccFault} {write : Bool} {position : ℕ} (hk : Keep s0 s) :
    Keep s0 (State.cmdFault s n tag cls id f write position) := by
  unfold State.cmdFault
  repeat' first
    | with_reducible assumption
    | with_reducible refine State.settleCmd_keep ?_
    | with_reducible refine State.cmdFaultRec_keep ?_

theorem State.instrFault_keep {s : State} {c : ℕ} {cause : ℕ} {pc : ℕ} {info : ℕ} {word : W64} (hk : Keep s0 s) :
    Keep s0 (State.instrFault s c cause pc info word) := by
  unfold State.instrFault
  repeat' first
    | with_reducible assumption
    | with_reducible refine State.coreFault_keep ?_

theorem State.sendFrame_keep {s : State} {f : Frame} (hk : Keep s0 s) :
    PKeep s0 (State.sendFrame s f) := by
  unfold State.sendFrame
  repeat' first
    | with_reducible assumption
    | with_reducible refine State.setPort_keep ?_
    | refine PKeep.some ?_
    | exact PKeep.none
    | with_reducible refine Keep.foldl (fun _ _ _ => ?_) ?_
    | with_reducible refine Keep.foldl_snd (fun _ _ _ => ?_) ?_
    | split
    | fail_if_no_progress ((with_reducible refine Keep.upd ?_ ?_); exact rfl)
theorem State.sendFrame_keep_of {s : State} {f : Frame} {t1 : State} (e : State.sendFrame s f = some t1) (hk : Keep s0 s) : Keep s0 t1 := State.sendFrame_keep hk t1 e

theorem State.sendLoose_keep {s : State} {f : Frame} (hk : Keep s0 s) :
    Keep s0 (State.sendLoose s f) := by
  unfold State.sendLoose
  repeat' first
    | with_reducible assumption
    | with_reducible refine State.sendFrame_keep_of (by assumption) ?_
    | with_reducible refine Keep.foldl (fun _ _ _ => ?_) ?_
    | with_reducible refine Keep.foldl_snd (fun _ _ _ => ?_) ?_
    | split
    | fail_if_no_progress ((with_reducible refine Keep.upd ?_ ?_); exact rfl)

theorem State.abortRing_keep {s : State} {c : Cmd} {j : CollJob} {reason : ℕ} (hk : Keep s0 s) :
    Keep s0 (State.abortRing s c j reason) := by
  unfold State.abortRing
  repeat' first
    | with_reducible assumption
    | with_reducible refine State.sendLoose_keep ?_
    | with_reducible refine Keep.foldl (fun _ _ _ => ?_) ?_

theorem State.countDiscard_keep {s : State} (hk : Keep s0 s) :
    Keep s0 (State.countDiscard s) := by
  unfold State.countDiscard
  repeat' first
    | with_reducible assumption
    | with_reducible refine Keep.foldl (fun _ _ _ => ?_) ?_
    | with_reducible refine Keep.foldl_snd (fun _ _ _ => ?_) ?_
    | split
    | fail_if_no_progress ((with_reducible refine Keep.upd ?_ ?_); exact rfl)

theorem State.hostReadError_keep {s : State} {n : ℕ} {bus : ℕ} (hk : Keep s0 s) :
    Keep s0 (State.hostReadError s n bus) := by
  unfold State.hostReadError
  repeat' first
    | with_reducible assumption
    | with_reducible refine State.errRecord_keep ?_
    | with_reducible refine Keep.foldl (fun _ _ _ => ?_) ?_
    | with_reducible refine Keep.foldl_snd (fun _ _ _ => ?_) ?_
    | split
    | fail_if_no_progress ((with_reducible refine Keep.upd ?_ ?_); exact rfl)
    | dsimp only

theorem State.dropXfer_keep {s : State} {n : ℕ} {tag : ℕ} {key : ℕ} (hk : Keep s0 s) :
    Keep s0 (State.dropXfer s n tag key) := by
  unfold State.dropXfer
  repeat' first
    | with_reducible assumption
    | with_reducible refine Keep.foldl (fun _ _ _ => ?_) ?_
    | with_reducible refine Keep.foldl_snd (fun _ _ _ => ?_) ?_
    | split
    | fail_if_no_progress ((with_reducible refine Keep.upd ?_ ?_); exact rfl)

theorem State.openTxn_keep {s : State} {owner : TxnOwner} {node : ℕ} {opc : ℕ} {addr : ℕ} {len : ℕ} (hk : Keep s0 s) :
    Keep s0 (State.openTxn s owner node opc addr len).1 := by
  unfold State.openTxn
  repeat' first
    | with_reducible assumption
    | with_reducible refine Keep.foldl (fun _ _ _ => ?_) ?_
    | with_reducible refine Keep.foldl_snd (fun _ _ _ => ?_) ?_
    | dsimp only
    | split
    | fail_if_no_progress ((with_reducible refine Keep.upd ?_ ?_); exact rfl)
theorem State.openTxn_keep_of {s : State} {owner : TxnOwner} {node : ℕ} {opc : ℕ} {addr : ℕ} {len : ℕ} {v1 : ℕ} {t1 : State} (e : State.openTxn s owner node opc addr len = (t1, v1)) (hk : Keep s0 s) : Keep s0 t1 := by
  have k := State.openTxn_keep (s0 := s0) (s := s) (owner := owner) (node := node) (opc := opc) (addr := addr) (len := len) hk
  rw [e] at k
  exact k

theorem State.engReads_keep {s : State} {n : ℕ} {tag : ℕ} {key : ℕ} {x4 : List (ℕ × ℕ)} (hk : Keep s0 s) :
    EKeepL s0 (State.engReads s n tag key x4) := by
  induction x4 generalizing s with
  | nil =>
    rw [State.engReads]
    repeat' first
      | with_reducible assumption
      | with_reducible refine ih ?_
      | with_reducible refine EKeepL.ok ?_
  | cons _ _ ih =>
    rw [State.engReads]
    repeat' first
      | with_reducible assumption
      | with_reducible refine EKeepL.elim (ih ?_) (by assumption)
      | with_reducible refine ih ?_
      | with_reducible refine EKeepL.ok ?_
      | with_reducible exact EKeepL.error
      | with_reducible refine State.openTxn_keep ?_
      | with_reducible refine State.openTxn_keep_of (by assumption) ?_
      | with_reducible refine State.sendFrame_keep_of (by assumption) ?_
      | exact trivial
      | fail_if_no_progress change Keep _ _
      | with_reducible refine Keep.foldl (fun _ _ _ => ?_) ?_
      | with_reducible refine Keep.foldl_snd (fun _ _ _ => ?_) ?_
      | split
theorem State.engReads_keep_of {s : State} {n : ℕ} {tag : ℕ} {key : ℕ} {x4 : List (ℕ × ℕ)} {l1 : List Nat} {t1 : State} (e : State.engReads s n tag key x4 = .ok (l1, t1)) (hk : Keep s0 s) : Keep s0 t1 := State.engReads_keep hk l1 t1 e

theorem State.e2eRecord_keep {s : State} {n : ℕ} {tag : ℕ} {node : ℕ} {xid : ℕ} (hk : Keep s0 s) :
    Keep s0 (State.e2eRecord s n tag node xid) := by
  unfold State.e2eRecord
  repeat' first
    | with_reducible assumption
    | with_reducible refine State.cmdEvent_keep ?_

theorem State.putXfer_keep {s : State} {x : EngXfer} (hk : Keep s0 s) :
    Keep s0 (State.putXfer s x) := by
  unfold State.putXfer
  repeat' first
    | with_reducible assumption
    | with_reducible refine State.dropXfer_keep ?_
    | with_reducible refine Keep.foldl (fun _ _ _ => ?_) ?_
    | with_reducible refine Keep.foldl_snd (fun _ _ _ => ?_) ?_
    | split
    | fail_if_no_progress ((with_reducible refine Keep.upd ?_ ?_); exact rfl)

theorem State.engNow_keep {s : State} {n : ℕ} {tag : ℕ} {key : ℕ} {need : List (ℕ × ℕ)} (hk : Keep s0 s) :
    EngNow.Keeps s0 (State.engNow s n tag key need) := by
  unfold State.engNow
  repeat' first
    | with_reducible assumption
    | with_reducible refine State.dropXfer_keep ?_
    | with_reducible refine State.engReads_keep ?_
    | with_reducible refine State.engReads_keep_of (by assumption) ?_
    | with_reducible refine State.e2eRecord_keep ?_
    | with_reducible refine State.putXfer_keep ?_
    | exact trivial
    | fail_if_no_progress change Keep _ _
    | with_reducible refine Keep.foldl (fun _ _ _ => ?_) ?_
    | with_reducible refine Keep.foldl_snd (fun _ _ _ => ?_) ?_
    | split
theorem State.engNow_keep_wait {s : State} {n : ℕ} {tag : ℕ} {key : ℕ} {need : List (ℕ × ℕ)}  {t1 : State} (e : State.engNow s n tag key need = .wait t1) (hk : Keep s0 s) : Keep s0 t1 := by
  have k := State.engNow_keep (s0 := s0) (s := s) (n := n) (tag := tag) (key := key) (need := need) hk
  rw [e] at k
  exact k
theorem State.engNow_keep_refused {s : State} {n : ℕ} {tag : ℕ} {key : ℕ} {need : List (ℕ × ℕ)} {w1 : Bool} {p1 : Nat} {t1 : State} (e : State.engNow s n tag key need = .refused w1 p1 t1) (hk : Keep s0 s) : Keep s0 t1 := by
  have k := State.engNow_keep (s0 := s0) (s := s) (n := n) (tag := tag) (key := key) (need := need) hk
  rw [e] at k
  exact k
theorem State.engNow_keep_lost {s : State} {n : ℕ} {tag : ℕ} {key : ℕ} {need : List (ℕ × ℕ)}  {t1 : State} (e : State.engNow s n tag key need = .lost t1) (hk : Keep s0 s) : Keep s0 t1 := by
  have k := State.engNow_keep (s0 := s0) (s := s) (n := n) (tag := tag) (key := key) (need := need) hk
  rw [e] at k
  exact k
theorem State.engNow_keep_done {s : State} {n : ℕ} {tag : ℕ} {key : ℕ} {need : List (ℕ × ℕ)}  {t1 : State} (e : State.engNow s n tag key need = .done t1) (hk : Keep s0 s) : Keep s0 t1 := by
  have k := State.engNow_keep (s0 := s0) (s := s) (n := n) (tag := tag) (key := key) (need := need) hk
  rw [e] at k
  exact k
theorem State.engNow_keep_go {s : State} {n : ℕ} {tag : ℕ} {key : ℕ} {need : List (ℕ × ℕ)} {m1 : Memory} {p1 : Store Bool} {t1 : State} (e : State.engNow s n tag key need = .go m1 p1 t1) (hk : Keep s0 s) : Keep s0 t1 := by
  have k := State.engNow_keep (s0 := s0) (s := s) (n := n) (tag := tag) (key := key) (need := need) hk
  rw [e] at k
  exact k

theorem State.noteReads_keep {s : State} {n : ℕ} {demand : Bool} {ps : List (ℕ × ℕ × ℕ)} (hk : Keep s0 s) :
    Keep s0 (State.noteReads s n demand ps) := by
  unfold State.noteReads
  repeat' first
    | with_reducible assumption
    | with_reducible refine State.touchRange_keep ?_
    | with_reducible refine State.countFound_keep ?_
    | with_reducible refine Keep.foldl (fun _ _ _ => ?_) ?_
    | with_reducible refine Keep.foldl_snd (fun _ _ _ => ?_) ?_
    | split

theorem State.engWrites_keep {s : State} {n : ℕ} {tag : ℕ} {key : ℕ} {v : View} {base : ℕ} {x6 : List (ℕ × ℕ)} (hk : Keep s0 s) :
    EKeepL s0 (State.engWrites s n tag key v base x6) := by
  induction x6 generalizing s with
  | nil =>
    rw [State.engWrites]
    repeat' first
      | with_reducible assumption
      | with_reducible refine ih ?_
      | with_reducible refine EKeepL.ok ?_
  | cons _ _ ih =>
    rw [State.engWrites]
    repeat' first
      | with_reducible assumption
      | with_reducible refine EKeepL.elim (ih ?_) (by assumption)
      | with_reducible refine ih ?_
      | with_reducible refine EKeepL.ok ?_
      | with_reducible exact EKeepL.error
      | with_reducible refine State.openTxn_keep ?_
      | with_reducible refine State.openTxn_keep_of (by assumption) ?_
      | with_reducible refine State.sendFrame_keep_of (by assumption) ?_
      | exact trivial
      | fail_if_no_progress change Keep _ _
      | with_reducible refine Keep.foldl (fun _ _ _ => ?_) ?_
      | with_reducible refine Keep.foldl_snd (fun _ _ _ => ?_) ?_
      | split
      | dsimp only
theorem State.engWrites_keep_of {s : State} {n : ℕ} {tag : ℕ} {key : ℕ} {v : View} {base : ℕ} {x6 : List (ℕ × ℕ)} {l1 : List Nat} {t1 : State} (e : State.engWrites s n tag key v base x6 = .ok (l1, t1)) (hk : Keep s0 s) : Keep s0 t1 := State.engWrites_keep hk l1 t1 e

theorem State.engPutAs_keep {s : State} {demand : Bool} {n : ℕ} {tag : ℕ} {key : ℕ} {buf : Memory} {bad : Store Bool} {ws : List (List (ℕ × ℕ × ℕ) × View)} (hk : Keep s0 s) :
    EngOut.Keeps s0 (State.engPutAs s demand n tag key buf bad ws) := by
  unfold State.engPutAs
  repeat' first
    | with_reducible assumption
    | with_reducible refine EKeepL.elim ?_ (by assumption)
    | with_reducible refine EKeepL.foldl (fun _ _ _ => ?_) ?_
    | with_reducible refine EKeepL.ok ?_
    | with_reducible exact EKeepL.error
    | with_reducible exact EKeepL.elim (by assumption) rfl
    | with_reducible refine State.physWrite_keep ?_
    | with_reducible refine State.engWrites_keep ?_
    | with_reducible refine State.engWrites_keep_of (by assumption) ?_
    | with_reducible refine State.e2eRecord_keep ?_
    | with_reducible refine State.putXfer_keep ?_
    | exact trivial
    | fail_if_no_progress change Keep _ _
    | with_reducible refine Keep.foldl (fun _ _ _ => ?_) ?_
    | with_reducible refine Keep.foldl_snd (fun _ _ _ => ?_) ?_
    | split
    | dsimp only
theorem State.engPutAs_keep_lost {s : State} {demand : Bool} {n : ℕ} {tag : ℕ} {key : ℕ} {buf : Memory} {bad : Store Bool} {ws : List (List (ℕ × ℕ × ℕ) × View)}  {t1 : State} (e : State.engPutAs s demand n tag key buf bad ws = .lost t1) (hk : Keep s0 s) : Keep s0 t1 := by
  have k := State.engPutAs_keep (s0 := s0) (s := s) (demand := demand) (n := n) (tag := tag) (key := key) (buf := buf) (bad := bad) (ws := ws) hk
  rw [e] at k
  exact k
theorem State.engPutAs_keep_ok {s : State} {demand : Bool} {n : ℕ} {tag : ℕ} {key : ℕ} {buf : Memory} {bad : Store Bool} {ws : List (List (ℕ × ℕ × ℕ) × View)} {b1 : Bool} {t1 : State} (e : State.engPutAs s demand n tag key buf bad ws = .ok b1 t1) (hk : Keep s0 s) : Keep s0 t1 := by
  have k := State.engPutAs_keep (s0 := s0) (s := s) (demand := demand) (n := n) (tag := tag) (key := key) (buf := buf) (bad := bad) (ws := ws) hk
  rw [e] at k
  exact k

theorem State.engPut_keep {s : State} {n : ℕ} {tag : ℕ} {key : ℕ} {buf : Memory} {bad : Store Bool} {ws : List (List (ℕ × ℕ × ℕ) × View)} (hk : Keep s0 s) :
    EngOut.Keeps s0 (State.engPut s n tag key buf bad ws) := by
  unfold State.engPut
  repeat' first
    | with_reducible assumption
    | with_reducible refine State.engPutAs_keep ?_
theorem State.engPut_keep_lost {s : State} {n : ℕ} {tag : ℕ} {key : ℕ} {buf : Memory} {bad : Store Bool} {ws : List (List (ℕ × ℕ × ℕ) × View)}  {t1 : State} (e : State.engPut s n tag key buf bad ws = .lost t1) (hk : Keep s0 s) : Keep s0 t1 := by
  have k := State.engPut_keep (s0 := s0) (s := s) (n := n) (tag := tag) (key := key) (buf := buf) (bad := bad) (ws := ws) hk
  rw [e] at k
  exact k
theorem State.engPut_keep_ok {s : State} {n : ℕ} {tag : ℕ} {key : ℕ} {buf : Memory} {bad : Store Bool} {ws : List (List (ℕ × ℕ × ℕ) × View)} {b1 : Bool} {t1 : State} (e : State.engPut s n tag key buf bad ws = .ok b1 t1) (hk : Keep s0 s) : Keep s0 t1 := by
  have k := State.engPut_keep (s0 := s0) (s := s) (n := n) (tag := tag) (key := key) (buf := buf) (bad := bad) (ws := ws) hk
  rw [e] at k
  exact k

theorem State.xferGo_keep {s : State} {n : ℕ} {tag : ℕ} {key : ℕ} {buf : Memory} {bad : Store Bool} {rs : List (List (ℕ × ℕ × ℕ))} {pd : List (ℕ × ℕ × ℕ)} {f : List View → View} (hk : Keep s0 s) :
    XferRes.Keeps s0 (State.xferGo s n tag key buf bad rs pd f) := by
  unfold State.xferGo
  repeat' first
    | with_reducible assumption
    | with_reducible refine State.noteReads_keep ?_
    | with_reducible refine State.engPut_keep ?_
    | with_reducible refine State.engPut_keep_lost (by assumption) ?_
    | with_reducible refine State.engPut_keep_ok (by assumption) ?_
    | exact trivial
    | fail_if_no_progress change Keep _ _
    | with_reducible refine Keep.foldl (fun _ _ _ => ?_) ?_
    | with_reducible refine Keep.foldl_snd (fun _ _ _ => ?_) ?_
    | split
    | dsimp only
theorem State.xferGo_keep_wait {s : State} {n : ℕ} {tag : ℕ} {key : ℕ} {buf : Memory} {bad : Store Bool} {rs : List (List (ℕ × ℕ × ℕ))} {pd : List (ℕ × ℕ × ℕ)} {f : List View → View}  {t1 : State} (e : State.xferGo s n tag key buf bad rs pd f = .wait t1) (hk : Keep s0 s) : Keep s0 t1 := by
  have k := State.xferGo_keep (s0 := s0) (s := s) (n := n) (tag := tag) (key := key) (buf := buf) (bad := bad) (rs := rs) (pd := pd) (f := f) hk
  rw [e] at k
  exact k
theorem State.xferGo_keep_fault {s : State} {n : ℕ} {tag : ℕ} {key : ℕ} {buf : Memory} {bad : Store Bool} {rs : List (List (ℕ × ℕ × ℕ))} {pd : List (ℕ × ℕ × ℕ)} {f : List View → View} {f1 : AccFault} {w1 : Bool} {t1 : State} (e : State.xferGo s n tag key buf bad rs pd f = .fault f1 w1 t1) (hk : Keep s0 s) : Keep s0 t1 := by
  have k := State.xferGo_keep (s0 := s0) (s := s) (n := n) (tag := tag) (key := key) (buf := buf) (bad := bad) (rs := rs) (pd := pd) (f := f) hk
  rw [e] at k
  exact k
theorem State.xferGo_keep_lost {s : State} {n : ℕ} {tag : ℕ} {key : ℕ} {buf : Memory} {bad : Store Bool} {rs : List (List (ℕ × ℕ × ℕ))} {pd : List (ℕ × ℕ × ℕ)} {f : List View → View}  {t1 : State} (e : State.xferGo s n tag key buf bad rs pd f = .lost t1) (hk : Keep s0 s) : Keep s0 t1 := by
  have k := State.xferGo_keep (s0 := s0) (s := s) (n := n) (tag := tag) (key := key) (buf := buf) (bad := bad) (rs := rs) (pd := pd) (f := f) hk
  rw [e] at k
  exact k
theorem State.xferGo_keep_done {s : State} {n : ℕ} {tag : ℕ} {key : ℕ} {buf : Memory} {bad : Store Bool} {rs : List (List (ℕ × ℕ × ℕ))} {pd : List (ℕ × ℕ × ℕ)} {f : List View → View} {v1 : List View} {t1 : State} (e : State.xferGo s n tag key buf bad rs pd f = .done v1 t1) (hk : Keep s0 s) : Keep s0 t1 := by
  have k := State.xferGo_keep (s0 := s0) (s := s) (n := n) (tag := tag) (key := key) (buf := buf) (bad := bad) (rs := rs) (pd := pd) (f := f) hk
  rw [e] at k
  exact k

theorem State.engStep_keep {s : State} {n : ℕ} {tag : ℕ} {key : ℕ} {reads : List (ℕ × ℕ)} {dst : ℕ × ℕ} {f : List View → View} (hk : Keep s0 s) :
    XferRes.Keeps s0 (State.engStep s n tag key reads dst f) := by
  unfold State.engStep
  repeat' first
    | with_reducible assumption
    | with_reducible refine State.hostReadError_keep ?_
    | with_reducible refine State.engNow_keep ?_
    | with_reducible refine State.engNow_keep_wait (by assumption) ?_
    | with_reducible refine State.engNow_keep_refused (by assumption) ?_
    | with_reducible refine State.engNow_keep_lost (by assumption) ?_
    | with_reducible refine State.engNow_keep_done (by assumption) ?_
    | with_reducible refine State.engNow_keep_go (by assumption) ?_
    | with_reducible refine State.xferGo_keep ?_
    | with_reducible refine State.xferGo_keep_wait (by assumption) ?_
    | with_reducible refine State.xferGo_keep_fault (by assumption) ?_
    | with_reducible refine State.xferGo_keep_lost (by assumption) ?_
    | with_reducible refine State.xferGo_keep_done (by assumption) ?_
    | exact trivial
    | fail_if_no_progress change Keep _ _
    | with_reducible refine Keep.foldl (fun _ _ _ => ?_) ?_
    | with_reducible refine Keep.foldl_snd (fun _ _ _ => ?_) ?_
    | split
    | dsimp only
theorem State.engStep_keep_wait {s : State} {n : ℕ} {tag : ℕ} {key : ℕ} {reads : List (ℕ × ℕ)} {dst : ℕ × ℕ} {f : List View → View}  {t1 : State} (e : State.engStep s n tag key reads dst f = .wait t1) (hk : Keep s0 s) : Keep s0 t1 := by
  have k := State.engStep_keep (s0 := s0) (s := s) (n := n) (tag := tag) (key := key) (reads := reads) (dst := dst) (f := f) hk
  rw [e] at k
  exact k
theorem State.engStep_keep_fault {s : State} {n : ℕ} {tag : ℕ} {key : ℕ} {reads : List (ℕ × ℕ)} {dst : ℕ × ℕ} {f : List View → View} {f1 : AccFault} {w1 : Bool} {t1 : State} (e : State.engStep s n tag key reads dst f = .fault f1 w1 t1) (hk : Keep s0 s) : Keep s0 t1 := by
  have k := State.engStep_keep (s0 := s0) (s := s) (n := n) (tag := tag) (key := key) (reads := reads) (dst := dst) (f := f) hk
  rw [e] at k
  exact k
theorem State.engStep_keep_lost {s : State} {n : ℕ} {tag : ℕ} {key : ℕ} {reads : List (ℕ × ℕ)} {dst : ℕ × ℕ} {f : List View → View}  {t1 : State} (e : State.engStep s n tag key reads dst f = .lost t1) (hk : Keep s0 s) : Keep s0 t1 := by
  have k := State.engStep_keep (s0 := s0) (s := s) (n := n) (tag := tag) (key := key) (reads := reads) (dst := dst) (f := f) hk
  rw [e] at k
  exact k
theorem State.engStep_keep_done {s : State} {n : ℕ} {tag : ℕ} {key : ℕ} {reads : List (ℕ × ℕ)} {dst : ℕ × ℕ} {f : List View → View} {v1 : List View} {t1 : State} (e : State.engStep s n tag key reads dst f = .done v1 t1) (hk : Keep s0 s) : Keep s0 t1 := by
  have k := State.engStep_keep (s0 := s0) (s := s) (n := n) (tag := tag) (key := key) (reads := reads) (dst := dst) (f := f) hk
  rw [e] at k
  exact k

theorem State.dropXfers_keep {s : State} {n : ℕ} {tag : ℕ} (hk : Keep s0 s) :
    Keep s0 (State.dropXfers s n tag) := by
  unfold State.dropXfers
  repeat' first
    | with_reducible assumption
    | with_reducible refine Keep.foldl (fun _ _ _ => ?_) ?_
    | with_reducible refine Keep.foldl_snd (fun _ _ _ => ?_) ?_
    | split
    | fail_if_no_progress ((with_reducible refine Keep.upd ?_ ?_); exact rfl)

theorem State.dropEarly_keep {s : State} {g : ℕ} {seq : ℕ} (hk : Keep s0 s) :
    Keep s0 (State.dropEarly s g seq) := by
  unfold State.dropEarly
  repeat' first
    | with_reducible assumption
    | with_reducible refine Keep.foldl (fun _ _ _ => ?_) ?_
    | with_reducible refine Keep.foldl_snd (fun _ _ _ => ?_) ?_
    | split
    | fail_if_no_progress ((with_reducible refine Keep.upd ?_ ?_); exact rfl)

theorem State.dropRelay_keep {s : State} {n : ℕ} {tag : ℕ} (hk : Keep s0 s) :
    Keep s0 (State.dropRelay s n tag) := by
  unfold State.dropRelay
  repeat' first
    | with_reducible assumption
    | with_reducible refine State.setCtx_keep ?_

theorem State.setColl_keep {s : State} {n : ℕ} {tag : ℕ} {f : CollJob → CollJob} (hk : Keep s0 s) :
    Keep s0 (State.setColl s n tag f) := by
  unfold State.setColl
  repeat' first
    | with_reducible assumption
    | with_reducible refine State.setCtx_keep ?_

theorem State.writeProgress_keep {s : State} {n : ℕ} {c : Cmd} (hk : Keep s0 s) :
    Keep s0 (State.writeProgress s n c) := by
  unfold State.writeProgress
  repeat' first
    | with_reducible assumption
    | with_reducible refine State.setCmd_keep ?_
    | with_reducible refine State.hostWrite_keep ?_
    | with_reducible refine Keep.foldl (fun _ _ _ => ?_) ?_
    | with_reducible refine Keep.foldl_snd (fun _ _ _ => ?_) ?_
    | split

theorem State.progressFor_keep {s : State} {n : ℕ} {tag : ℕ} (hk : Keep s0 s) :
    Keep s0 (State.progressFor s n tag) := by
  unfold State.progressFor
  repeat' first
    | with_reducible assumption
    | with_reducible refine State.writeProgress_keep ?_
    | with_reducible refine Keep.foldl (fun _ _ _ => ?_) ?_
    | with_reducible refine Keep.foldl_snd (fun _ _ _ => ?_) ?_
    | split

theorem State.collEnds_keep {s : State} {n : ℕ} {tag : ℕ} {reason : ℕ} {cause : ℕ} {node : ℕ} {cseal : ℕ} (hk : Keep s0 s) :
    Keep s0 (State.collEnds s n tag reason cause node cseal) := by
  unfold State.collEnds
  repeat' first
    | with_reducible assumption
    | with_reducible refine State.dropXfers_keep ?_
    | with_reducible refine State.dropEarly_keep ?_
    | with_reducible refine State.dropRelay_keep ?_
    | with_reducible refine State.setColl_keep ?_
    | with_reducible refine State.settleCmd_keep ?_
    | with_reducible refine State.progressFor_keep ?_
    | with_reducible refine Keep.foldl (fun _ _ _ => ?_) ?_
    | with_reducible refine Keep.foldl_snd (fun _ _ _ => ?_) ?_
    | split

theorem State.collRaise_keep {s : State} {n : ℕ} {tag : ℕ} {reason : ℕ} {cause : ℕ} {node : ℕ} {cseal : ℕ} (hk : Keep s0 s) :
    Keep s0 (State.collRaise s n tag reason cause node cseal) := by
  unfold State.collRaise
  repeat' first
    | with_reducible assumption
    | with_reducible refine State.collEnds_keep ?_
    | with_reducible refine State.abortRing_keep ?_
    | with_reducible refine Keep.foldl (fun _ _ _ => ?_) ?_
    | with_reducible refine Keep.foldl_snd (fun _ _ _ => ?_) ?_
    | split

theorem State.collFault_keep {s : State} {n : ℕ} {tag : ℕ} {f : AccFault} {write : Bool} (hk : Keep s0 s) :
    Keep s0 (State.collFault s n tag f write) := by
  unfold State.collFault
  repeat' first
    | with_reducible assumption
    | with_reducible refine State.collRaise_keep ?_
    | with_reducible refine State.cmdFaultRec_keep ?_

theorem State.collLost_keep {s : State} {n : ℕ} {tag : ℕ} (hk : Keep s0 s) :
    Keep s0 (State.collLost s n tag) := by
  unfold State.collLost
  repeat' first
    | with_reducible assumption
    | with_reducible refine State.collRaise_keep ?_

theorem State.chunkWrite_keep {s : State} {n : Nat} {c : Cmd} {key shard chunk : Nat} {bytes : List Byte} {bad : List Nat}
    {go : State → State} (hg : ∀ t, Keep s0 t → Keep s0 (go t)) (h : Keep s0 s) :
    ChunkRes.Keeps s0 (s.chunkWrite n c key shard chunk bytes bad go) := by
  unfold State.chunkWrite
  repeat' first
    | with_reducible assumption
    | with_reducible refine hg _ ?_
    | with_reducible refine State.engStep_keep ?_
    | with_reducible refine State.engStep_keep_wait (by assumption) ?_
    | with_reducible refine State.engStep_keep_fault (by assumption) ?_
    | with_reducible refine State.engStep_keep_lost (by assumption) ?_
    | with_reducible refine State.engStep_keep_done (by assumption) ?_
    | with_reducible refine State.collFault_keep ?_
    | with_reducible refine State.collLost_keep ?_
    | exact trivial
    | fail_if_no_progress change Keep _ _
    | with_reducible refine Keep.foldl (fun _ _ _ => ?_) ?_
    | with_reducible refine Keep.foldl_snd (fun _ _ _ => ?_) ?_
    | split
    | dsimp only

theorem State.noteGot_keep {s : State} {n : ℕ} {tag : ℕ} (hk : Keep s0 s) :
    Keep s0 (State.noteGot s n tag) := by
  unfold State.noteGot
  repeat' first
    | with_reducible assumption
    | with_reducible refine State.setColl_keep ?_

theorem State.noteChunk_keep {s : State} {n : ℕ} {c : Cmd} {shard : ℕ} {chunk : ℕ} {sat : ℕ} {nf : ℕ} (hk : Keep s0 s) :
    Keep s0 (State.noteChunk s n c shard chunk sat nf) := by
  unfold State.noteChunk
  repeat' first
    | with_reducible assumption
    | with_reducible refine State.setColl_keep ?_

theorem State.sendChunk_keep {s : State} {n : ℕ} {c : Cmd} {j : CollJob} {phase : ℕ} {shard : ℕ} {chunk : ℕ} {fmt : ℕ} {bytes : List Byte} {bad : List ℕ} (hk : Keep s0 s) :
    Keep s0 (State.sendChunk s n c j phase shard chunk fmt bytes bad) := by
  unfold State.sendChunk
  repeat' first
    | with_reducible assumption
    | with_reducible refine State.setColl_keep ?_
    | with_reducible refine State.sendLoose_keep ?_

theorem State.collDone_keep {s : State} {n : ℕ} {tag : ℕ} (hk : Keep s0 s) :
    Keep s0 (State.collDone s n tag) := by
  unfold State.collDone
  repeat' first
    | with_reducible assumption
    | with_reducible refine State.setCtx_keep ?_
    | with_reducible refine State.settleCmd_keep ?_
    | with_reducible refine State.progressFor_keep ?_
    | with_reducible refine State.dropRelay_keep ?_
    | with_reducible refine Keep.foldl (fun _ _ _ => ?_) ?_
    | with_reducible refine Keep.foldl_snd (fun _ _ _ => ?_) ?_
    | split
    | fail_if_no_progress ((with_reducible refine Keep.upd ?_ ?_); exact rfl)
    | dsimp only

theorem State.chunkGather_keep {s : State} {n : ℕ} {c : Cmd} {x : ExtHdr} {v : View} (hk : Keep s0 s) :
    ChunkRes.Keeps s0 (State.chunkGather s n c x v) := by
  unfold State.chunkGather
  repeat' first
    | with_reducible assumption
    | with_reducible refine State.countDiscard_keep ?_
    | with_reducible refine State.chunkWrite_keep (fun _ _ => ?_) ?_
    | with_reducible refine State.noteGot_keep ?_
    | with_reducible refine State.noteChunk_keep ?_
    | with_reducible refine State.sendChunk_keep ?_
    | with_reducible refine State.collDone_keep ?_
    | exact trivial
    | fail_if_no_progress change Keep _ _
    | with_reducible refine Keep.foldl (fun _ _ _ => ?_) ?_
    | with_reducible refine Keep.foldl_snd (fun _ _ _ => ?_) ?_
    | split
    | dsimp only
theorem State.chunkGather_keep_wait {s : State} {n : ℕ} {c : Cmd} {x : ExtHdr} {v : View}  {t1 : State} (e : State.chunkGather s n c x v = .wait t1) (hk : Keep s0 s) : Keep s0 t1 := by
  have k := State.chunkGather_keep (s0 := s0) (s := s) (n := n) (c := c) (x := x) (v := v) hk
  rw [e] at k
  exact k
theorem State.chunkGather_keep_done {s : State} {n : ℕ} {c : Cmd} {x : ExtHdr} {v : View}  {t1 : State} (e : State.chunkGather s n c x v = .done t1) (hk : Keep s0 s) : Keep s0 t1 := by
  have k := State.chunkGather_keep (s0 := s0) (s := s) (n := n) (c := c) (x := x) (v := v) hk
  rw [e] at k
  exact k

theorem State.gateChunk_keep {s : State} {n : ℕ} {c : Cmd} {fmt : ℕ} {bytes : List Byte} (hk : Keep s0 s) :
    Keep s0 (State.gateChunk s n c fmt bytes) := by
  unfold State.gateChunk
  repeat' first
    | with_reducible assumption
    | with_reducible refine State.setColl_keep ?_
    | with_reducible refine Keep.foldl (fun _ _ _ => ?_) ?_
    | with_reducible refine Keep.foldl_snd (fun _ _ _ => ?_) ?_
    | split

theorem State.chunkReduce_keep {s : State} {n : ℕ} {c : Cmd} {x : ExtHdr} {v : View} (hk : Keep s0 s) :
    ChunkRes.Keeps s0 (State.chunkReduce s n c x v) := by
  unfold State.chunkReduce
  repeat' first
    | with_reducible assumption
    | with_reducible refine State.countDiscard_keep ?_
    | with_reducible refine State.engStep_keep ?_
    | with_reducible refine State.engStep_keep_wait (by assumption) ?_
    | with_reducible refine State.engStep_keep_fault (by assumption) ?_
    | with_reducible refine State.engStep_keep_lost (by assumption) ?_
    | with_reducible refine State.engStep_keep_done (by assumption) ?_
    | with_reducible refine State.collFault_keep ?_
    | with_reducible refine State.collLost_keep ?_
    | with_reducible refine State.collDone_keep ?_
    | with_reducible refine State.noteGot_keep ?_
    | with_reducible refine State.sendChunk_keep ?_
    | with_reducible refine State.chunkWrite_keep (fun _ _ => ?_) ?_
    | with_reducible refine State.gateChunk_keep ?_
    | with_reducible refine State.noteChunk_keep ?_
    | exact trivial
    | fail_if_no_progress change Keep _ _
    | with_reducible refine Keep.foldl (fun _ _ _ => ?_) ?_
    | with_reducible refine Keep.foldl_snd (fun _ _ _ => ?_) ?_
    | split
    | dsimp only
theorem State.chunkReduce_keep_wait {s : State} {n : ℕ} {c : Cmd} {x : ExtHdr} {v : View}  {t1 : State} (e : State.chunkReduce s n c x v = .wait t1) (hk : Keep s0 s) : Keep s0 t1 := by
  have k := State.chunkReduce_keep (s0 := s0) (s := s) (n := n) (c := c) (x := x) (v := v) hk
  rw [e] at k
  exact k
theorem State.chunkReduce_keep_done {s : State} {n : ℕ} {c : Cmd} {x : ExtHdr} {v : View}  {t1 : State} (e : State.chunkReduce s n c x v = .done t1) (hk : Keep s0 s) : Keep s0 t1 := by
  have k := State.chunkReduce_keep (s0 := s0) (s := s) (n := n) (c := c) (x := x) (v := v) hk
  rw [e] at k
  exact k

theorem State.collOwn_keep {s : State} {n : ℕ} {tag : ℕ} (hk : Keep s0 s) :
    Keep s0 (State.collOwn s n tag) := by
  unfold State.collOwn
  repeat' first
    | with_reducible assumption
    | with_reducible refine State.engStep_keep ?_
    | with_reducible refine State.engStep_keep_wait (by assumption) ?_
    | with_reducible refine State.engStep_keep_fault (by assumption) ?_
    | with_reducible refine State.engStep_keep_lost (by assumption) ?_
    | with_reducible refine State.engStep_keep_done (by assumption) ?_
    | with_reducible refine State.collFault_keep ?_
    | with_reducible refine State.collLost_keep ?_
    | with_reducible refine State.noteChunk_keep ?_
    | with_reducible refine State.setColl_keep ?_
    | with_reducible refine State.collDone_keep ?_
    | with_reducible refine State.sendChunk_keep ?_
    | with_reducible refine Keep.foldl (fun _ _ _ => ?_) ?_
    | with_reducible refine Keep.foldl_snd (fun _ _ _ => ?_) ?_
    | split
    | fail_if_no_progress ((with_reducible refine Keep.upd ?_ ?_); exact rfl)
    | dsimp only

end Sys2Proof.Machine
end

