-- ==== Sys2Proof/Laws/Keep02.lean ====
section
/-! SUPPORT. The operations of the model and the frame `Keep`, part 2. -/

namespace Sys2Proof.Machine

open Sys2Proof

variable {s0 : State}

theorem State.failColls_keep {s : State} {node : ℕ} (hk : Keep s0 s) :
    Keep s0 (State.failColls s node) := by
  unfold State.failColls
  repeat' first
    | with_reducible assumption
    | with_reducible refine State.collRaise_keep ?_
    | with_reducible refine Keep.foldl (fun _ _ _ => ?_) ?_

theorem State.holdEarly_keep {s : State} {f : Frame} (hk : Keep s0 s) :
    Keep s0 (State.holdEarly s f) := by
  unfold State.holdEarly
  repeat' first
    | with_reducible assumption
    | with_reducible refine Keep.foldl (fun _ _ _ => ?_) ?_
    | with_reducible refine Keep.foldl_snd (fun _ _ _ => ?_) ?_
    | split
    | fail_if_no_progress ((with_reducible refine Keep.upd ?_ ?_); exact rfl)

theorem State.noteHeard_keep {s : State} {n : ℕ} {tag : ℕ} {src : ℕ} (hk : Keep s0 s) :
    Keep s0 (State.noteHeard s n tag src) := by
  unfold State.noteHeard
  repeat' first
    | with_reducible assumption
    | with_reducible refine State.setColl_keep ?_

theorem State.returnCredits_keep {s : State} (hk : Keep s0 s) :
    Keep s0 (State.returnCredits s) := by
  unfold State.returnCredits
  repeat' first
    | with_reducible assumption
    | with_reducible refine State.setPort_keep ?_
    | with_reducible refine Keep.foldl (fun _ _ _ => ?_) ?_
    | with_reducible refine Keep.foldl_snd (fun _ _ _ => ?_) ?_
    | split
    | fail_if_no_progress ((with_reducible refine Keep.upd ?_ ?_); exact rfl)

theorem State.releaseEarly_keep {s : State} {g : ℕ} {seq : ℕ} (hk : Keep s0 s) :
    Keep s0 (State.releaseEarly s g seq) := by
  unfold State.releaseEarly
  repeat' first
    | with_reducible assumption
    | with_reducible refine State.returnCredits_keep ?_
    | with_reducible refine Keep.foldl (fun _ _ _ => ?_) ?_
    | with_reducible refine Keep.foldl_snd (fun _ _ _ => ?_) ?_
    | split
    | fail_if_no_progress ((with_reducible refine Keep.upd ?_ ?_); exact rfl)

theorem State.countFabStale_keep {s : State} (hk : Keep s0 s) :
    Keep s0 (State.countFabStale s) := by
  unfold State.countFabStale
  repeat' first
    | with_reducible assumption
    | with_reducible refine Keep.foldl (fun _ _ _ => ?_) ?_
    | with_reducible refine Keep.foldl_snd (fun _ _ _ => ?_) ?_
    | split
    | fail_if_no_progress ((with_reducible refine Keep.upd ?_ ?_); exact rfl)

theorem State.bySeq_keep {s t : State} {f : Frame} {use : Nat → Cmd → ExtHdr → State} (hu : ∀ n c x, Keep s0 (use n c x))
    (h : Keep s0 t) : Keep s0 (s.bySeq t f use) := by
  unfold State.bySeq
  repeat' first
    | with_reducible assumption
    | with_reducible exact hu _ _ _
    | with_reducible refine State.countDiscard_keep ?_
    | with_reducible refine State.holdEarly_keep ?_
    | with_reducible refine State.countFabStale_keep ?_
    | with_reducible refine Keep.foldl (fun _ _ _ => ?_) ?_
    | with_reducible refine Keep.foldl_snd (fun _ _ _ => ?_) ?_
    | split

theorem State.fabricEventAll_keep {s : State} {rec : List Byte} (hk : Keep s0 s) :
    Keep s0 (State.fabricEventAll s rec) := by
  unfold State.fabricEventAll
  repeat' first
    | with_reducible assumption
    | with_reducible refine State.event_keep ?_
    | with_reducible refine State.event_keep_of (by assumption) ?_
    | with_reducible refine Keep.foldl (fun _ _ _ => ?_) ?_
    | with_reducible refine Keep.foldl_snd (fun _ _ _ => ?_) ?_
    | split

theorem State.mismatchRecord_keep {s : State} {node : ℕ} {cseal : ℕ} (hk : Keep s0 s) :
    Keep s0 (State.mismatchRecord s node cseal) := by
  unfold State.mismatchRecord
  repeat' first
    | with_reducible assumption
    | with_reducible refine State.fabricEventAll_keep ?_

theorem State.sealDiffers_keep {s : State} {n : ℕ} {c : Cmd} {f : Frame} {x : ExtHdr} (hk : Keep s0 s) :
    Keep s0 (State.sealDiffers s n c f x) := by
  unfold State.sealDiffers
  repeat' first
    | with_reducible assumption
    | with_reducible refine State.collRaise_keep ?_
    | with_reducible refine State.mismatchRecord_keep ?_

theorem State.startJob_keep {s : State} {n : ℕ} {c : Cmd} {job : Job} (hk : Keep s0 s) :
    Keep s0 (State.startJob s n c job) := by
  unfold State.startJob
  repeat' first
    | with_reducible assumption
    | with_reducible refine State.writeProgress_keep ?_
    | with_reducible refine State.setCmd_keep ?_

theorem execColl_keep {n : ℕ} {tag : ℕ} {s : State} (hk : Keep s0 s) :
    OKeep s0 (execColl n tag s) := by
  unfold execColl
  repeat' first
    | with_reducible assumption
    | with_reducible refine State.startJob_keep ?_
    | with_reducible refine State.collRaise_keep ?_
    | with_reducible refine State.collDone_keep ?_
    | with_reducible refine State.releaseEarly_keep ?_
    | with_reducible refine State.collOwn_keep ?_
    | with_reducible refine OKeep.next ?_
    | with_reducible exact OKeep.fault
    | with_reducible exact OKeep.refused
    | with_reducible refine Keep.foldl (fun _ _ _ => ?_) ?_
    | with_reducible refine Keep.foldl_snd (fun _ _ _ => ?_) ?_
    | split
    | dsimp only

theorem State.takeOpc_keep {s : State} {opc : Nat} (h : Keep s0 s) : FKeep s0 (s.takeOpc opc) := by
  intro f t e
  unfold State.takeOpc at e
  rw [Option.map_eq_some_iff] at e
  obtain ⟨g, _, e⟩ := e
  exact (Prod.mk.inj e).2 ▸ Keep.upd rfl h
theorem State.takeOpc_keep_of {s : State} {opc : Nat} {f1 : Frame} {t1 : State} (e : s.takeOpc opc = some (f1, t1)) (h : Keep s0 s) :
    Keep s0 t1 := State.takeOpc_keep h f1 t1 e

theorem execCollAbort_keep {s : State} (hk : Keep s0 s) :
    OKeep s0 (execCollAbort s) := by
  unfold execCollAbort
  repeat' first
    | with_reducible assumption
    | with_reducible refine State.takeOpc_keep_of (by assumption) ?_
    | with_reducible refine State.countDiscard_keep ?_
    | with_reducible refine State.holdEarly_keep ?_
    | with_reducible refine State.sendLoose_keep ?_
    | with_reducible refine State.collEnds_keep ?_
    | with_reducible refine OKeep.next ?_
    | with_reducible exact OKeep.fault
    | with_reducible exact OKeep.refused
    | with_reducible refine Keep.foldl (fun _ _ _ => ?_) ?_
    | with_reducible refine Keep.foldl_snd (fun _ _ _ => ?_) ?_
    | split
    | dsimp only

theorem execCollFrame_keep {s : State} (hk : Keep s0 s) :
    OKeep s0 (execCollFrame s) := by
  unfold execCollFrame
  repeat' first
    | with_reducible assumption
    | with_reducible refine State.takeOpc_keep_of (by assumption) ?_
    | with_reducible refine State.bySeq_keep (fun _ _ _ => ?_) ?_
    | with_reducible refine State.sealDiffers_keep ?_
    | with_reducible refine State.noteHeard_keep ?_
    | with_reducible refine State.chunkReduce_keep ?_
    | with_reducible refine State.chunkReduce_keep_wait (by assumption) ?_
    | with_reducible refine State.chunkReduce_keep_done (by assumption) ?_
    | with_reducible refine State.chunkGather_keep ?_
    | with_reducible refine State.chunkGather_keep_wait (by assumption) ?_
    | with_reducible refine State.chunkGather_keep_done (by assumption) ?_
    | with_reducible refine OKeep.next ?_
    | with_reducible exact OKeep.fault
    | with_reducible exact OKeep.refused
    | with_reducible refine Keep.foldl (fun _ _ _ => ?_) ?_
    | with_reducible refine Keep.foldl_snd (fun _ _ _ => ?_) ?_
    | split
    | fail_if_no_progress ((with_reducible refine Keep.upd ?_ ?_); exact rfl)
    | dsimp only

theorem execCollSilenceTimeout_keep {n : ℕ} {tag : ℕ} {s : State} (hk : Keep s0 s) :
    OKeep s0 (execCollSilenceTimeout n tag s) := by
  unfold execCollSilenceTimeout
  repeat' first
    | with_reducible assumption
    | with_reducible refine State.collRaise_keep ?_
    | with_reducible refine OKeep.next ?_
    | with_reducible exact OKeep.fault
    | with_reducible exact OKeep.refused
    | with_reducible refine Keep.foldl (fun _ _ _ => ?_) ?_
    | with_reducible refine Keep.foldl_snd (fun _ _ _ => ?_) ?_
    | split
    | dsimp only

theorem execHeartbeat_keep {s : State} (hk : Keep s0 s) :
    OKeep s0 (execHeartbeat s) := by
  unfold execHeartbeat
  repeat' first
    | with_reducible assumption
    | with_reducible refine State.takeOpc_keep_of (by assumption) ?_
    | with_reducible refine State.bySeq_keep (fun _ _ _ => ?_) ?_
    | with_reducible refine State.sealDiffers_keep ?_
    | with_reducible refine State.noteHeard_keep ?_
    | with_reducible refine OKeep.next ?_
    | with_reducible exact OKeep.fault
    | with_reducible exact OKeep.refused
    | with_reducible refine Keep.foldl (fun _ _ _ => ?_) ?_
    | with_reducible refine Keep.foldl_snd (fun _ _ _ => ?_) ?_
    | split

theorem execHeartbeatTimer_keep {n : ℕ} {tag : ℕ} {s : State} (hk : Keep s0 s) :
    OKeep s0 (execHeartbeatTimer n tag s) := by
  unfold execHeartbeatTimer
  repeat' first
    | with_reducible assumption
    | with_reducible refine State.setColl_keep ?_
    | with_reducible refine State.sendLoose_keep ?_
    | with_reducible refine OKeep.next ?_
    | with_reducible exact OKeep.fault
    | with_reducible exact OKeep.refused
    | with_reducible refine Keep.foldl (fun _ _ _ => ?_) ?_
    | with_reducible refine Keep.foldl_snd (fun _ _ _ => ?_) ?_
    | split

theorem State.computeAbort_keep {s : State} {n : ℕ} {c : Cmd} {j : ComputeJob} (hk : Keep s0 s) :
    PKeep s0 (State.computeAbort s n c j) := by
  unfold State.computeAbort
  repeat' first
    | with_reducible assumption
    | with_reducible refine State.setCmd_keep ?_
    | with_reducible refine State.endWork_keep ?_
    | with_reducible refine State.setCore_keep ?_
    | with_reducible refine State.updCmd_keep ?_
    | refine PKeep.some ?_
    | exact PKeep.none
    | with_reducible refine Keep.foldl (fun _ _ _ => ?_) ?_
    | with_reducible refine Keep.foldl_snd (fun _ _ _ => ?_) ?_
    | split
    | fail_if_no_progress ((with_reducible refine Keep.upd ?_ ?_); exact rfl)
    | dsimp only
theorem State.computeAbort_keep_of {s : State} {n : ℕ} {c : Cmd} {j : ComputeJob} {t1 : State} (e : State.computeAbort s n c j = some t1) (hk : Keep s0 s) : Keep s0 t1 := State.computeAbort_keep hk t1 e

theorem State.countHeld_keep {s : State} {n : ℕ} (hk : Keep s0 s) :
    Keep s0 (State.countHeld s n) := by
  unfold State.countHeld
  repeat' first
    | with_reducible assumption
    | with_reducible refine State.setFld_keep ?_

theorem State.settleBatch_keep {s : State} {n : ℕ} {lead : Cmd} {stats : Store ConvStats} {named : ℕ} {slots : Bool} {tags : List ℕ} (hk : Keep s0 s) :
    Keep s0 (State.settleBatch s n lead stats named slots tags) := by
  unfold State.settleBatch
  repeat' first
    | with_reducible assumption
    | with_reducible refine State.updCmd_keep ?_
    | with_reducible refine Keep.foldl (fun _ _ _ => ?_) ?_

theorem State.thWrite_keep {s : State} {n : ℕ} {tag : ℕ} {key : ℕ} {va : ℕ} {v : View} (hk : Keep s0 s) :
    ThOut.Keeps s0 (State.thWrite s n tag key va v) := by
  unfold State.thWrite
  repeat' first
    | with_reducible assumption
    | with_reducible refine State.cmdFaultRec_keep ?_
    | with_reducible refine State.engNow_keep ?_
    | with_reducible refine State.engNow_keep_wait (by assumption) ?_
    | with_reducible refine State.engNow_keep_refused (by assumption) ?_
    | with_reducible refine State.engNow_keep_lost (by assumption) ?_
    | with_reducible refine State.engNow_keep_done (by assumption) ?_
    | with_reducible refine State.engNow_keep_go (by assumption) ?_
    | with_reducible refine State.engPutAs_keep ?_
    | with_reducible refine State.engPutAs_keep_lost (by assumption) ?_
    | with_reducible refine State.engPutAs_keep_ok (by assumption) ?_
    | exact trivial
    | fail_if_no_progress change Keep _ _
    | with_reducible refine Keep.foldl (fun _ _ _ => ?_) ?_
    | with_reducible refine Keep.foldl_snd (fun _ _ _ => ?_) ?_
    | split
theorem State.thWrite_keep_ok {s : State} {n : ℕ} {tag : ℕ} {key : ℕ} {va : ℕ} {v : View} {c1 : Nat} {t1 : State} (e : State.thWrite s n tag key va v = .ok c1 t1) (hk : Keep s0 s) : Keep s0 t1 := by
  have k := State.thWrite_keep (s0 := s0) (s := s) (n := n) (tag := tag) (key := key) (va := va) (v := v) hk
  rw [e] at k
  exact k
theorem State.thWrite_keep_wait {s : State} {n : ℕ} {tag : ℕ} {key : ℕ} {va : ℕ} {v : View}  {t1 : State} (e : State.thWrite s n tag key va v = .wait t1) (hk : Keep s0 s) : Keep s0 t1 := by
  have k := State.thWrite_keep (s0 := s0) (s := s) (n := n) (tag := tag) (key := key) (va := va) (v := v) hk
  rw [e] at k
  exact k
theorem State.thWrite_keep_lost {s : State} {n : ℕ} {tag : ℕ} {key : ℕ} {va : ℕ} {v : View}  {t1 : State} (e : State.thWrite s n tag key va v = .lost t1) (hk : Keep s0 s) : Keep s0 t1 := by
  have k := State.thWrite_keep (s0 := s0) (s := s) (n := n) (tag := tag) (key := key) (va := va) (v := v) hk
  rw [e] at k
  exact k

theorem State.startCores_keep {s : State} {n : ℕ} {tag : ℕ} {r : ℕ} {args : List W64} (hk : Keep s0 s) :
    Keep s0 (State.startCores s n tag r args) := by
  unfold State.startCores
  repeat' first
    | with_reducible assumption
    | with_reducible refine State.startNext_keep ?_
    | with_reducible refine State.setCore_keep ?_
    | with_reducible refine Keep.foldl (fun _ _ _ => ?_) ?_

theorem State.launch_keep {s : State} {n : ℕ} {c : Cmd} {r : ℕ} {args : List W64} {batch : List ℕ} (hk : Keep s0 s) :
    Keep s0 (State.launch s n c r args batch) := by
  unfold State.launch
  repeat' first
    | with_reducible assumption
    | with_reducible refine State.setCmd_keep ?_
    | with_reducible refine State.startCores_keep ?_
    | with_reducible refine State.startJob_keep ?_
    | with_reducible refine Keep.foldl (fun _ _ _ => ?_) ?_
    | with_reducible refine Keep.foldl_snd (fun _ _ _ => ?_) ?_
    | split

theorem State.startBatch_keep {s : State} {n : ℕ} {tag : ℕ} (hk : Keep s0 s) :
    Keep s0 (State.startBatch s n tag) := by
  unfold State.startBatch
  repeat' first
    | with_reducible assumption
    | with_reducible refine State.settleBatch_keep ?_
    | with_reducible refine State.updCmd_keep ?_
    | with_reducible refine State.thWrite_keep ?_
    | with_reducible refine State.thWrite_keep_ok (by assumption) ?_
    | with_reducible refine State.thWrite_keep_wait (by assumption) ?_
    | with_reducible refine State.thWrite_keep_lost (by assumption) ?_
    | with_reducible refine State.launch_keep ?_
    | with_reducible refine Keep.foldl (fun _ _ _ => ?_) ?_
    | with_reducible refine Keep.foldl_snd (fun _ _ _ => ?_) ?_
    | split
    | fail_if_no_progress ((with_reducible refine Keep.upd ?_ ?_); exact rfl)
    | dsimp only

theorem State.dispatchBatch_keep {s : State} {n : ℕ} {cs : List Cmd} (hk : Keep s0 s) :
    Keep s0 (State.dispatchBatch s n cs) := by
  unfold State.dispatchBatch
  repeat' first
    | with_reducible assumption
    | with_reducible refine State.setCmd_keep ?_
    | with_reducible refine State.startBatch_keep ?_
    | with_reducible refine State.countHeld_keep ?_
    | with_reducible refine Keep.foldl (fun _ _ _ => ?_) ?_
    | with_reducible refine Keep.foldl_snd (fun _ _ _ => ?_) ?_
    | split

theorem State.dmaSettle_keep {s : State} {n : ℕ} {c : Cmd} {j : DmaJob} (hk : Keep s0 s) :
    Keep s0 (State.dmaSettle s n c j) := by
  unfold State.dmaSettle
  repeat' first
    | with_reducible assumption
    | with_reducible refine State.progressFor_keep ?_
    | with_reducible refine State.setCmd_keep ?_
    | with_reducible refine State.settleCmd_keep ?_
    | with_reducible refine State.cmdFault_keep ?_
    | with_reducible refine Keep.foldl (fun _ _ _ => ?_) ?_
    | with_reducible refine Keep.foldl_snd (fun _ _ _ => ?_) ?_
    | split

theorem State.dmaAbort_keep {s : State} {n : ℕ} {c : Cmd} {j : DmaJob} (hk : Keep s0 s) :
    PKeep s0 (State.dmaAbort s n c j) := by
  unfold State.dmaAbort
  repeat' first
    | with_reducible assumption
    | with_reducible refine State.dmaSettle_keep ?_
    | refine PKeep.some ?_
    | exact PKeep.none
    | with_reducible refine Keep.foldl (fun _ _ _ => ?_) ?_
    | with_reducible refine Keep.foldl_snd (fun _ _ _ => ?_) ?_
    | split
theorem State.dmaAbort_keep_of {s : State} {n : ℕ} {c : Cmd} {j : DmaJob} {t1 : State} (e : State.dmaAbort s n c j = some t1) (hk : Keep s0 s) : Keep s0 t1 := State.dmaAbort_keep hk t1 e

theorem State.dmaUnitEnds_keep {s : State} {n : ℕ} {tag : ℕ} {u : ℕ} {f : DmaJob → DmaJob} (hk : Keep s0 s) :
    Keep s0 (State.dmaUnitEnds s n tag u f) := by
  unfold State.dmaUnitEnds
  repeat' first
    | with_reducible assumption
    | with_reducible refine State.dmaSettle_keep ?_
    | with_reducible refine Keep.foldl (fun _ _ _ => ?_) ?_
    | with_reducible refine Keep.foldl_snd (fun _ _ _ => ?_) ?_
    | split

theorem State.dmaFault_keep {s : State} {n : ℕ} {tag : ℕ} {u : ℕ} {f : AccFault} {write : Bool} (hk : Keep s0 s) :
    Keep s0 (State.dmaFault s n tag u f write) := by
  unfold State.dmaFault
  repeat' first
    | with_reducible assumption
    | with_reducible refine State.dmaUnitEnds_keep ?_
    | with_reducible refine State.cmdFaultRec_keep ?_

theorem State.joinFill_keep {s : State} {n : ℕ} {c : Cmd} {r : ℕ} {key : ℕ} {rows : ℕ} (hk : Keep s0 s) :
    Keep s0 (State.joinFill s n c r key rows) := by
  unfold State.joinFill
  repeat' first
    | with_reducible assumption
    | with_reducible refine State.dispatchBatch_keep ?_
    | with_reducible refine State.countHeld_keep ?_
    | with_reducible refine State.setCmd_keep ?_
    | with_reducible refine Keep.foldl (fun _ _ _ => ?_) ?_
    | with_reducible refine Keep.foldl_snd (fun _ _ _ => ?_) ?_
    | split
    | fail_if_no_progress ((with_reducible refine Keep.upd ?_ ?_); exact rfl)
    | dsimp only

theorem State.thRead_keep {s : State} {n : ℕ} {tag : ℕ} {key : ℕ} {rs : List (ℕ × ℕ)} {retry : Bool} (hk : Keep s0 s) :
    ThIn.Keeps s0 (State.thRead s n tag key rs retry) := by
  unfold State.thRead
  repeat' first
    | with_reducible assumption
    | with_reducible refine State.cmdFaultRec_keep ?_
    | with_reducible refine State.hostReadError_keep ?_
    | with_reducible refine State.engNow_keep ?_
    | with_reducible refine State.engNow_keep_wait (by assumption) ?_
    | with_reducible refine State.engNow_keep_refused (by assumption) ?_
    | with_reducible refine State.engNow_keep_lost (by assumption) ?_
    | with_reducible refine State.engNow_keep_done (by assumption) ?_
    | with_reducible refine State.engNow_keep_go (by assumption) ?_
    | with_reducible refine State.noteReads_keep ?_
    | exact trivial
    | fail_if_no_progress change Keep _ _
    | with_reducible refine Keep.foldl (fun _ _ _ => ?_) ?_
    | with_reducible refine Keep.foldl_snd (fun _ _ _ => ?_) ?_
    | split
    | dsimp only
theorem State.thRead_keep_ok {s : State} {n : ℕ} {tag : ℕ} {key : ℕ} {rs : List (ℕ × ℕ)} {retry : Bool} {x1 : List Nat} {t1 : State} (e : State.thRead s n tag key rs retry = .ok x1 t1) (hk : Keep s0 s) : Keep s0 t1 := by
  have k := State.thRead_keep (s0 := s0) (s := s) (n := n) (tag := tag) (key := key) (rs := rs) (retry := retry) hk
  rw [e] at k
  exact k
theorem State.thRead_keep_fault {s : State} {n : ℕ} {tag : ℕ} {key : ℕ} {rs : List (ℕ × ℕ)} {retry : Bool} {c1 : Nat} {t1 : State} (e : State.thRead s n tag key rs retry = .fault c1 t1) (hk : Keep s0 s) : Keep s0 t1 := by
  have k := State.thRead_keep (s0 := s0) (s := s) (n := n) (tag := tag) (key := key) (rs := rs) (retry := retry) hk
  rw [e] at k
  exact k
theorem State.thRead_keep_again {s : State} {n : ℕ} {tag : ℕ} {key : ℕ} {rs : List (ℕ × ℕ)} {retry : Bool}  {t1 : State} (e : State.thRead s n tag key rs retry = .again t1) (hk : Keep s0 s) : Keep s0 t1 := by
  have k := State.thRead_keep (s0 := s0) (s := s) (n := n) (tag := tag) (key := key) (rs := rs) (retry := retry) hk
  rw [e] at k
  exact k
theorem State.thRead_keep_wait {s : State} {n : ℕ} {tag : ℕ} {key : ℕ} {rs : List (ℕ × ℕ)} {retry : Bool}  {t1 : State} (e : State.thRead s n tag key rs retry = .wait t1) (hk : Keep s0 s) : Keep s0 t1 := by
  have k := State.thRead_keep (s0 := s0) (s := s) (n := n) (tag := tag) (key := key) (rs := rs) (retry := retry) hk
  rw [e] at k
  exact k
theorem State.thRead_keep_lost {s : State} {n : ℕ} {tag : ℕ} {key : ℕ} {rs : List (ℕ × ℕ)} {retry : Bool}  {t1 : State} (e : State.thRead s n tag key rs retry = .lost t1) (hk : Keep s0 s) : Keep s0 t1 := by
  have k := State.thRead_keep (s0 := s0) (s := s) (n := n) (tag := tag) (key := key) (rs := rs) (retry := retry) hk
  rw [e] at k
  exact k

theorem execCompute_keep {n : ℕ} {tag : ℕ} {s : State} (hk : Keep s0 s) :
    OKeep s0 (execCompute n tag s) := by
  unfold execCompute
  repeat' first
    | with_reducible assumption
    | with_reducible refine State.startBatch_keep ?_
    | with_reducible refine State.thRead_keep ?_
    | with_reducible refine State.thRead_keep_ok (by assumption) ?_
    | with_reducible refine State.thRead_keep_fault (by assumption) ?_
    | with_reducible refine State.thRead_keep_again (by assumption) ?_
    | with_reducible refine State.thRead_keep_wait (by assumption) ?_
    | with_reducible refine State.thRead_keep_lost (by assumption) ?_
    | with_reducible refine State.settleCmd_keep ?_
    | with_reducible refine State.launch_keep ?_
    | with_reducible refine State.joinFill_keep ?_
    | with_reducible refine OKeep.next ?_
    | with_reducible exact OKeep.fault
    | with_reducible exact OKeep.refused
    | with_reducible refine Keep.foldl (fun _ _ _ => ?_) ?_
    | with_reducible refine Keep.foldl_snd (fun _ _ _ => ?_) ?_
    | split
    | dsimp only

theorem execDma_keep {n : ℕ} {tag : ℕ} {s : State} (hk : Keep s0 s) :
    OKeep s0 (execDma n tag s) := by
  unfold execDma
  repeat' first
    | with_reducible assumption
    | with_reducible refine State.startJob_keep ?_
    | with_reducible refine State.settleCmd_keep ?_
    | with_reducible refine OKeep.next ?_
    | with_reducible exact OKeep.fault
    | with_reducible exact OKeep.refused
    | with_reducible refine Keep.foldl (fun _ _ _ => ?_) ?_
    | with_reducible refine Keep.foldl_snd (fun _ _ _ => ?_) ?_
    | split
    | dsimp only

theorem execDmaUnitComplete_keep {n : ℕ} {tag : ℕ} {u : ℕ} {s : State} (hk : Keep s0 s) :
    OKeep s0 (execDmaUnitComplete n tag u s) := by
  unfold execDmaUnitComplete
  repeat' first
    | with_reducible assumption
    | with_reducible refine State.dmaFault_keep ?_
    | with_reducible refine State.hostReadError_keep ?_
    | with_reducible refine State.engNow_keep ?_
    | with_reducible refine State.engNow_keep_wait (by assumption) ?_
    | with_reducible refine State.engNow_keep_refused (by assumption) ?_
    | with_reducible refine State.engNow_keep_lost (by assumption) ?_
    | with_reducible refine State.engNow_keep_done (by assumption) ?_
    | with_reducible refine State.engNow_keep_go (by assumption) ?_
    | with_reducible refine State.dmaUnitEnds_keep ?_
    | with_reducible refine State.noteReads_keep ?_
    | with_reducible refine State.engPut_keep ?_
    | with_reducible refine State.engPut_keep_lost (by assumption) ?_
    | with_reducible refine State.engPut_keep_ok (by assumption) ?_
    | with_reducible refine State.updCmd_keep ?_
    | with_reducible refine OKeep.next ?_
    | with_reducible exact OKeep.fault
    | with_reducible exact OKeep.refused
    | with_reducible refine Keep.foldl (fun _ _ _ => ?_) ?_
    | with_reducible refine Keep.foldl_snd (fun _ _ _ => ?_) ?_
    | split
    | dsimp only

theorem execFillTimeout_keep {n : ℕ} {key : ℕ} {s : State} (hk : Keep s0 s) :
    OKeep s0 (execFillTimeout n key s) := by
  unfold execFillTimeout
  repeat' first
    | with_reducible assumption
    | with_reducible refine State.dispatchBatch_keep ?_
    | with_reducible refine OKeep.next ?_
    | with_reducible exact OKeep.fault
    | with_reducible exact OKeep.refused
    | with_reducible refine Keep.foldl (fun _ _ _ => ?_) ?_
    | with_reducible refine Keep.foldl_snd (fun _ _ _ => ?_) ?_
    | split
    | dsimp only

theorem State.setObj_keep {s : State} {i : ℕ} {e : SyncEntry} (hk : Keep s0 s) :
    Keep s0 (State.setObj s i e) := by
  unfold State.setObj
  repeat' first
    | with_reducible assumption
    | with_reducible refine Keep.foldl (fun _ _ _ => ?_) ?_
    | with_reducible refine Keep.foldl_snd (fun _ _ _ => ?_) ?_
    | split
    | fail_if_no_progress ((with_reducible refine Keep.upd ?_ ?_); exact rfl)

theorem State.signalWord_keep {s : State} {i : ℕ} {old : SyncEntry} {new : SyncEntry} (hk : Keep s0 s) :
    Keep s0 (State.signalWord s i old new) := by
  unfold State.signalWord
  repeat' first
    | with_reducible assumption
    | with_reducible refine State.msixIf_keep ?_
    | with_reducible refine State.hostWrite_keep ?_
    | with_reducible refine Keep.foldl (fun _ _ _ => ?_) ?_
    | with_reducible refine Keep.foldl_snd (fun _ _ _ => ?_) ?_
    | split
    | fail_if_no_progress ((with_reducible refine Keep.upd ?_ ?_); exact rfl)
    | dsimp only

theorem State.setWaiters_keep {s : State} {i : ℕ} (hk : Keep s0 s) :
    Keep s0 (State.setWaiters s i) := by
  unfold State.setWaiters
  repeat' first
    | with_reducible assumption
    | with_reducible refine State.setObj_keep ?_
    | with_reducible refine Keep.foldl (fun _ _ _ => ?_) ?_
    | with_reducible refine Keep.foldl_snd (fun _ _ _ => ?_) ?_
    | split
    | fail_if_no_progress ((with_reducible refine Keep.upd ?_ ?_); exact rfl)
    | dsimp only

theorem State.changeObj_keep {s : State} {i : ℕ} {sig : SyncEntry} {new : SyncEntry} (hk : Keep s0 s) :
    Keep s0 (State.changeObj s i sig new) := by
  unfold State.changeObj
  repeat' first
    | with_reducible assumption
    | with_reducible refine State.setObj_keep ?_
    | with_reducible refine State.signalWord_keep ?_
    | with_reducible refine State.setWaiters_keep ?_
    | with_reducible refine Keep.foldl (fun _ _ _ => ?_) ?_
    | with_reducible refine Keep.foldl_snd (fun _ _ _ => ?_) ?_
    | split
    | fail_if_no_progress ((with_reducible refine Keep.upd ?_ ?_); exact rfl)
    | dsimp only

theorem State.thawCtx_keep {s : State} {n : ℕ} (hk : Keep s0 s) :
    Keep s0 (State.thawCtx s n) := by
  unfold State.thawCtx
  repeat' first
    | with_reducible assumption
    | with_reducible refine State.changeObj_keep ?_
    | with_reducible refine Keep.foldl (fun _ _ _ => ?_) ?_
    | with_reducible refine Keep.foldl_snd (fun _ _ _ => ?_) ?_
    | split
    | fail_if_no_progress ((with_reducible refine Keep.upd ?_ ?_); exact rfl)
    | dsimp only

theorem State.dropSettled_keep {s : State} {n : ℕ} (hk : Keep s0 s) :
    Keep s0 (State.dropSettled s n) := by
  unfold State.dropSettled
  repeat' first
    | with_reducible assumption
    | with_reducible refine State.setCtx_keep ?_

theorem State.ctxProgress_keep {s : State} {n : ℕ} (hk : Keep s0 s) :
    Keep s0 (State.ctxProgress s n) := by
  unfold State.ctxProgress
  repeat' first
    | with_reducible assumption
    | with_reducible refine State.setFld_keep ?_
    | with_reducible refine State.thawCtx_keep ?_
    | with_reducible refine State.startNext_keep ?_
    | with_reducible refine State.dropSettled_keep ?_
    | with_reducible refine State.setFlag_keep ?_
    | with_reducible refine Keep.foldl (fun _ _ _ => ?_) ?_
    | with_reducible refine Keep.foldl_snd (fun _ _ _ => ?_) ?_
    | split
    | fail_if_no_progress ((with_reducible refine Keep.upd ?_ ?_); exact rfl)
    | dsimp only

theorem State.dbgDone_keep {s : State} (hk : Keep s0 s) :
    Keep s0 (State.dbgDone s) := by
  unfold State.dbgDone
  repeat' first
    | with_reducible assumption
    | with_reducible refine State.showHalted_keep ?_
    | with_reducible refine State.setFlag_keep ?_
    | with_reducible refine Keep.foldl (fun _ _ _ => ?_) ?_
    | with_reducible refine Keep.foldl_snd (fun _ _ _ => ?_) ?_
    | split
    | fail_if_no_progress ((with_reducible refine Keep.upd ?_ ?_); exact rfl)

theorem State.dbgProgress_keep {s : State} (hk : Keep s0 s) :
    Keep s0 (State.dbgProgress s) := by
  unfold State.dbgProgress
  repeat' first
    | with_reducible assumption
    | with_reducible refine State.dbgDone_keep ?_
    | with_reducible refine State.setCore_keep ?_
    | with_reducible refine Keep.foldl (fun _ _ _ => ?_) ?_
    | with_reducible refine Keep.foldl_snd (fun _ _ _ => ?_) ?_
    | split
    | fail_if_no_progress ((with_reducible refine Keep.upd ?_ ?_); exact rfl)
    | dsimp only

theorem State.csWrite_keep {s : State} {c : ℕ} {x2 : ℕ} {x3 : List Byte} (hk : Keep s0 s) :
    Keep s0 (State.csWrite s c x2 x3) := by
  unfold State.csWrite
  repeat' first
    | with_reducible assumption
    | with_reducible refine State.devWrite_keep ?_
    | with_reducible refine Keep.foldl (fun _ _ _ => ?_) ?_
    | with_reducible refine Keep.foldl_snd (fun _ _ _ => ?_) ?_
    | split

theorem State.finishStop_keep {s : State} {c : ℕ} (hk : Keep s0 s) :
    Keep s0 (State.finishStop s c) := by
  unfold State.finishStop
  repeat' first
    | with_reducible assumption
    | with_reducible refine State.endWork_keep ?_
    | with_reducible refine State.csWrite_keep ?_
    | with_reducible refine State.setCore_keep ?_
    | with_reducible refine Keep.foldl (fun _ _ _ => ?_) ?_
    | with_reducible refine Keep.foldl_snd (fun _ _ _ => ?_) ?_
    | split
    | fail_if_no_progress ((with_reducible refine Keep.upd ?_ ?_); exact rfl)
    | dsimp only

theorem State.killBreaks_keep {s : State} {c : ℕ} (hk : Keep s0 s) :
    Keep s0 (State.killBreaks s c) := by
  unfold State.killBreaks
  repeat' first
    | with_reducible assumption
    | with_reducible refine State.runBreaks_keep ?_ ?_

theorem State.progress_keep {s : State} (hk : Keep s0 s) :
    Keep s0 (State.progress s) := by
  unfold State.progress
  repeat' first
    | with_reducible assumption
    | with_reducible refine State.dbgProgress_keep ?_
    | with_reducible refine State.ctxProgress_keep ?_
    | with_reducible refine Keep.foldl (fun _ _ _ => ?_) ?_

theorem State.leaveWait_keep {s : State} {c : ℕ} (hk : Keep s0 s) :
    Keep s0 (State.leaveWait s c) := by
  unfold State.leaveWait
  repeat' first
    | with_reducible assumption
    | with_reducible refine State.setObj_keep ?_
    | with_reducible refine Keep.foldl (fun _ _ _ => ?_) ?_
    | with_reducible refine Keep.foldl_snd (fun _ _ _ => ?_) ?_
    | split
    | fail_if_no_progress ((with_reducible refine Keep.upd ?_ ?_); exact rfl)
    | dsimp only

theorem State.stopCore_keep {s : State} {c : ℕ} {by_ : ℕ} (hk : Keep s0 s) :
    Keep s0 (State.stopCore s c by_) := by
  unfold State.stopCore
  repeat' first
    | with_reducible assumption
    | with_reducible refine State.leaveWait_keep ?_
    | with_reducible refine State.finishStop_keep ?_
    | with_reducible refine State.setCore_keep ?_

theorem State.takeStop_keep {s : State} {c : ℕ} (hk : Keep s0 s) :
    Keep s0 (State.takeStop s c) := by
  unfold State.takeStop
  repeat' first
    | with_reducible assumption
    | with_reducible refine State.stopCore_keep ?_
    | with_reducible refine State.killBreaks_keep ?_
    | with_reducible refine Keep.foldl (fun _ _ _ => ?_) ?_
    | with_reducible refine Keep.foldl_snd (fun _ _ _ => ?_) ?_
    | split
    | fail_if_no_progress ((with_reducible refine Keep.upd ?_ ?_); exact rfl)
    | dsimp only

theorem execBlockReset_keep {b : ℕ} {s : State} (hk : Keep s0 s) :
    OKeep s0 (execBlockReset b s) := by
  unfold execBlockReset
  repeat' first
    | with_reducible assumption
    | with_reducible refine State.setFld_keep ?_
    | with_reducible refine State.setCore_keep ?_
    | with_reducible refine State.progress_keep ?_
    | with_reducible refine State.setFlag_keep ?_
    | with_reducible refine OKeep.next ?_
    | with_reducible exact OKeep.fault
    | with_reducible exact OKeep.refused
    | with_reducible refine Keep.foldl (fun _ _ _ => ?_) ?_
    | with_reducible refine Keep.foldl_snd (fun _ _ _ => ?_) ?_
    | split
    | fail_if_no_progress ((with_reducible refine Keep.upd ?_ ?_); exact rfl)

theorem execCoreResume_keep {c : ℕ} {s : State} (hk : Keep s0 s) :
    OKeep s0 (execCoreResume c s) := by
  unfold execCoreResume
  repeat' first
    | with_reducible assumption
    | with_reducible refine State.progress_keep ?_
    | with_reducible refine State.setCore_keep ?_
    | with_reducible refine OKeep.next ?_
    | with_reducible exact OKeep.fault
    | with_reducible exact OKeep.refused
    | with_reducible refine Keep.foldl (fun _ _ _ => ?_) ?_
    | with_reducible refine Keep.foldl_snd (fun _ _ _ => ?_) ?_
    | split
    | dsimp only

theorem execCoreStop_keep {c : ℕ} {s : State} (hk : Keep s0 s) :
    OKeep s0 (execCoreStop c s) := by
  unfold execCoreStop
  repeat' first
    | with_reducible assumption
    | with_reducible refine State.progress_keep ?_
    | with_reducible refine State.finishStop_keep ?_
    | with_reducible refine State.takeStop_keep ?_
    | with_reducible refine OKeep.next ?_
    | with_reducible exact OKeep.fault
    | with_reducible exact OKeep.refused
    | with_reducible refine Keep.foldl (fun _ _ _ => ?_) ?_
    | with_reducible refine Keep.foldl_snd (fun _ _ _ => ?_) ?_
    | split
    | dsimp only

theorem execCoreWatchdog_keep {c : ℕ} {s : State} (hk : Keep s0 s) :
    OKeep s0 (execCoreWatchdog c s) := by
  unfold execCoreWatchdog
  repeat' first
    | with_reducible assumption
    | with_reducible refine State.progress_keep ?_
    | with_reducible refine State.instrFault_keep ?_
    | with_reducible refine OKeep.next ?_
    | with_reducible exact OKeep.fault
    | with_reducible exact OKeep.refused
    | with_reducible refine Keep.foldl (fun _ _ _ => ?_) ?_
    | with_reducible refine Keep.foldl_snd (fun _ _ _ => ?_) ?_
    | split
    | dsimp only

theorem execDbgHalt_keep {c : ℕ} {s : State} (hk : Keep s0 s) :
    OKeep s0 (execDbgHalt c s) := by
  unfold execDbgHalt
  repeat' first
    | with_reducible assumption
    | with_reducible refine State.setFld_keep ?_
    | with_reducible refine State.dbgDone_keep ?_
    | with_reducible refine State.setCore_keep ?_
    | with_reducible refine State.progress_keep ?_
    | with_reducible refine State.setFlag_keep ?_
    | with_reducible refine OKeep.next ?_
    | with_reducible exact OKeep.fault
    | with_reducible exact OKeep.refused
    | with_reducible refine Keep.foldl (fun _ _ _ => ?_) ?_
    | with_reducible refine Keep.foldl_snd (fun _ _ _ => ?_) ?_
    | split
    | fail_if_no_progress ((with_reducible refine Keep.upd ?_ ?_); exact rfl)

theorem execDbgResume_keep {c : ℕ} {s : State} (hk : Keep s0 s) :
    OKeep s0 (execDbgResume c s) := by
  unfold execDbgResume
  repeat' first
    | with_reducible assumption
    | with_reducible refine State.setFld_keep ?_
    | with_reducible refine State.dbgDone_keep ?_
    | with_reducible refine State.setCore_keep ?_
    | with_reducible refine State.progress_keep ?_
    | with_reducible refine State.setFlag_keep ?_
    | with_reducible refine OKeep.next ?_
    | with_reducible exact OKeep.fault
    | with_reducible exact OKeep.refused
    | with_reducible refine Keep.foldl (fun _ _ _ => ?_) ?_
    | with_reducible refine Keep.foldl_snd (fun _ _ _ => ?_) ?_
    | split
    | fail_if_no_progress ((with_reducible refine Keep.upd ?_ ?_); exact rfl)

theorem State.addRemote_keep {s : State} {c : ℕ} {r : RemoteWait} (hk : Keep s0 s) :
    Keep s0 (State.addRemote s c r) := by
  unfold State.addRemote
  repeat' first
    | with_reducible assumption
    | with_reducible refine State.setCore_keep ?_

theorem State.advance_keep {s : State} {c : ℕ} (hk : Keep s0 s) :
    Keep s0 (State.advance s c) := by
  unfold State.advance
  repeat' first
    | with_reducible assumption
    | with_reducible refine State.setCore_keep ?_

theorem State.countLocal_keep {s : State} {c : ℕ} {off : ℕ} {n : ℕ} (hk : Keep s0 s) :
    Keep s0 (State.countLocal s c off n) := by
  unfold State.countLocal
  repeat' first
    | with_reducible assumption
    | with_reducible refine State.countPoisoned_keep ?_
    | with_reducible refine Keep.foldl (fun _ _ _ => ?_) ?_
    | with_reducible refine Keep.foldl_snd (fun _ _ _ => ?_) ?_
    | split
    | fail_if_no_progress ((with_reducible refine Keep.upd ?_ ?_); exact rfl)
    | dsimp only

theorem State.carry_keep {s : State} {c : ℕ} {pa : ℕ} {n : ℕ} (hk : Keep s0 s) :
    Keep s0 (State.carry s c pa n) := by
  unfold State.carry
  repeat' first
    | with_reducible assumption
    | with_reducible refine Keep.foldl (fun _ _ _ => ?_) ?_
    | with_reducible refine Keep.foldl_snd (fun _ _ _ => ?_) ?_
    | split
    | fail_if_no_progress ((with_reducible refine Keep.upd ?_ ?_); exact rfl)

theorem State.fillLine_keep {s : State} {c : ℕ} {owner : ℕ} {pa : ℕ} {stp : Bool} (hk : Keep s0 s) :
    Keep s0 (State.fillLine s c owner pa stp).2 := by
  unfold State.fillLine
  repeat' first
    | with_reducible assumption
    | with_reducible refine State.touchRange_keep ?_
    | with_reducible refine State.countFound_keep ?_
    | with_reducible refine State.carry_keep ?_
    | with_reducible refine Keep.foldl (fun _ _ _ => ?_) ?_
    | with_reducible refine Keep.foldl_snd (fun _ _ _ => ?_) ?_
    | dsimp only
    | split
theorem State.fillLine_keep_of {s : State} {c : ℕ} {owner : ℕ} {pa : ℕ} {stp : Bool} {v1 : Line} {t1 : State} (e : State.fillLine s c owner pa stp = (v1, t1)) (hk : Keep s0 s) : Keep s0 t1 := by
  have k := State.fillLine_keep (s0 := s0) (s := s) (c := c) (owner := owner) (pa := pa) (stp := stp) hk
  rw [e] at k
  exact k

theorem State.lineHit_keep {s : State} {c : ℕ} {l : Line} (hk : Keep s0 s) :
    Keep s0 (State.lineHit s c l).2 := by
  unfold State.lineHit
  repeat' first
    | with_reducible assumption
    | with_reducible refine State.setCore_keep ?_
    | with_reducible refine Keep.foldl (fun _ _ _ => ?_) ?_
    | with_reducible refine Keep.foldl_snd (fun _ _ _ => ?_) ?_
    | dsimp only
    | split
    | fail_if_no_progress ((with_reducible refine Keep.upd ?_ ?_); exact rfl)
theorem State.lineHit_keep_of {s : State} {c : ℕ} {l : Line} {v1 : Bool} {t1 : State} (e : State.lineHit s c l = (v1, t1)) (hk : Keep s0 s) : Keep s0 t1 := by
  have k := State.lineHit_keep (s0 := s0) (s := s) (c := c) (l := l) hk
  rw [e] at k
  exact k

theorem State.demandLine_keep {s : State} {c : ℕ} {pa : ℕ} {stp : Bool} (hk : Keep s0 s) :
    Keep s0 (State.demandLine s c pa stp).2 := by
  unfold State.demandLine
  repeat' first
    | with_reducible assumption
    | with_reducible refine State.fillLine_keep ?_
    | with_reducible refine State.fillLine_keep_of (by assumption) ?_
    | with_reducible refine State.setCore_keep ?_
    | with_reducible refine State.lineHit_keep ?_
    | with_reducible refine State.lineHit_keep_of (by assumption) ?_
    | with_reducible refine Keep.foldl (fun _ _ _ => ?_) ?_
    | with_reducible refine Keep.foldl_snd (fun _ _ _ => ?_) ?_
    | dsimp only
    | split
theorem State.demandLine_keep_of {s : State} {c : ℕ} {pa : ℕ} {stp : Bool} {v1 : Line} {t1 : State} (e : State.demandLine s c pa stp = (v1, t1)) (hk : Keep s0 s) : Keep s0 t1 := by
  have k := State.demandLine_keep (s0 := s0) (s := s) (c := c) (pa := pa) (stp := stp) hk
  rw [e] at k
  exact k

theorem State.demandWrite_keep {s : State} {a : ℕ} {bs : List Byte} {stp : Bool} (hk : Keep s0 s) :
    Keep s0 (State.demandWrite s a bs stp) := by
  unfold State.demandWrite
  repeat' first
    | with_reducible assumption
    | with_reducible refine State.devWrite_keep ?_
    | with_reducible refine State.touchRange_keep ?_
    | with_reducible refine State.countPartial_keep ?_

theorem State.faultHere_keep {s : State} {c : ℕ} {cause : ℕ} {info : ℕ} {w : ℕ} (hk : Keep s0 s) :
    Keep s0 (State.faultHere s c cause info w) := by
  unfold State.faultHere
  repeat' first
    | with_reducible assumption
    | with_reducible refine State.instrFault_keep ?_

theorem State.hitHeld_keep {s : State} {c : ℕ} {x2 : List ℕ} (hk : Keep s0 s) :
    Keep s0 (State.hitHeld s c x2) := by
  induction x2 generalizing s with
  | nil =>
    rw [State.hitHeld]
    repeat' first
      | with_reducible assumption
  | cons _ _ ih =>
    rw [State.hitHeld]
    repeat' first
      | with_reducible assumption
      | with_reducible refine ih ?_
      | with_reducible refine State.lineHit_keep ?_
      | with_reducible refine State.lineHit_keep_of (by assumption) ?_
      | with_reducible refine State.setCore_keep ?_
      | with_reducible refine Keep.foldl (fun _ _ _ => ?_) ?_
      | with_reducible refine Keep.foldl_snd (fun _ _ _ => ?_) ?_
      | split

theorem State.hostReadFault_keep {s : State} {c : ℕ} {f : AccFault} {bus : ℕ} (hk : Keep s0 s) :
    Keep s0 (State.hostReadFault s c f bus) := by
  unfold State.hostReadFault
  repeat' first
    | with_reducible assumption
    | with_reducible refine State.accFault_keep ?_
    | with_reducible refine State.hostReadError_keep ?_

theorem State.illegal_keep {s : State} {c : ℕ} {w : ℕ} (hk : Keep s0 s) :
    Keep s0 (State.illegal s c w) := by
  unfold State.illegal
  repeat' first
    | with_reducible assumption
    | with_reducible refine State.faultHere_keep ?_

theorem State.localPoisonAt_keep {s : State} {c : ℕ} {off : ℕ} {n : ℕ} {pos : ℕ} (hk : Keep s0 s) :
    Keep s0 (State.localPoisonAt s c off n pos) := by
  unfold State.localPoisonAt
  repeat' first
    | with_reducible assumption
    | with_reducible refine State.accFault_keep ?_
    | with_reducible refine State.countLocal_keep ?_

theorem State.localPoison_keep {s : State} {c : ℕ} {off : ℕ} {n : ℕ} (hk : Keep s0 s) :
    Keep s0 (State.localPoison s c off n) := by
  unfold State.localPoison
  repeat' first
    | with_reducible assumption
    | with_reducible refine State.localPoisonAt_keep ?_

theorem State.misaligned_keep {s : State} {c : ℕ} {addr : ℕ} {w : ℕ} (hk : Keep s0 s) :
    Keep s0 (State.misaligned s c addr w) := by
  unfold State.misaligned
  repeat' first
    | with_reducible assumption
    | with_reducible refine State.faultHere_keep ?_

theorem State.readLines_keep {s : State} {c : ℕ} {stp : ℕ → Bool} {x3 : ℕ} {x4 : List (ℕ × ℕ)} (hk : Keep s0 s) :
    Keep s0 (State.readLines s c stp x3 x4).2.2 := by
  induction x4 generalizing x3 s with
  | nil =>
    rw [State.readLines]
    repeat' first
      | with_reducible assumption
  | cons _ _ ih =>
    rw [State.readLines]
    repeat' first
      | with_reducible assumption
      | with_reducible refine ih ?_
      | with_reducible refine State.demandLine_keep ?_
theorem State.readLines_keep_of {s : State} {c : ℕ} {stp : ℕ → Bool} {x3 : ℕ} {x4 : List (ℕ × ℕ)} {v1 : List Byte} {v2 : List Nat} {t1 : State} (e : State.readLines s c stp x3 x4 = (v1, v2, t1)) (hk : Keep s0 s) : Keep s0 t1 := by
  have k := State.readLines_keep (s0 := s0) (s := s) (c := c) (stp := stp) (x3 := x3) (x4 := x4) hk
  rw [e] at k
  exact k

theorem State.sendReads_keep {s : State} {c : ℕ} {x2 : List ℕ} (hk : Keep s0 s) :
    EKeepL s0 (State.sendReads s c x2) := by
  induction x2 generalizing s with
  | nil =>
    rw [State.sendReads]
    repeat' first
      | with_reducible assumption
      | with_reducible refine ih ?_
      | with_reducible refine EKeepL.ok ?_
  | cons _ _ ih =>
    rw [State.sendReads]
    repeat' first
      | with_reducible assumption
      | with_reducible refine EKeepL.elim (ih ?_) (by assumption)
      | with_reducible refine ih ?_
      | with_reducible refine EKeepL.ok ?_
      | with_reducible exact EKeepL.error
      | with_reducible refine State.openTxn_keep ?_
      | with_reducible refine State.openTxn_keep_of (by assumption) ?_
      | with_reducible refine State.sendFrame_keep_of (by assumption) ?_
      | exact trivial
      | fail_if_no_progress change Keep _ _
      | with_reducible refine Keep.foldl (fun _ _ _ => ?_) ?_
      | with_reducible refine Keep.foldl_snd (fun _ _ _ => ?_) ?_
      | split
theorem State.sendReads_keep_of {s : State} {c : ℕ} {x2 : List ℕ} {l1 : List Nat} {t1 : State} (e : State.sendReads s c x2 = .ok (l1, t1)) (hk : Keep s0 s) : Keep s0 t1 := State.sendReads_keep hk l1 t1 e

theorem State.coreTimeout_keep {s : State} {c : ℕ} {node : ℕ} {xid : ℕ} (hk : Keep s0 s) :
    Keep s0 (State.coreTimeout s c node xid) := by
  unfold State.coreTimeout
  repeat' first
    | with_reducible assumption
    | with_reducible refine State.e2eRecord_keep ?_
    | with_reducible refine State.setCore_keep ?_
    | with_reducible refine State.runBreaks_keep ?_ ?_
    | with_reducible refine State.endWork_keep ?_
    | with_reducible refine Keep.foldl (fun _ _ _ => ?_) ?_
    | with_reducible refine Keep.foldl_snd (fun _ _ _ => ?_) ?_
    | split
    | fail_if_no_progress ((with_reducible refine Keep.upd ?_ ?_); exact rfl)
    | dsimp only

theorem State.remoteRead_keep {s : State} {c : ℕ} {va : ℕ} {kind : RemoteKind} {parts : List (ℕ × ℕ)} {asked : List ℕ} {buf : Memory} {bad : Store Bool} (hk : Keep s0 s) :
    Keep s0 (State.remoteRead s c va kind parts asked buf bad) := by
  unfold State.remoteRead
  repeat' first
    | with_reducible assumption
    | with_reducible refine State.sendReads_keep ?_
    | with_reducible refine State.sendReads_keep_of (by assumption) ?_
    | with_reducible refine State.coreTimeout_keep ?_
    | with_reducible refine State.addRemote_keep ?_
    | with_reducible refine Keep.foldl (fun _ _ _ => ?_) ?_
    | with_reducible refine Keep.foldl_snd (fun _ _ _ => ?_) ?_
    | split

theorem State.sendWrites_keep {s : State} {c : ℕ} {bytes : Memory} {x3 : List (ℕ × ℕ)} (hk : Keep s0 s) :
    EKeepL s0 (State.sendWrites s c bytes x3) := by
  induction x3 generalizing s with
  | nil =>
    rw [State.sendWrites]
    repeat' first
      | with_reducible assumption
      | with_reducible refine ih ?_
      | with_reducible refine EKeepL.ok ?_
  | cons _ _ ih =>
    rw [State.sendWrites]
    repeat' first
      | with_reducible assumption
      | with_reducible refine EKeepL.elim (ih ?_) (by assumption)
      | with_reducible refine ih ?_
      | with_reducible refine EKeepL.ok ?_
      | with_reducible exact EKeepL.error
      | with_reducible refine State.openTxn_keep ?_
      | with_reducible refine State.openTxn_keep_of (by assumption) ?_
      | with_reducible refine State.sendFrame_keep_of (by assumption) ?_
      | exact trivial
      | fail_if_no_progress change Keep _ _
      | with_reducible refine Keep.foldl (fun _ _ _ => ?_) ?_
      | with_reducible refine Keep.foldl_snd (fun _ _ _ => ?_) ?_
      | split
theorem State.sendWrites_keep_of {s : State} {c : ℕ} {bytes : Memory} {x3 : List (ℕ × ℕ)} {l1 : List Nat} {t1 : State} (e : State.sendWrites s c bytes x3 = .ok (l1, t1)) (hk : Keep s0 s) : Keep s0 t1 := State.sendWrites_keep hk l1 t1 e

theorem State.remoteStore_keep {s : State} {c : ℕ} {va : ℕ} {pa : ℕ} {bs : List Byte} (hk : Keep s0 s) :
    Keep s0 (State.remoteStore s c va pa bs) := by
  unfold State.remoteStore
  repeat' first
    | with_reducible assumption
    | with_reducible refine State.sendWrites_keep ?_
    | with_reducible refine State.sendWrites_keep_of (by assumption) ?_
    | with_reducible refine State.coreTimeout_keep ?_
    | with_reducible refine State.addRemote_keep ?_
    | with_reducible refine State.remoteRead_keep ?_
    | with_reducible refine Keep.foldl (fun _ _ _ => ?_) ?_
    | with_reducible refine Keep.foldl_snd (fun _ _ _ => ?_) ?_
    | split

theorem State.retire_keep {s : State} {c : ℕ} {f : Core → Core} (hk : Keep s0 s) :
    Keep s0 (State.retire s c f) := by
  unfold State.retire
  repeat' first
    | with_reducible assumption
    | with_reducible refine State.setCore_keep ?_

theorem State.shapeFault_keep {s : State} {c : ℕ} {w : ℕ} (hk : Keep s0 s) :
    Keep s0 (State.shapeFault s c w) := by
  unfold State.shapeFault
  repeat' first
    | with_reducible assumption
    | with_reducible refine State.faultHere_keep ?_

theorem State.storeAt_keep {s : State} {c : ℕ} {va : ℕ} {pa : ℕ} {bs : List Byte} (hk : Keep s0 s) :
    Keep s0 (State.storeAt s c va pa bs) := by
  unfold State.storeAt
  repeat' first
    | with_reducible assumption
    | with_reducible refine State.carry_keep ?_
    | with_reducible refine State.setCore_keep ?_
    | with_reducible refine State.demandWrite_keep ?_
    | with_reducible refine State.hostWrite_keep ?_
    | with_reducible refine State.remoteStore_keep ?_
    | with_reducible refine Keep.foldl (fun _ _ _ => ?_) ?_
    | with_reducible refine Keep.foldl_snd (fun _ _ _ => ?_) ?_
    | split

theorem State.storeAll_keep {s : State} {c : ℕ} {x2 : List (ℕ × ℕ × List Byte)} (hk : Keep s0 s) :
    Keep s0 (State.storeAll s c x2) := by
  induction x2 generalizing s with
  | nil =>
    rw [State.storeAll]
    repeat' first
      | with_reducible assumption
  | cons _ _ ih =>
    rw [State.storeAll]
    repeat' first
      | with_reducible assumption
      | with_reducible refine ih ?_
      | with_reducible refine State.storeAt_keep ?_

theorem State.tagIssue_keep {s : State} {t : State} {c : ℕ} {op : ℕ} {w : ℕ} (hk : Keep s0 s) (h2 : Keep s0 t) :
    Keep s0 (State.tagIssue s t c op w) := by
  unfold State.tagIssue
  repeat' first
    | with_reducible assumption
    | with_reducible refine State.setCore_keep ?_
    | with_reducible refine Keep.foldl (fun _ _ _ => ?_) ?_
    | with_reducible refine Keep.foldl_snd (fun _ _ _ => ?_) ?_
    | split
    | fail_if_no_progress ((with_reducible refine Keep.upd ?_ ?_); exact rfl)
    | dsimp only

theorem State.keepXlat_keep {s : State} {n : ℕ} {va : ℕ} (hk : Keep s0 s) :
    Keep s0 (State.keepXlat s n va) := by
  unfold State.keepXlat
  repeat' first
    | with_reducible assumption
    | with_reducible refine State.setCtx_keep ?_
    | with_reducible refine Keep.foldl (fun _ _ _ => ?_) ?_
    | with_reducible refine Keep.foldl_snd (fun _ _ _ => ?_) ?_
    | split
    | fail_if_no_progress ((with_reducible refine Keep.upd ?_ ?_); exact rfl)
    | dsimp only

theorem State.keepPieces_keep {s : State} {n : ℕ} {x2 : List (ℕ × ℕ)} (hk : Keep s0 s) :
    Keep s0 (State.keepPieces s n x2) := by
  induction x2 generalizing s with
  | nil =>
    rw [State.keepPieces]
    repeat' first
      | with_reducible assumption
  | cons _ _ ih =>
    rw [State.keepPieces]
    repeat' first
      | with_reducible assumption
      | with_reducible refine ih ?_
      | with_reducible refine State.keepXlat_keep ?_

theorem State.vaLoad_keep {s : State} {c va n : Nat} {kind : RemoteKind} {used : Nat → Bool} {done : List Byte → State → State}
    (hd : ∀ bs t, Keep s0 t → Keep s0 (done bs t)) (h : Keep s0 s) : Keep s0 (s.vaLoad c va n kind used done) := by
  unfold State.vaLoad
  repeat' first
    | with_reducible assumption
    | with_reducible refine hd _ _ ?_
    | with_reducible refine State.accFault_keep ?_
    | with_reducible refine State.hostReadFault_keep ?_
    | with_reducible refine State.keepPieces_keep ?_
    | with_reducible refine State.hitHeld_keep ?_
    | with_reducible refine State.readLines_keep ?_
    | with_reducible refine State.readLines_keep_of (by assumption) ?_
    | with_reducible refine State.remoteRead_keep ?_
    | with_reducible refine State.advance_keep ?_
    | with_reducible refine Keep.foldl (fun _ _ _ => ?_) ?_
    | with_reducible refine Keep.foldl_snd (fun _ _ _ => ?_) ?_
    | split
    | fail_if_no_progress ((with_reducible refine Keep.upd ?_ ?_); exact rfl)
    | dsimp only

theorem State.vaStore_keep {s : State} {c : ℕ} {va : ℕ} {n : ℕ} {runs : List (ℕ × List Byte)} (hk : Keep s0 s) :
    Keep s0 (State.vaStore s c va n runs) := by
  unfold State.vaStore
  repeat' first
    | with_reducible assumption
    | with_reducible refine State.accFault_keep ?_
    | with_reducible refine State.keepPieces_keep ?_
    | with_reducible refine State.coreTimeout_keep ?_
    | with_reducible refine State.storeAll_keep ?_
    | with_reducible refine State.advance_keep ?_
    | with_reducible refine Keep.foldl (fun _ _ _ => ?_) ?_
    | with_reducible refine Keep.foldl_snd (fun _ _ _ => ?_) ?_
    | split
    | fail_if_no_progress ((with_reducible refine Keep.upd ?_ ?_); exact rfl)
    | dsimp only

theorem issue_keep {c : Nat} {b : Body} {op reserved : Nat} {s : State} {f : Nat → State} (hf : ∀ w, Keep s0 (f w)) (h : Keep s0 s) :
    OKeep s0 (issue c b op reserved s f) := by
  unfold issue
  dsimp only
  split
  · exact OKeep.next h
  split
  · exact OKeep.next (State.localPoison_keep h)
  split
  · exact OKeep.next h
  split
  · exact OKeep.fault
  · exact OKeep.next (State.tagIssue_keep h (hf _))

theorem issueO_keep {c : Nat} {b : Body} {op reserved : Nat} {s : State} {f : Nat → Host.Outcome State Fault Refusal}
    (hf : ∀ w, OKeep s0 (f w)) (h : Keep s0 s) : OKeep s0 (issueO c b op reserved s f) := by
  unfold issueO
  dsimp only
  split
  · exact OKeep.next h
  split
  · exact OKeep.next (State.localPoison_keep h)
  split
  · exact OKeep.next h
  split
  · exact OKeep.fault
  · have k := hf (wordOf op b)
    split
    · next t e => exact OKeep.next (State.tagIssue_keep h (k t e))
    · exact k

theorem State.setCtr_keep {s : State} {u : ℕ} {c : ℕ} {x : PmuCtr} (hk : Keep s0 s) :
    Keep s0 (State.setCtr s u c x) := by
  unfold State.setCtr
  repeat' first
    | with_reducible assumption
    | with_reducible refine State.setPmu_keep ?_

theorem State.sampleRecord_keep {s : State} {rec : List Byte} (hk : Keep s0 s) :
    Keep s0 (State.sampleRecord s rec) := by
  unfold State.sampleRecord
  repeat' first
    | with_reducible assumption
    | with_reducible refine State.setReg_keep ?_
    | with_reducible refine State.hostWrite_keep ?_
    | with_reducible refine State.msixIf_keep ?_
    | with_reducible refine Keep.foldl (fun _ _ _ => ?_) ?_
    | with_reducible refine Keep.foldl_snd (fun _ _ _ => ?_) ?_
    | split
    | fail_if_no_progress ((with_reducible refine Keep.upd ?_ ?_); exact rfl)
    | dsimp only

theorem State.tickCtr_keep {s : State} {u : ℕ} {evs : List PmuEvent} {c : ℕ} (hk : Keep s0 s) :
    Keep s0 (State.tickCtr s u evs c) := by
  unfold State.tickCtr
  repeat' first
    | with_reducible assumption
    | with_reducible refine State.setCtr_keep ?_
    | with_reducible refine State.sampleRecord_keep ?_
    | with_reducible refine Keep.foldl (fun _ _ _ => ?_) ?_
    | with_reducible refine Keep.foldl_snd (fun _ _ _ => ?_) ?_
    | split
    | fail_if_no_progress ((with_reducible refine Keep.upd ?_ ?_); exact rfl)
    | dsimp only

theorem execCounterTick_keep {u : ℕ} {evs : List PmuEvent} {s : State} (hk : Keep s0 s) :
    OKeep s0 (execCounterTick u evs s) := by
  unfold execCounterTick
  repeat' first
    | with_reducible assumption
    | with_reducible refine State.tickCtr_keep ?_
    | with_reducible refine OKeep.next ?_
    | with_reducible exact OKeep.fault
    | with_reducible exact OKeep.refused
    | with_reducible refine Keep.foldl (fun _ _ _ => ?_) ?_
    | with_reducible refine Keep.foldl_snd (fun _ _ _ => ?_) ?_
    | split

theorem execPmuClear_keep {v : W32} {s : State} (hk : Keep s0 s) :
    OKeep s0 (execPmuClear v s) := by
  unfold execPmuClear
  repeat' first
    | with_reducible assumption
    | with_reducible refine State.setReg_keep ?_
    | with_reducible refine State.setPmu_keep ?_
    | with_reducible refine OKeep.next ?_
    | with_reducible exact OKeep.fault
    | with_reducible exact OKeep.refused
    | with_reducible refine Keep.foldl (fun _ _ _ => ?_) ?_
    | with_reducible refine Keep.foldl_snd (fun _ _ _ => ?_) ?_
    | split

theorem execPmuCountWrite_keep {c : ℕ} {v : W64} {s : State} (hk : Keep s0 s) :
    OKeep s0 (execPmuCountWrite c v s) := by
  unfold execPmuCountWrite
  repeat' first
    | with_reducible assumption
    | with_reducible refine State.setCtr_keep ?_
    | with_reducible refine OKeep.next ?_
    | with_reducible exact OKeep.fault
    | with_reducible exact OKeep.refused
    | with_reducible refine Keep.foldl (fun _ _ _ => ?_) ?_
    | with_reducible refine Keep.foldl_snd (fun _ _ _ => ?_) ?_
    | split
    | dsimp only

theorem execTagRecord_keep {index : ℕ} {a : Bool} {b : Bool} {stages : List ℕ} {s : State} (hk : Keep s0 s) :
    OKeep s0 (execTagRecord index a b stages s) := by
  unfold execTagRecord
  repeat' first
    | with_reducible assumption
    | with_reducible refine State.sampleRecord_keep ?_
    | with_reducible refine State.setCore_keep ?_
    | with_reducible refine State.setPmu_keep ?_
    | with_reducible refine OKeep.next ?_
    | with_reducible exact OKeep.fault
    | with_reducible exact OKeep.refused
    | with_reducible refine Keep.foldl (fun _ _ _ => ?_) ?_
    | with_reducible refine Keep.foldl_snd (fun _ _ _ => ?_) ?_
    | split
    | dsimp only

theorem execTapeSnapshot_keep {s : State} (hk : Keep s0 s) :
    OKeep s0 (execTapeSnapshot s) := by
  unfold execTapeSnapshot
  repeat' first
    | with_reducible assumption
    | with_reducible refine State.setPmu_keep ?_
    | with_reducible refine State.setReg_keep ?_
    | with_reducible refine State.hostWrite_keep ?_
    | with_reducible refine State.msixIf_keep ?_
    | with_reducible refine OKeep.next ?_
    | with_reducible exact OKeep.fault
    | with_reducible exact OKeep.refused
    | with_reducible refine Keep.foldl (fun _ _ _ => ?_) ?_
    | with_reducible refine Keep.foldl_snd (fun _ _ _ => ?_) ?_
    | split
    | dsimp only

theorem execTimestampRead_keep {part : ℕ} {s : State} (hk : Keep s0 s) :
    OKeep s0 (execTimestampRead part s) := by
  unfold execTimestampRead
  repeat' first
    | with_reducible assumption
    | with_reducible refine State.setPlat_keep (by rfl) ?_
    | with_reducible refine OKeep.next ?_
    | with_reducible exact OKeep.fault
    | with_reducible exact OKeep.refused
    | with_reducible refine Keep.foldl (fun _ _ _ => ?_) ?_
    | with_reducible refine Keep.foldl_snd (fun _ _ _ => ?_) ?_
    | split

theorem State.disableCtx_keep {s : State} {n : ℕ} (hk : Keep s0 s) :
    Keep s0 (State.disableCtx s n) := by
  unfold State.disableCtx
  repeat' first
    | with_reducible assumption
    | with_reducible refine State.ctxProgress_keep ?_
    | with_reducible refine State.setFlag_keep ?_

theorem State.enableCtx_keep {s : State} {n : ℕ} (hk : Keep s0 s) :
    OKeep s0 (State.enableCtx s n) := by
  unfold State.enableCtx
  repeat' first
    | with_reducible assumption
    | with_reducible refine State.ctxProgress_keep ?_
    | with_reducible refine State.setFld_keep ?_
    | with_reducible refine State.setFlag_keep ?_
    | with_reducible refine State.setCtx_keep ?_
    | with_reducible refine OKeep.next ?_
    | with_reducible exact OKeep.fault
    | with_reducible exact OKeep.refused
    | with_reducible refine Keep.foldl (fun _ _ _ => ?_) ?_
    | with_reducible refine Keep.foldl_snd (fun _ _ _ => ?_) ?_
    | split
theorem State.enableCtx_keep_of {s : State} {n : ℕ} {t1 : State} (e : State.enableCtx s n = .next t1) (hk : Keep s0 s) : Keep s0 t1 := State.enableCtx_keep hk t1 e

theorem State.freezeCtx_keep {s : State} {n : ℕ} (hk : Keep s0 s) :
    Keep s0 (State.freezeCtx s n) := by
  unfold State.freezeCtx
  repeat' first
    | with_reducible assumption
    | with_reducible refine State.setObj_keep ?_
    | with_reducible refine Keep.foldl (fun _ _ _ => ?_) ?_
    | with_reducible refine Keep.foldl_snd (fun _ _ _ => ?_) ?_
    | split
    | fail_if_no_progress ((with_reducible refine Keep.upd ?_ ?_); exact rfl)
    | dsimp only

theorem State.preemptCtx_keep {s : State} {n : ℕ} (hk : Keep s0 s) :
    Keep s0 (State.preemptCtx s n) := by
  unfold State.preemptCtx
  repeat' first
    | with_reducible assumption
    | with_reducible refine State.freezeCtx_keep ?_
    | with_reducible refine State.setFlag_keep ?_
    | with_reducible refine State.ctxProgress_keep ?_
    | with_reducible refine State.setCore_keep ?_
    | with_reducible refine Keep.foldl (fun _ _ _ => ?_) ?_
    | with_reducible refine Keep.foldl_snd (fun _ _ _ => ?_) ?_
    | split

theorem State.giveContrib_keep {s : State} {e : GroupEntry} {k : GateContrib} (hk : Keep s0 s) :
    Keep s0 (State.giveContrib s e k) := by
  unfold State.giveContrib
  repeat' first
    | with_reducible assumption
    | with_reducible refine State.sendLoose_keep ?_
    | with_reducible refine Keep.foldl (fun _ _ _ => ?_) ?_
    | with_reducible refine Keep.foldl_snd (fun _ _ _ => ?_) ?_
    | split
    | fail_if_no_progress ((with_reducible refine Keep.upd ?_ ?_); exact rfl)

theorem State.sendResults_keep {s : State} {e : GroupEntry} {g : ℕ} {seq : ℕ} {slot : GateSlot} (hk : Keep s0 s) :
    Keep s0 (State.sendResults s e g seq slot) := by
  unfold State.sendResults
  repeat' first
    | with_reducible assumption
    | with_reducible refine State.sendLoose_keep ?_
    | with_reducible refine Keep.foldl (fun _ _ _ => ?_) ?_

theorem State.serveOrphans_keep {s : State} (hk : Keep s0 s) :
    Keep s0 (State.serveOrphans s) := by
  unfold State.serveOrphans
  repeat' first
    | with_reducible assumption
    | with_reducible refine State.sendResults_keep ?_
    | with_reducible refine Keep.foldl (fun _ _ _ => ?_) ?_
    | with_reducible refine Keep.foldl_snd (fun _ _ _ => ?_) ?_
    | split
    | fail_if_no_progress ((with_reducible refine Keep.upd ?_ ?_); exact rfl)

theorem State.resetGate_keep {s : State} {n : ℕ} {c : Cmd} (hk : Keep s0 s) :
    Keep s0 (State.resetGate s n c) := by
  unfold State.resetGate
  repeat' first
    | with_reducible assumption
    | with_reducible refine State.giveContrib_keep ?_
    | with_reducible refine State.serveOrphans_keep ?_
    | with_reducible refine Keep.foldl (fun _ _ _ => ?_) ?_
    | with_reducible refine Keep.foldl_snd (fun _ _ _ => ?_) ?_
    | split
    | fail_if_no_progress ((with_reducible refine Keep.upd ?_ ?_); exact rfl)
    | dsimp only

theorem State.sendCollAbort_keep {s : State} {e : GroupEntry} {g : ℕ} {seq : ℕ} {kind : ℕ} {reason : ℕ} (hk : Keep s0 s) :
    Keep s0 (State.sendCollAbort s e g seq kind reason) := by
  unfold State.sendCollAbort
  repeat' first
    | with_reducible assumption
    | with_reducible refine State.sendLoose_keep ?_
    | with_reducible refine Keep.foldl (fun _ _ _ => ?_) ?_

theorem State.abortUnstarted_keep {s : State} {c : Cmd} {reason : ℕ} (hk : Keep s0 s) :
    Keep s0 (State.abortUnstarted s c reason) := by
  unfold State.abortUnstarted
  repeat' first
    | with_reducible assumption
    | with_reducible refine State.dropEarly_keep ?_
    | with_reducible refine State.sendCollAbort_keep ?_
    | with_reducible refine Keep.foldl (fun _ _ _ => ?_) ?_
    | with_reducible refine Keep.foldl_snd (fun _ _ _ => ?_) ?_
    | split

theorem State.updPress_keep {s : State} {n : ℕ} {tag : ℕ} {f : PressJob → PressJob} (hk : Keep s0 s) :
    Keep s0 (State.updPress s n tag f) := by
  unfold State.updPress
  repeat' first
    | with_reducible assumption
    | with_reducible refine State.updCmd_keep ?_

theorem State.pressClose_keep {s : State} {n : ℕ} {tag : ℕ} {c : Cmd} {j : PressJob} (hk : Keep s0 s) :
    Keep s0 (State.pressClose s n tag c j) := by
  unfold State.pressClose
  repeat' first
    | with_reducible assumption
    | with_reducible refine State.updPress_keep ?_
    | with_reducible refine State.cmdFaultRec_keep ?_
    | with_reducible refine State.setCmd_keep ?_
    | with_reducible refine State.engNow_keep ?_
    | with_reducible refine State.engNow_keep_wait (by assumption) ?_
    | with_reducible refine State.engNow_keep_refused (by assumption) ?_
    | with_reducible refine State.engNow_keep_lost (by assumption) ?_
    | with_reducible refine State.engNow_keep_done (by assumption) ?_
    | with_reducible refine State.engNow_keep_go (by assumption) ?_
    | with_reducible refine State.engPut_keep ?_
    | with_reducible refine State.engPut_keep_lost (by assumption) ?_
    | with_reducible refine State.engPut_keep_ok (by assumption) ?_
    | with_reducible refine Keep.foldl (fun _ _ _ => ?_) ?_
    | with_reducible refine Keep.foldl_snd (fun _ _ _ => ?_) ?_
    | split
    | fail_if_no_progress ((with_reducible refine Keep.upd ?_ ?_); exact rfl)
    | dsimp only

theorem State.pressSettle_keep {s : State} {n : ℕ} {tag : ℕ} (hk : Keep s0 s) :
    Keep s0 (State.pressSettle s n tag) := by
  unfold State.pressSettle
  repeat' first
    | with_reducible assumption
    | with_reducible refine State.pressClose_keep ?_
    | with_reducible refine State.setCmd_keep ?_
    | with_reducible refine Keep.foldl (fun _ _ _ => ?_) ?_
    | with_reducible refine Keep.foldl_snd (fun _ _ _ => ?_) ?_
    | split
    | fail_if_no_progress ((with_reducible refine Keep.upd ?_ ?_); exact rfl)
    | dsimp only

theorem State.closeTxn_keep {s : State} {xid : ℕ} {held : Bool} (hk : Keep s0 s) :
    Keep s0 (State.closeTxn s xid held) := by
  unfold State.closeTxn
  repeat' first
    | with_reducible assumption
    | with_reducible refine Keep.foldl (fun _ _ _ => ?_) ?_
    | with_reducible refine Keep.foldl_snd (fun _ _ _ => ?_) ?_
    | split
    | fail_if_no_progress ((with_reducible refine Keep.upd ?_ ?_); exact rfl)

theorem State.setIngest_keep {s : State} {n : ℕ} {tag : ℕ} {f : IngestJob → IngestJob} (hk : Keep s0 s) :
    Keep s0 (State.setIngest s n tag f) := by
  unfold State.setIngest
  repeat' first
    | with_reducible assumption
    | with_reducible refine State.updCmd_keep ?_

theorem State.ingestEnds_keep {s : State} {n : ℕ} {tag : ℕ} {status : ℕ} {cause : ℕ} {position : ℕ} (hk : Keep s0 s) :
    Keep s0 (State.ingestEnds s n tag status cause position) := by
  unfold State.ingestEnds
  repeat' first
    | with_reducible assumption
    | with_reducible refine State.closeTxn_keep ?_
    | with_reducible refine State.setIngest_keep ?_
    | with_reducible refine State.settleCmd_keep ?_
    | with_reducible refine State.progressFor_keep ?_
    | with_reducible refine State.setWaiters_keep ?_
    | with_reducible refine State.engStep_keep ?_
    | with_reducible refine State.engStep_keep_wait (by assumption) ?_
    | with_reducible refine State.engStep_keep_fault (by assumption) ?_
    | with_reducible refine State.engStep_keep_lost (by assumption) ?_
    | with_reducible refine State.engStep_keep_done (by assumption) ?_
    | with_reducible refine State.cmdFaultRec_keep ?_
    | with_reducible refine Keep.foldl (fun _ _ _ => ?_) ?_
    | with_reducible refine Keep.foldl_snd (fun _ _ _ => ?_) ?_
    | split
    | fail_if_no_progress ((with_reducible refine Keep.upd ?_ ?_); exact rfl)

theorem State.setMesh_keep {s : State} {m : Mesh} (hk : Keep s0 s) :
    Keep s0 (State.setMesh s m) := by
  unfold State.setMesh
  repeat' first
    | with_reducible assumption
    | with_reducible refine Keep.foldl (fun _ _ _ => ?_) ?_
    | with_reducible refine Keep.foldl_snd (fun _ _ _ => ?_) ?_
    | split
    | fail_if_no_progress ((with_reducible refine Keep.upd ?_ ?_); exact rfl)

theorem State.purgeMesh_keep {s : State} {n : ℕ} {tag : ℕ} (hk : Keep s0 s) :
    Keep s0 (State.purgeMesh s n tag) := by
  unfold State.purgeMesh
  repeat' first
    | with_reducible assumption
    | with_reducible refine State.dropXfers_keep ?_
    | with_reducible refine State.setMesh_keep ?_

theorem State.resetCmd_keep {s : State} {n : ℕ} {tag : ℕ} (hk : Keep s0 s) :
    Keep s0 (State.resetCmd s n tag) := by
  unfold State.resetCmd
  repeat' first
    | with_reducible assumption
    | with_reducible refine State.setCtx_keep ?_
    | with_reducible refine State.resetGate_keep ?_
    | with_reducible refine State.collRaise_keep ?_
    | with_reducible refine State.abortUnstarted_keep ?_
    | with_reducible refine State.dropXfers_keep ?_
    | with_reducible refine State.setWaiters_keep ?_
    | with_reducible refine State.dmaSettle_keep ?_
    | with_reducible refine State.dropXfer_keep ?_
    | with_reducible refine State.pressSettle_keep ?_
    | with_reducible refine State.updPress_keep ?_
    | with_reducible refine State.ingestEnds_keep ?_
    | with_reducible refine State.countHeld_keep ?_
    | with_reducible refine State.purgeMesh_keep ?_
    | with_reducible refine Keep.foldl (fun _ _ _ => ?_) ?_
    | with_reducible refine Keep.foldl_snd (fun _ _ _ => ?_) ?_
    | split

theorem State.abandonCtx_keep {s : State} {n : ℕ} (hk : Keep s0 s) :
    Keep s0 (State.abandonCtx s n) := by
  unfold State.abandonCtx
  repeat' first
    | with_reducible assumption
    | with_reducible refine State.changeObj_keep ?_
    | with_reducible refine Keep.foldl (fun _ _ _ => ?_) ?_

end Sys2Proof.Machine
end

