-- ==== Sys2Proof/Laws/Keep03.lean ====
section
/-! SUPPORT. The operations of the model and the frame `Keep`, part 3. -/

namespace Sys2Proof.Machine

open Sys2Proof

variable {s0 : State}

theorem State.dropXlat_keep {s : State} {n : ℕ} (hk : Keep s0 s) :
    Keep s0 (State.dropXlat s n) := by
  unfold State.dropXlat
  repeat' first
    | with_reducible assumption
    | with_reducible refine State.setCtx_keep ?_
    | with_reducible refine Keep.foldl (fun _ _ _ => ?_) ?_
    | with_reducible refine Keep.foldl_snd (fun _ _ _ => ?_) ?_
    | split
    | fail_if_no_progress ((with_reducible refine Keep.upd ?_ ?_); exact rfl)

theorem State.resetCtx_keep {s : State} {n : ℕ} (hk : Keep s0 s) :
    Keep s0 (State.resetCtx s n) := by
  unfold State.resetCtx
  repeat' first
    | with_reducible assumption
    | with_reducible refine State.abandonCtx_keep ?_
    | with_reducible refine State.setFld_keep ?_
    | with_reducible refine State.resetCmd_keep ?_
    | with_reducible refine State.endWork_keep ?_
    | with_reducible refine State.setCore_keep ?_
    | with_reducible refine State.dropXlat_keep ?_
    | with_reducible refine State.progress_keep ?_
    | with_reducible refine State.setCtx_keep ?_
    | with_reducible refine Keep.foldl (fun _ _ _ => ?_) ?_
    | with_reducible refine Keep.foldl_snd (fun _ _ _ => ?_) ?_
    | split
    | fail_if_no_progress ((with_reducible refine Keep.upd ?_ ?_); exact rfl)
    | dsimp only

theorem State.resumeCtx_keep {s : State} {n : ℕ} (hk : Keep s0 s) :
    Keep s0 (State.resumeCtx s n) := by
  unfold State.resumeCtx
  repeat' first
    | with_reducible assumption
    | with_reducible refine State.setFlag_keep ?_
    | with_reducible refine State.ctxProgress_keep ?_
    | with_reducible refine State.setCore_keep ?_
    | with_reducible refine Keep.foldl (fun _ _ _ => ?_) ?_
    | with_reducible refine Keep.foldl_snd (fun _ _ _ => ?_) ?_
    | split
    | fail_if_no_progress ((with_reducible refine Keep.upd ?_ ?_); exact rfl)
    | dsimp only

theorem execCtxDisable_keep {n : ℕ} {s : State} (hk : Keep s0 s) :
    OKeep s0 (execCtxDisable n s) := by
  unfold execCtxDisable
  repeat' first
    | with_reducible assumption
    | with_reducible refine State.disableCtx_keep ?_
    | with_reducible refine OKeep.next ?_
    | with_reducible exact OKeep.fault
    | with_reducible exact OKeep.refused
    | with_reducible refine Keep.foldl (fun _ _ _ => ?_) ?_
    | with_reducible refine Keep.foldl_snd (fun _ _ _ => ?_) ?_
    | split

theorem execCtxEnable_keep {n : ℕ} {s : State} (hk : Keep s0 s) :
    OKeep s0 (execCtxEnable n s) := by
  unfold execCtxEnable
  repeat' first
    | with_reducible assumption
    | with_reducible refine State.enableCtx_keep ?_
    | with_reducible refine State.enableCtx_keep_of (by assumption) ?_
    | with_reducible refine OKeep.next ?_
    | with_reducible exact OKeep.fault
    | with_reducible exact OKeep.refused
    | with_reducible refine Keep.foldl (fun _ _ _ => ?_) ?_
    | with_reducible refine Keep.foldl_snd (fun _ _ _ => ?_) ?_
    | split

theorem execCtxPreempt_keep {n : ℕ} {s : State} (hk : Keep s0 s) :
    OKeep s0 (execCtxPreempt n s) := by
  unfold execCtxPreempt
  repeat' first
    | with_reducible assumption
    | with_reducible refine State.preemptCtx_keep ?_
    | with_reducible refine OKeep.next ?_
    | with_reducible exact OKeep.fault
    | with_reducible exact OKeep.refused
    | with_reducible refine Keep.foldl (fun _ _ _ => ?_) ?_
    | with_reducible refine Keep.foldl_snd (fun _ _ _ => ?_) ?_
    | split

theorem execCtxPtRootWrite_keep {n : ℕ} {v : W64} {s : State} (hk : Keep s0 s) :
    OKeep s0 (execCtxPtRootWrite n v s) := by
  unfold execCtxPtRootWrite
  repeat' first
    | with_reducible assumption
    | with_reducible refine State.dropXlat_keep ?_
    | with_reducible refine State.setReg64_keep ?_
    | with_reducible refine OKeep.next ?_
    | with_reducible exact OKeep.fault
    | with_reducible exact OKeep.refused
    | with_reducible refine Keep.foldl (fun _ _ _ => ?_) ?_
    | with_reducible refine Keep.foldl_snd (fun _ _ _ => ?_) ?_
    | split

theorem execCtxReset_keep {n : ℕ} {s : State} (hk : Keep s0 s) :
    OKeep s0 (execCtxReset n s) := by
  unfold execCtxReset
  repeat' first
    | with_reducible assumption
    | with_reducible refine State.resetCtx_keep ?_
    | with_reducible refine OKeep.next ?_
    | with_reducible exact OKeep.fault
    | with_reducible exact OKeep.refused
    | with_reducible refine Keep.foldl (fun _ _ _ => ?_) ?_
    | with_reducible refine Keep.foldl_snd (fun _ _ _ => ?_) ?_
    | split

theorem execCtxResume_keep {n : ℕ} {s : State} (hk : Keep s0 s) :
    OKeep s0 (execCtxResume n s) := by
  unfold execCtxResume
  repeat' first
    | with_reducible assumption
    | with_reducible refine State.resumeCtx_keep ?_
    | with_reducible refine OKeep.next ?_
    | with_reducible exact OKeep.fault
    | with_reducible exact OKeep.refused
    | with_reducible refine Keep.foldl (fun _ _ _ => ?_) ?_
    | with_reducible refine Keep.foldl_snd (fun _ _ _ => ?_) ?_
    | split

theorem State.countThreshold_keep {s : State} {kind : ℕ} {limit : ℕ} {cls : ℕ} {unit : ℕ} {addr : ℕ} (hk : Keep s0 s) :
    Keep s0 (State.countThreshold s kind limit cls unit addr) := by
  unfold State.countThreshold
  repeat' first
    | with_reducible assumption
    | with_reducible refine State.errRecord_keep ?_
    | with_reducible refine State.setUnitErr_keep ?_
    | with_reducible refine Keep.foldl (fun _ _ _ => ?_) ?_
    | with_reducible refine Keep.foldl_snd (fun _ _ _ => ?_) ?_
    | split
    | fail_if_no_progress ((with_reducible refine Keep.upd ?_ ?_); exact rfl)
    | dsimp only

theorem State.countCorrection_keep {s : State} {cls : ℕ} {unit : ℕ} {n : ℕ} {addr : ℕ} (hk : Keep s0 s) :
    Keep s0 (State.countCorrection s cls unit n addr) := by
  unfold State.countCorrection
  repeat' first
    | with_reducible assumption
    | with_reducible refine State.countThreshold_keep ?_
    | with_reducible refine State.setUnitErr_keep ?_

theorem State.countReplay_keep {s : State} {cls : ℕ} {unit : ℕ} (hk : Keep s0 s) :
    Keep s0 (State.countReplay s cls unit) := by
  unfold State.countReplay
  repeat' first
    | with_reducible assumption
    | with_reducible refine State.countThreshold_keep ?_

theorem State.countUncorrectable_keep {s : State} {cls : ℕ} {unit : ℕ} {addr : ℕ} (hk : Keep s0 s) :
    Keep s0 (State.countUncorrectable s cls unit addr) := by
  unfold State.countUncorrectable
  repeat' first
    | with_reducible assumption
    | with_reducible refine State.errRecord_keep ?_
    | with_reducible refine State.setUnitErr_keep ?_
    | with_reducible refine Keep.foldl (fun _ _ _ => ?_) ?_
    | with_reducible refine Keep.foldl_snd (fun _ _ _ => ?_) ?_
    | split
    | fail_if_no_progress ((with_reducible refine Keep.upd ?_ ?_); exact rfl)
    | dsimp only

theorem State.oweHost_keep {s : State} {n : ℕ} (hk : Keep s0 s) :
    Keep s0 (State.oweHost s n) := by
  unfold State.oweHost
  repeat' first
    | with_reducible assumption
    | with_reducible refine State.errRecord_keep ?_
    | with_reducible refine Keep.foldl (fun _ _ _ => ?_) ?_
    | with_reducible refine Keep.foldl_snd (fun _ _ _ => ?_) ?_
    | split
    | fail_if_no_progress ((with_reducible refine Keep.upd ?_ ?_); exact rfl)
    | dsimp only

theorem State.oweUnit_keep {s : State} {key : ℕ} (hk : Keep s0 s) :
    Keep s0 (State.oweUnit s key) := by
  unfold State.oweUnit
  repeat' first
    | with_reducible assumption
    | with_reducible refine State.errRecord_keep ?_
    | with_reducible refine State.setUnitErr_keep ?_
    | with_reducible refine Keep.foldl (fun _ _ _ => ?_) ?_
    | with_reducible refine Keep.foldl_snd (fun _ _ _ => ?_) ?_
    | split
    | fail_if_no_progress ((with_reducible refine Keep.upd ?_ ?_); exact rfl)
    | dsimp only

theorem State.tick_keep {s : State} (hk : Keep s0 s) :
    Keep s0 (State.tick s) := by
  unfold State.tick
  repeat' first
    | with_reducible assumption
    | with_reducible refine Keep.foldl (fun _ _ _ => ?_) ?_
    | with_reducible refine Keep.foldl_snd (fun _ _ _ => ?_) ?_
    | split
    | fail_if_no_progress ((with_reducible refine Keep.upd ?_ ?_); exact rfl)

theorem State.passTime_keep {s : State} (hk : Keep s0 s) :
    Keep s0 (State.passTime s) := by
  unfold State.passTime
  repeat' first
    | with_reducible assumption
    | with_reducible refine State.tick_keep ?_
    | with_reducible refine State.oweHost_keep ?_
    | with_reducible refine State.oweUnit_keep ?_
    | with_reducible refine Keep.foldl (fun _ _ _ => ?_) ?_
    | with_reducible refine Keep.foldl_snd (fun _ _ _ => ?_) ?_
    | split
    | fail_if_no_progress ((with_reducible refine Keep.upd ?_ ?_); exact rfl)
    | dsimp only

theorem State.takeSeq_keep {s : State} {g : ℕ} (hk : Keep s0 s) :
    Keep s0 (State.takeSeq s g).2 := by
  unfold State.takeSeq
  repeat' first
    | with_reducible assumption
    | with_reducible refine Keep.foldl (fun _ _ _ => ?_) ?_
    | with_reducible refine Keep.foldl_snd (fun _ _ _ => ?_) ?_
    | dsimp only
    | split
    | fail_if_no_progress ((with_reducible refine Keep.upd ?_ ?_); exact rfl)
theorem State.takeSeq_keep_of {s : State} {g : ℕ} {v1 : ℕ} {t1 : State} (e : State.takeSeq s g = (v1, t1)) (hk : Keep s0 s) : Keep s0 t1 := by
  have k := State.takeSeq_keep (s0 := s0) (s := s) (g := g) hk
  rw [e] at k
  exact k

theorem State.putLink_keep {s : State} {p : ℕ} {f : LinkFrame} (hk : Keep s0 s) :
    Keep s0 (State.putLink s p f) := by
  unfold State.putLink
  repeat' first
    | with_reducible assumption
    | with_reducible refine State.setPort_keep ?_

theorem execGate_keep {n : ℕ} {tag : ℕ} {s : State} (hk : Keep s0 s) :
    OKeep s0 (execGate n tag s) := by
  unfold execGate
  repeat' first
    | with_reducible assumption
    | with_reducible refine State.setCmd_keep ?_
    | with_reducible refine OKeep.next ?_
    | with_reducible exact OKeep.fault
    | with_reducible exact OKeep.refused
    | with_reducible refine Keep.foldl (fun _ _ _ => ?_) ?_
    | with_reducible refine Keep.foldl_snd (fun _ _ _ => ?_) ?_
    | split

theorem execGateContrib_keep {s : State} (hk : Keep s0 s) :
    OKeep s0 (execGateContrib s) := by
  unfold execGateContrib
  repeat' first
    | with_reducible assumption
    | with_reducible refine State.takeOpc_keep_of (by assumption) ?_
    | with_reducible refine State.countDiscard_keep ?_
    | with_reducible refine State.countFabStale_keep ?_
    | with_reducible refine State.mismatchRecord_keep ?_
    | with_reducible refine State.sendCollAbort_keep ?_
    | with_reducible refine State.serveOrphans_keep ?_
    | with_reducible refine OKeep.next ?_
    | with_reducible exact OKeep.fault
    | with_reducible exact OKeep.refused
    | with_reducible refine Keep.foldl (fun _ _ _ => ?_) ?_
    | with_reducible refine Keep.foldl_snd (fun _ _ _ => ?_) ?_
    | split
    | fail_if_no_progress ((with_reducible refine Keep.upd ?_ ?_); exact rfl)

theorem State.pressEndEarly_keep {s : State} {n : ℕ} {tag : ℕ} {status : ℕ} {cause : ℕ} (hk : Keep s0 s) :
    Keep s0 (State.pressEndEarly s n tag status cause) := by
  unfold State.pressEndEarly
  repeat' first
    | with_reducible assumption
    | with_reducible refine State.updCmd_keep ?_

theorem State.pressGo_keep {s : State} {n : ℕ} {tag : ℕ} {j : PressJob} (hk : Keep s0 s) :
    Keep s0 (State.pressGo s n tag j) := by
  unfold State.pressGo
  repeat' first
    | with_reducible assumption
    | with_reducible refine State.pressSettle_keep ?_
    | with_reducible refine State.progressFor_keep ?_
    | with_reducible refine State.updPress_keep ?_

theorem State.pressStats_keep {s : State} {n : ℕ} {tag : ℕ} {j : PressJob} (hk : Keep s0 s) :
    Keep s0 (State.pressStats s n tag j) := by
  unfold State.pressStats
  repeat' first
    | with_reducible assumption
    | with_reducible refine State.pressEndEarly_keep ?_
    | with_reducible refine State.cmdFaultRec_keep ?_
    | with_reducible refine State.hostReadError_keep ?_
    | with_reducible refine State.engNow_keep ?_
    | with_reducible refine State.engNow_keep_wait (by assumption) ?_
    | with_reducible refine State.engNow_keep_refused (by assumption) ?_
    | with_reducible refine State.engNow_keep_lost (by assumption) ?_
    | with_reducible refine State.engNow_keep_done (by assumption) ?_
    | with_reducible refine State.engNow_keep_go (by assumption) ?_
    | with_reducible refine State.updPress_keep ?_
    | with_reducible refine State.noteReads_keep ?_
    | with_reducible refine State.pressGo_keep ?_
    | with_reducible refine Keep.foldl (fun _ _ _ => ?_) ?_
    | with_reducible refine Keep.foldl_snd (fun _ _ _ => ?_) ?_
    | split
    | fail_if_no_progress ((with_reducible refine Keep.upd ?_ ?_); exact rfl)
    | dsimp only

theorem State.pressOpen_keep {s : State} {n : ℕ} {tag : ℕ} {j : PressJob} (hk : Keep s0 s) :
    Keep s0 (State.pressOpen s n tag j) := by
  unfold State.pressOpen
  repeat' first
    | with_reducible assumption
    | exact trivial
    | with_reducible refine State.thRead_keep ?_
    | with_reducible refine State.thRead_keep_ok (by assumption) ?_
    | with_reducible refine State.thRead_keep_fault (by assumption) ?_
    | with_reducible refine State.thRead_keep_again (by assumption) ?_
    | with_reducible refine State.thRead_keep_wait (by assumption) ?_
    | with_reducible refine State.thRead_keep_lost (by assumption) ?_
    | with_reducible refine State.updPress_keep ?_
    | with_reducible refine State.pressEndEarly_keep ?_
    | with_reducible refine State.pressStats_keep ?_
    | with_reducible refine State.pressGo_keep ?_
    | with_reducible refine Keep.foldl (fun _ _ _ => ?_) ?_
    | with_reducible refine Keep.foldl_snd (fun _ _ _ => ?_) ?_
    | split
    | fail_if_no_progress ((with_reducible refine Keep.upd ?_ ?_); exact rfl)
    | dsimp only

theorem State.pressGate_keep {s : State} {n : ℕ} {tag : ℕ} {outcome : ℕ} {clip : W32} (hk : Keep s0 s) :
    Keep s0 (State.pressGate s n tag outcome clip) := by
  unfold State.pressGate
  repeat' first
    | with_reducible assumption
    | with_reducible refine State.pressOpen_keep ?_
    | with_reducible refine State.setCmd_keep ?_
    | with_reducible refine Keep.foldl (fun _ _ _ => ?_) ?_
    | with_reducible refine Keep.foldl_snd (fun _ _ _ => ?_) ?_
    | split

theorem State.releasePress_keep {s : State} {n : ℕ} {step : ℕ} {outcome : ℕ} {clip : W32} (hk : Keep s0 s) :
    Keep s0 (State.releasePress s n step outcome clip) := by
  unfold State.releasePress
  repeat' first
    | with_reducible assumption
    | with_reducible refine State.pressGate_keep ?_
    | with_reducible refine Keep.foldl (fun _ _ _ => ?_) ?_

theorem State.signalRemote_keep {s : State} {n : ℕ} {tag : ℕ} {h : ℕ} {v : ℕ} {mode : ℕ} (hk : Keep s0 s) :
    Keep s0 (State.signalRemote s n tag h v mode) := by
  unfold State.signalRemote
  repeat' first
    | with_reducible assumption
    | with_reducible refine State.openTxn_keep ?_
    | with_reducible refine State.openTxn_keep_of (by assumption) ?_
    | with_reducible refine State.e2eRecord_keep ?_
    | with_reducible refine State.closeTxn_keep ?_
    | with_reducible refine State.sendFrame_keep_of (by assumption) ?_
    | with_reducible refine Keep.foldl (fun _ _ _ => ?_) ?_
    | with_reducible refine Keep.foldl_snd (fun _ _ _ => ?_) ?_
    | split
    | fail_if_no_progress ((with_reducible refine Keep.upd ?_ ?_); exact rfl)
    | dsimp only

theorem State.countStale_keep {s : State} (hk : Keep s0 s) :
    Keep s0 (State.countStale s) := by
  unfold State.countStale
  repeat' first
    | with_reducible assumption
    | with_reducible refine Keep.foldl (fun _ _ _ => ?_) ?_
    | with_reducible refine Keep.foldl_snd (fun _ _ _ => ?_) ?_
    | split
    | fail_if_no_progress ((with_reducible refine Keep.upd ?_ ?_); exact rfl)

theorem State.countOverrun_keep {s : State} (hk : Keep s0 s) :
    Keep s0 (State.countOverrun s) := by
  unfold State.countOverrun
  repeat' first
    | with_reducible assumption
    | with_reducible refine Keep.foldl (fun _ _ _ => ?_) ?_
    | with_reducible refine Keep.foldl_snd (fun _ _ _ => ?_) ?_
    | split
    | fail_if_no_progress ((with_reducible refine Keep.upd ?_ ?_); exact rfl)

theorem State.signalObj_keep {s : State} {h : ℕ} {v : ℕ} {mode : ℕ} (hk : Keep s0 s) :
    Keep s0 (State.signalObj s h v mode).2 := by
  unfold State.signalObj
  repeat' first
    | with_reducible assumption
    | with_reducible refine State.countStale_keep ?_
    | with_reducible refine State.changeObj_keep ?_
    | with_reducible refine State.countOverrun_keep ?_
    | with_reducible refine Keep.foldl (fun _ _ _ => ?_) ?_
    | with_reducible refine Keep.foldl_snd (fun _ _ _ => ?_) ?_
    | dsimp only
    | split
theorem State.signalObj_keep_of {s : State} {h : ℕ} {v : ℕ} {mode : ℕ} {v1 : SigRes} {t1 : State} (e : State.signalObj s h v mode = (v1, t1)) (hk : Keep s0 s) : Keep s0 t1 := by
  have k := State.signalObj_keep (s0 := s0) (s := s) (h := h) (v := v) (mode := mode) hk
  rw [e] at k
  exact k

theorem State.signalFor_keep {s : State} {n : ℕ} {tag : ℕ} {h : ℕ} {v : ℕ} {mode : ℕ} (hk : Keep s0 s) :
    Keep s0 (State.signalFor s n tag h v mode).2 := by
  unfold State.signalFor
  repeat' first
    | with_reducible assumption
    | with_reducible refine State.signalRemote_keep ?_
    | with_reducible refine State.signalObj_keep ?_
    | with_reducible refine State.signalObj_keep_of (by assumption) ?_
    | with_reducible refine Keep.foldl (fun _ _ _ => ?_) ?_
    | with_reducible refine Keep.foldl_snd (fun _ _ _ => ?_) ?_
    | dsimp only
    | split
theorem State.signalFor_keep_of {s : State} {n : ℕ} {tag : ℕ} {h : ℕ} {v : ℕ} {mode : ℕ} {v1 : SigRes} {t1 : State} (e : State.signalFor s n tag h v mode = (v1, t1)) (hk : Keep s0 s) : Keep s0 t1 := by
  have k := State.signalFor_keep (s0 := s0) (s := s) (n := n) (tag := tag) (h := h) (v := v) (mode := mode) hk
  rw [e] at k
  exact k

theorem State.signalCmd_keep {s : State} {n : ℕ} {c : Cmd} (hk : Keep s0 s) :
    Keep s0 (State.signalCmd s n c).2 := by
  unfold State.signalCmd
  repeat' first
    | with_reducible assumption
    | with_reducible refine State.signalFor_keep ?_
    | with_reducible refine State.signalFor_keep_of (by assumption) ?_
    | with_reducible refine State.cmdFaultRec_keep ?_
    | with_reducible refine Keep.foldl (fun _ _ _ => ?_) ?_
    | with_reducible refine Keep.foldl_snd (fun _ _ _ => ?_) ?_
    | dsimp only
    | split
theorem State.signalCmd_keep_of {s : State} {n : ℕ} {c : Cmd} {v1 : (ℕ × ℕ)} {t1 : State} (e : State.signalCmd s n c = (v1, t1)) (hk : Keep s0 s) : Keep s0 t1 := by
  have k := State.signalCmd_keep (s0 := s0) (s := s) (n := n) (c := c) hk
  rw [e] at k
  exact k

theorem State.signalOnce_keep {s : State} {n : ℕ} {tag : ℕ} (hk : Keep s0 s) :
    Keep s0 (State.signalOnce s n tag) := by
  unfold State.signalOnce
  repeat' first
    | with_reducible assumption
    | with_reducible refine State.signalCmd_keep ?_
    | with_reducible refine State.signalCmd_keep_of (by assumption) ?_
    | with_reducible refine State.updCmd_keep ?_
    | with_reducible refine Keep.foldl (fun _ _ _ => ?_) ?_
    | with_reducible refine Keep.foldl_snd (fun _ _ _ => ?_) ?_
    | split

theorem State.gateReleases_keep {s : State} {n : ℕ} {c : Cmd} {g : GateSlot} {cause : ℕ} {lost : Bool} (hk : Keep s0 s) :
    Keep s0 (State.gateReleases s n c g cause lost) := by
  unfold State.gateReleases
  repeat' first
    | with_reducible assumption
    | with_reducible refine State.setCtx_keep ?_
    | with_reducible refine State.releasePress_keep ?_
    | with_reducible refine State.signalOnce_keep ?_
    | with_reducible refine State.updCmd_keep ?_
    | with_reducible refine Keep.foldl (fun _ _ _ => ?_) ?_
    | with_reducible refine Keep.foldl_snd (fun _ _ _ => ?_) ?_
    | split
    | fail_if_no_progress ((with_reducible refine Keep.upd ?_ ?_); exact rfl)

theorem State.resolveGate_keep {s : State} {n : ℕ} {c : Cmd} {g : GateSlot} (hk : Keep s0 s) :
    Keep s0 (State.resolveGate s n c g) := by
  unfold State.resolveGate
  repeat' first
    | with_reducible assumption
    | with_reducible refine State.thWrite_keep ?_
    | with_reducible refine State.thWrite_keep_ok (by assumption) ?_
    | with_reducible refine State.thWrite_keep_wait (by assumption) ?_
    | with_reducible refine State.thWrite_keep_lost (by assumption) ?_
    | with_reducible refine State.updCmd_keep ?_
    | with_reducible refine State.gateReleases_keep ?_
    | with_reducible refine Keep.foldl (fun _ _ _ => ?_) ?_
    | with_reducible refine Keep.foldl_snd (fun _ _ _ => ?_) ?_
    | split

theorem State.timeoutSlot_keep {s : State} {c : Cmd} {j : GateJob} {failed : Option ℕ} (hk : Keep s0 s) :
    Keep s0 (State.timeoutSlot s c j failed).2 := by
  unfold State.timeoutSlot
  repeat' first
    | with_reducible assumption
    | with_reducible refine State.fresh_keep ?_
theorem State.timeoutSlot_keep_of {s : State} {c : Cmd} {j : GateJob} {failed : Option ℕ} {v1 : GateSlot} {t1 : State} (e : State.timeoutSlot s c j failed = (v1, t1)) (hk : Keep s0 s) : Keep s0 t1 := by
  have k := State.timeoutSlot_keep (s0 := s0) (s := s) (c := c) (j := j) (failed := failed) hk
  rw [e] at k
  exact k

theorem State.gateTimesOut_keep {s : State} {n : ℕ} {c : Cmd} {failed : Option ℕ} (hk : Keep s0 s) :
    Keep s0 (State.gateTimesOut s n c failed) := by
  unfold State.gateTimesOut
  repeat' first
    | with_reducible assumption
    | with_reducible refine State.timeoutSlot_keep ?_
    | with_reducible refine State.timeoutSlot_keep_of (by assumption) ?_
    | with_reducible refine State.resolveGate_keep ?_
    | with_reducible refine Keep.foldl (fun _ _ _ => ?_) ?_
    | with_reducible refine Keep.foldl_snd (fun _ _ _ => ?_) ?_
    | split

theorem execGateResolve_keep {n : ℕ} {tag : ℕ} {s : State} (hk : Keep s0 s) :
    OKeep s0 (execGateResolve n tag s) := by
  unfold execGateResolve
  repeat' first
    | with_reducible assumption
    | with_reducible refine State.resolveGate_keep ?_
    | with_reducible refine State.gateTimesOut_keep ?_
    | with_reducible refine State.setCmd_keep ?_
    | with_reducible refine State.giveContrib_keep ?_
    | with_reducible refine State.sendResults_keep ?_
    | with_reducible refine OKeep.next ?_
    | with_reducible exact OKeep.fault
    | with_reducible exact OKeep.refused
    | with_reducible refine Keep.foldl (fun _ _ _ => ?_) ?_
    | with_reducible refine Keep.foldl_snd (fun _ _ _ => ?_) ?_
    | split
    | dsimp only

theorem execGateResult_keep {s : State} (hk : Keep s0 s) :
    OKeep s0 (execGateResult s) := by
  unfold execGateResult
  repeat' first
    | with_reducible assumption
    | with_reducible refine State.takeOpc_keep_of (by assumption) ?_
    | with_reducible refine State.countDiscard_keep ?_
    | with_reducible refine State.countFabStale_keep ?_
    | with_reducible refine State.resolveGate_keep ?_
    | with_reducible refine OKeep.next ?_
    | with_reducible exact OKeep.fault
    | with_reducible exact OKeep.refused
    | with_reducible refine Keep.foldl (fun _ _ _ => ?_) ?_
    | with_reducible refine Keep.foldl_snd (fun _ _ _ => ?_) ?_
    | split
    | dsimp only

theorem execGateStart_keep {n : ℕ} {tag : ℕ} {s : State} (hk : Keep s0 s) :
    OKeep s0 (execGateStart n tag s) := by
  unfold execGateStart
  repeat' first
    | with_reducible assumption
    | with_reducible refine State.setCmd_keep ?_
    | with_reducible refine OKeep.next ?_
    | with_reducible exact OKeep.fault
    | with_reducible exact OKeep.refused
    | with_reducible refine Keep.foldl (fun _ _ _ => ?_) ?_
    | with_reducible refine Keep.foldl_snd (fun _ _ _ => ?_) ?_
    | split

theorem execGateTimeout_keep {n : ℕ} {tag : ℕ} {s : State} (hk : Keep s0 s) :
    OKeep s0 (execGateTimeout n tag s) := by
  unfold execGateTimeout
  repeat' first
    | with_reducible assumption
    | with_reducible refine State.gateTimesOut_keep ?_
    | with_reducible refine OKeep.next ?_
    | with_reducible exact OKeep.fault
    | with_reducible exact OKeep.refused
    | with_reducible refine Keep.foldl (fun _ _ _ => ?_) ?_
    | with_reducible refine Keep.foldl_snd (fun _ _ _ => ?_) ?_
    | split
    | dsimp only

theorem State.addBank_keep {s : State} {n : ℕ} {step : ℕ} {f : GateBank → GateBank} (hk : Keep s0 s) :
    Keep s0 (State.addBank s n step f) := by
  unfold State.addBank
  repeat' first
    | with_reducible assumption
    | with_reducible refine State.setCtx_keep ?_
    | with_reducible refine Keep.foldl (fun _ _ _ => ?_) ?_
    | with_reducible refine Keep.foldl_snd (fun _ _ _ => ?_) ?_
    | split
    | fail_if_no_progress ((with_reducible refine Keep.upd ?_ ?_); exact rfl)
    | dsimp only

theorem State.failGates_keep {s : State} (hk : Keep s0 s) :
    Keep s0 (State.failGates s) := by
  unfold State.failGates
  repeat' first
    | with_reducible assumption
    | with_reducible refine State.gateTimesOut_keep ?_
    | with_reducible refine Keep.foldl (fun _ _ _ => ?_) ?_
    | with_reducible refine Keep.foldl_snd (fun _ _ _ => ?_) ?_
    | split

theorem State.skipGate_keep {s : State} {n : ℕ} {c : Cmd} (hk : Keep s0 s) :
    Keep s0 (State.skipGate s n c) := by
  unfold State.skipGate
  repeat' first
    | with_reducible assumption
    | with_reducible refine State.setCtx_keep ?_
    | with_reducible refine State.releasePress_keep ?_
    | with_reducible refine State.signalOnce_keep ?_

theorem State.settleMesh_keep {s : State} {n : ℕ} {tag : ℕ} {status : ℕ} {cause : ℕ} {position : ℕ} (hk : Keep s0 s) :
    Keep s0 (State.settleMesh s n tag status cause position) := by
  unfold State.settleMesh
  repeat' first
    | with_reducible assumption
    | with_reducible refine State.settleCmd_keep ?_
    | with_reducible refine State.progressFor_keep ?_
    | with_reducible refine State.purgeMesh_keep ?_

theorem State.meshFault_keep {s : State} {n : ℕ} {tag : ℕ} {f : AccFault} {write : Bool} (hk : Keep s0 s) :
    Keep s0 (State.meshFault s n tag f write) := by
  unfold State.meshFault
  repeat' first
    | with_reducible assumption
    | with_reducible refine State.settleMesh_keep ?_
    | with_reducible refine State.cmdFaultRec_keep ?_

theorem State.engineReadFails_keep {s : State} {n : ℕ} {c : Cmd} {f : AccFault} (hk : Keep s0 s) :
    Keep s0 (State.engineReadFails s n c f) := by
  unfold State.engineReadFails
  repeat' first
    | with_reducible assumption
    | with_reducible refine State.collFault_keep ?_
    | with_reducible refine State.meshFault_keep ?_
    | with_reducible refine State.pressEndEarly_keep ?_
    | with_reducible refine State.cmdFaultRec_keep ?_
    | with_reducible refine State.cmdFault_keep ?_
    | with_reducible refine Keep.foldl (fun _ _ _ => ?_) ?_
    | with_reducible refine Keep.foldl_snd (fun _ _ _ => ?_) ?_
    | split

theorem State.freeSlot_keep {s : State} {n : ℕ} (hk : Keep s0 s) :
    Keep s0 (State.freeSlot s n).2 := by
  unfold State.freeSlot
  repeat' first
    | with_reducible assumption
    | with_reducible refine Keep.foldl (fun _ _ _ => ?_) ?_
    | with_reducible refine Keep.foldl_snd (fun _ _ _ => ?_) ?_
    | dsimp only
    | split
    | fail_if_no_progress ((with_reducible refine Keep.upd ?_ ?_); exact rfl)
theorem State.freeSlot_keep_of {s : State} {n : ℕ} {v1 : List Byte} {t1 : State} (e : State.freeSlot s n = (v1, t1)) (hk : Keep s0 s) : Keep s0 t1 := by
  have k := State.freeSlot_keep (s0 := s0) (s := s) (n := n) hk
  rw [e] at k
  exact k

theorem State.writeFinals_keep {n : ℕ} {tag : ℕ} {x2 : ℕ} {x3 : List (ℕ × View)} {x4 : State} (hk : Keep s0 x4) :
    FinalRes.Keeps s0 (State.writeFinals n tag x2 x3 x4) := by
  induction x3 generalizing x2 x4 with
  | nil =>
    rw [State.writeFinals]
    repeat' first
      | with_reducible assumption
      | with_reducible refine ih ?_
      | with_reducible refine State.updCmd_keep ?_
      | with_reducible refine State.thWrite_keep ?_
      | with_reducible refine State.thWrite_keep_ok (by assumption) ?_
      | with_reducible refine State.thWrite_keep_wait (by assumption) ?_
      | with_reducible refine State.thWrite_keep_lost (by assumption) ?_
      | exact trivial
      | fail_if_no_progress change Keep _ _
  | cons _ _ ih =>
    rw [State.writeFinals]
    repeat' first
      | with_reducible assumption
      | with_reducible refine ih ?_
      | with_reducible refine State.updCmd_keep ?_
      | with_reducible refine State.thWrite_keep ?_
      | with_reducible refine State.thWrite_keep_ok (by assumption) ?_
      | with_reducible refine State.thWrite_keep_wait (by assumption) ?_
      | with_reducible refine State.thWrite_keep_lost (by assumption) ?_
      | exact trivial
      | fail_if_no_progress change Keep _ _
      | with_reducible refine Keep.foldl (fun _ _ _ => ?_) ?_
      | with_reducible refine Keep.foldl_snd (fun _ _ _ => ?_) ?_
      | split
theorem State.writeFinals_keep_wait {n : ℕ} {tag : ℕ} {x2 : ℕ} {x3 : List (ℕ × View)} {x4 : State}  {t1 : State} (e : State.writeFinals n tag x2 x3 x4 = .wait t1) (hk : Keep s0 x4) : Keep s0 t1 := by
  have k := State.writeFinals_keep (s0 := s0) (n := n) (tag := tag) (x2 := x2) (x3 := x3) (x4 := x4) hk
  rw [e] at k
  exact k
theorem State.writeFinals_keep_done {n : ℕ} {tag : ℕ} {x2 : ℕ} {x3 : List (ℕ × View)} {x4 : State}  {t1 : State} (e : State.writeFinals n tag x2 x3 x4 = .done t1) (hk : Keep s0 x4) : Keep s0 t1 := by
  have k := State.writeFinals_keep (s0 := s0) (n := n) (tag := tag) (x2 := x2) (x3 := x3) (x4 := x4) hk
  rw [e] at k
  exact k

theorem State.finalWrites_keep {s : State} {n : ℕ} {c : Cmd} (hk : Keep s0 s) :
    FinalRes.Keeps s0 (State.finalWrites s n c) := by
  unfold State.finalWrites
  repeat' first
    | with_reducible assumption
    | with_reducible refine State.updCmd_keep ?_
    | with_reducible refine State.freeSlot_keep ?_
    | with_reducible refine State.freeSlot_keep_of (by assumption) ?_
    | with_reducible refine State.writeFinals_keep ?_
    | with_reducible refine State.writeFinals_keep_wait (by assumption) ?_
    | with_reducible refine State.writeFinals_keep_done (by assumption) ?_
    | exact trivial
    | fail_if_no_progress change Keep _ _
    | with_reducible refine Keep.foldl (fun _ _ _ => ?_) ?_
    | with_reducible refine Keep.foldl_snd (fun _ _ _ => ?_) ?_
    | split
theorem State.finalWrites_keep_wait {s : State} {n : ℕ} {c : Cmd}  {t1 : State} (e : State.finalWrites s n c = .wait t1) (hk : Keep s0 s) : Keep s0 t1 := by
  have k := State.finalWrites_keep (s0 := s0) (s := s) (n := n) (c := c) hk
  rw [e] at k
  exact k
theorem State.finalWrites_keep_done {s : State} {n : ℕ} {c : Cmd}  {t1 : State} (e : State.finalWrites s n c = .done t1) (hk : Keep s0 s) : Keep s0 t1 := by
  have k := State.finalWrites_keep (s0 := s0) (s := s) (n := n) (c := c) hk
  rw [e] at k
  exact k

theorem State.contribute_keep {s : State} {n : ℕ} {c : Cmd} (hk : Keep s0 s) :
    Keep s0 (State.contribute s n c) := by
  unfold State.contribute
  repeat' first
    | with_reducible assumption
    | with_reducible refine State.addBank_keep ?_
    | with_reducible refine Keep.foldl (fun _ _ _ => ?_) ?_
    | with_reducible refine Keep.foldl_snd (fun _ _ _ => ?_) ?_
    | split

theorem State.holdRec_keep {s : State} {n : ℕ} {r : HeldRec} (hk : Keep s0 s) :
    Keep s0 (State.holdRec s n r) := by
  unfold State.holdRec
  repeat' first
    | with_reducible assumption
    | with_reducible refine State.setCtx_keep ?_

theorem State.finishCmd_keep {s : State} {n : ℕ} {tag : ℕ} (hk : Keep s0 s) :
    Keep s0 (State.finishCmd s n tag) := by
  unfold State.finishCmd
  repeat' first
    | with_reducible assumption
    | with_reducible refine State.signalOnce_keep ?_
    | with_reducible refine State.progressFor_keep ?_
    | with_reducible refine State.contribute_keep ?_
    | with_reducible refine State.holdRec_keep ?_
    | with_reducible refine State.setCtx_keep ?_
    | with_reducible refine Keep.foldl (fun _ _ _ => ?_) ?_
    | with_reducible refine Keep.foldl_snd (fun _ _ _ => ?_) ?_
    | split

theorem State.completeCmd_keep {s : State} {n : ℕ} {c : Cmd} (hk : Keep s0 s) :
    Keep s0 (State.completeCmd s n c) := by
  unfold State.completeCmd
  repeat' first
    | with_reducible assumption
    | with_reducible refine State.finalWrites_keep ?_
    | with_reducible refine State.finalWrites_keep_wait (by assumption) ?_
    | with_reducible refine State.finalWrites_keep_done (by assumption) ?_
    | with_reducible refine State.settleBatch_keep ?_
    | with_reducible refine State.finishCmd_keep ?_
    | with_reducible refine Keep.foldl (fun _ _ _ => ?_) ?_
    | with_reducible refine Keep.foldl_snd (fun _ _ _ => ?_) ?_
    | split

theorem execCommandComplete_keep {n : ℕ} {tag : ℕ} {s : State} (hk : Keep s0 s) :
    OKeep s0 (execCommandComplete n tag s) := by
  unfold execCommandComplete
  repeat' first
    | with_reducible assumption
    | with_reducible refine State.ctxProgress_keep ?_
    | with_reducible refine State.completeCmd_keep ?_
    | with_reducible refine OKeep.next ?_
    | with_reducible exact OKeep.fault
    | with_reducible exact OKeep.refused
    | with_reducible refine Keep.foldl (fun _ _ _ => ?_) ?_
    | with_reducible refine Keep.foldl_snd (fun _ _ _ => ?_) ?_
    | split

theorem State.failUnstarted_keep {s : State} {n : ℕ} {c : Cmd} {cause : ℕ} (hk : Keep s0 s) :
    Keep s0 (State.failUnstarted s n c cause) := by
  unfold State.failUnstarted
  repeat' first
    | with_reducible assumption
    | with_reducible refine State.setCmd_keep ?_
    | with_reducible refine State.skipGate_keep ?_
    | with_reducible refine Keep.foldl (fun _ _ _ => ?_) ?_
    | with_reducible refine Keep.foldl_snd (fun _ _ _ => ?_) ?_
    | split

theorem State.waitObj_keep {s : State} {h : ℕ} {mode : ℕ} {thr : ℕ} (hk : Keep s0 s) :
    Keep s0 (State.waitObj s h mode thr).2 := by
  unfold State.waitObj
  repeat' first
    | with_reducible assumption
    | with_reducible refine State.countStale_keep ?_
    | with_reducible refine State.changeObj_keep ?_
    | with_reducible refine Keep.foldl (fun _ _ _ => ?_) ?_
    | with_reducible refine Keep.foldl_snd (fun _ _ _ => ?_) ?_
    | dsimp only
    | split
theorem State.waitObj_keep_of {s : State} {h : ℕ} {mode : ℕ} {thr : ℕ} {v1 : WaitRes} {t1 : State} (e : State.waitObj s h mode thr = (v1, t1)) (hk : Keep s0 s) : Keep s0 t1 := by
  have k := State.waitObj_keep (s0 := s0) (s := s) (h := h) (mode := mode) (thr := thr) hk
  rw [e] at k
  exact k

theorem State.prewait_keep {s : State} {n : ℕ} {c : Cmd} (hk : Keep s0 s) :
    PreRes.Keeps s0 (State.prewait s n c) := by
  unfold State.prewait
  repeat' first
    | with_reducible assumption
    | with_reducible refine State.waitObj_keep ?_
    | with_reducible refine State.waitObj_keep_of (by assumption) ?_
    | with_reducible refine State.setCmd_keep ?_
    | with_reducible refine State.setWaiters_keep ?_
    | exact trivial
    | fail_if_no_progress change Keep _ _
    | with_reducible refine Keep.foldl (fun _ _ _ => ?_) ?_
    | with_reducible refine Keep.foldl_snd (fun _ _ _ => ?_) ?_
    | split
    | dsimp only
theorem State.prewait_keep_go {s : State} {n : ℕ} {c : Cmd}  {t1 : State} (e : State.prewait s n c = .go t1) (hk : Keep s0 s) : Keep s0 t1 := by
  have k := State.prewait_keep (s0 := s0) (s := s) (n := n) (c := c) hk
  rw [e] at k
  exact k
theorem State.prewait_keep_hold {s : State} {n : ℕ} {c : Cmd}  {t1 : State} (e : State.prewait s n c = .hold t1) (hk : Keep s0 s) : Keep s0 t1 := by
  have k := State.prewait_keep (s0 := s0) (s := s) (n := n) (c := c) hk
  rw [e] at k
  exact k
theorem State.prewait_keep_fail {s : State} {n : ℕ} {c : Cmd} {c1 : Nat} {t1 : State} (e : State.prewait s n c = .fail c1 t1) (hk : Keep s0 s) : Keep s0 t1 := by
  have k := State.prewait_keep (s0 := s0) (s := s) (n := n) (c := c) hk
  rw [e] at k
  exact k

theorem State.takeTurn_keep {s : State} {n : ℕ} (hk : Keep s0 s) :
    Keep s0 (State.takeTurn s n) := by
  unfold State.takeTurn
  repeat' first
    | with_reducible assumption
    | with_reducible refine State.setCtx_keep ?_

theorem execCommandDispatch_keep {n : ℕ} {s : State} (hk : Keep s0 s) :
    OKeep s0 (execCommandDispatch n s) := by
  unfold execCommandDispatch
  repeat' first
    | with_reducible assumption
    | with_reducible refine State.failUnstarted_keep ?_
    | with_reducible refine State.prewait_keep ?_
    | with_reducible refine State.prewait_keep_go (by assumption) ?_
    | with_reducible refine State.prewait_keep_hold (by assumption) ?_
    | with_reducible refine State.prewait_keep_fail (by assumption) ?_
    | with_reducible refine State.takeTurn_keep ?_
    | with_reducible refine State.updCmd_keep ?_
    | with_reducible refine OKeep.next ?_
    | with_reducible exact OKeep.fault
    | with_reducible exact OKeep.refused
    | with_reducible refine Keep.foldl (fun _ _ _ => ?_) ?_
    | with_reducible refine Keep.foldl_snd (fun _ _ _ => ?_) ?_
    | split

theorem execCompletionRecordWrite_keep {n : ℕ} {s : State} (hk : Keep s0 s) :
    OKeep s0 (execCompletionRecordWrite n s) := by
  unfold execCompletionRecordWrite
  repeat' first
    | with_reducible assumption
    | with_reducible refine State.ctxProgress_keep ?_
    | with_reducible refine State.putRecord_keep ?_
    | with_reducible refine State.setCtx_keep ?_
    | with_reducible refine OKeep.next ?_
    | with_reducible exact OKeep.fault
    | with_reducible exact OKeep.refused
    | with_reducible refine Keep.foldl (fun _ _ _ => ?_) ?_
    | with_reducible refine Keep.foldl_snd (fun _ _ _ => ?_) ?_
    | split
    | dsimp only

theorem State.hallRead_keep_error {s : State} {n bus len : Nat} {t1 : State} (e : s.hallRead n bus len = .error t1) (h : Keep s0 s) :
    Keep s0 t1 := by
  unfold State.hallRead at e
  split at e
  · cases e
    exact State.hostReadError_keep h
  · cases e

theorem State.markPolled_keep {s : State} {n : ℕ} (hk : Keep s0 s) :
    Keep s0 (State.markPolled s n) := by
  unfold State.markPolled
  repeat' first
    | with_reducible assumption
    | with_reducible refine State.setCtx_keep ?_

theorem State.joinCmd_keep {s : State} {n : ℕ} {c : Cmd} (hk : Keep s0 s) :
    PKeep s0 (State.joinCmd s n c) := by
  unfold State.joinCmd
  repeat' first
    | with_reducible assumption
    | with_reducible refine State.takeSeq_keep ?_
    | with_reducible refine State.takeSeq_keep_of (by assumption) ?_
    | with_reducible refine State.setCtx_keep ?_
    | with_reducible refine State.abortUnstarted_keep ?_
    | refine PKeep.some ?_
    | exact PKeep.none
    | with_reducible refine Keep.foldl (fun _ _ _ => ?_) ?_
    | with_reducible refine Keep.foldl_snd (fun _ _ _ => ?_) ?_
    | split
    | dsimp only
theorem State.joinCmd_keep_of {s : State} {n : ℕ} {c : Cmd} {t1 : State} (e : State.joinCmd s n c = some t1) (hk : Keep s0 s) : Keep s0 t1 := State.joinCmd_keep hk t1 e

theorem State.takeDesc_keep {s : State} {n : ℕ} {v : ℕ} (hk : Keep s0 s) :
    PKeep s0 (State.takeDesc s n v) := by
  unfold State.takeDesc
  repeat' first
    | with_reducible assumption
    | with_reducible refine State.joinCmd_keep_of (by assumption) ?_
    | refine PKeep.some ?_
    | exact PKeep.none
    | with_reducible refine Keep.foldl (fun _ _ _ => ?_) ?_
    | with_reducible refine Keep.foldl_snd (fun _ _ _ => ?_) ?_
    | split
    | dsimp only
    | intro _
theorem State.takeDesc_keep_of {s : State} {n : ℕ} {v : ℕ} {t1 : State} (e : State.takeDesc s n v = some t1) (hk : Keep s0 s) : Keep s0 t1 := State.takeDesc_keep hk t1 e

theorem State.readDescs_keep {x0 : ℕ} {x1 : ℕ} {x2 : State} (hk : Keep s0 x2) :
    DescRead.Keeps s0 (State.readDescs x0 x1 x2) := by
  induction x0 generalizing x2 with
  | zero =>
    rw [State.readDescs]
    repeat' first
      | with_reducible assumption
      | with_reducible refine ih ?_
      | with_reducible refine State.hallRead_keep ?_
      | with_reducible refine State.hallRead_keep_error (by assumption) ?_
      | with_reducible refine State.takeDesc_keep_of (by assumption) ?_
      | exact trivial
      | fail_if_no_progress change Keep _ _
  | succ _ ih =>
    rw [State.readDescs]
    repeat' first
      | with_reducible assumption
      | with_reducible refine ih ?_
      | with_reducible refine State.hallRead_keep ?_
      | with_reducible refine State.hallRead_keep_error (by assumption) ?_
      | with_reducible refine State.takeDesc_keep_of (by assumption) ?_
      | exact trivial
      | fail_if_no_progress change Keep _ _
      | with_reducible refine Keep.foldl (fun _ _ _ => ?_) ?_
      | with_reducible refine Keep.foldl_snd (fun _ _ _ => ?_) ?_
      | split
theorem State.readDescs_keep_ok {x0 : ℕ} {x1 : ℕ} {x2 : State}  {t1 : State} (e : State.readDescs x0 x1 x2 = .ok t1) (hk : Keep s0 x2) : Keep s0 t1 := by
  have k := State.readDescs_keep (s0 := s0) (x0 := x0) (x1 := x1) (x2 := x2) hk
  rw [e] at k
  exact k

theorem State.tooLate_keep {s : State} {n : ℕ} {tag : ℕ} {stale : Bool} (hk : Keep s0 s) :
    Keep s0 (State.tooLate s n tag stale) := by
  unfold State.tooLate
  repeat' first
    | with_reducible assumption
    | with_reducible refine State.holdRec_keep ?_

theorem State.waitAbort_keep {s : State} {n : ℕ} {c : Cmd} {j : WaitJob} (hk : Keep s0 s) :
    Keep s0 (State.waitAbort s n c j) := by
  unfold State.waitAbort
  repeat' first
    | with_reducible assumption
    | with_reducible refine State.setWaiters_keep ?_
    | with_reducible refine State.setCmd_keep ?_

theorem State.pressAbort_keep {s : State} {n : ℕ} {c : Cmd} {j : PressJob} (hk : Keep s0 s) :
    PKeep s0 (State.pressAbort s n c j) := by
  unfold State.pressAbort
  repeat' first
    | with_reducible assumption
    | with_reducible refine State.setCmd_keep ?_
    | with_reducible refine State.pressSettle_keep ?_
    | with_reducible refine State.dropXfers_keep ?_
    | refine PKeep.some ?_
    | exact PKeep.none
    | with_reducible refine Keep.foldl (fun _ _ _ => ?_) ?_
    | with_reducible refine Keep.foldl_snd (fun _ _ _ => ?_) ?_
    | split
theorem State.pressAbort_keep_of {s : State} {n : ℕ} {c : Cmd} {j : PressJob} {t1 : State} (e : State.pressAbort s n c j = some t1) (hk : Keep s0 s) : Keep s0 t1 := State.pressAbort_keep hk t1 e

theorem State.dumpAbort_keep {s : State} {n : ℕ} {c : Cmd} {j : DumpJob} (hk : Keep s0 s) :
    Keep s0 (State.dumpAbort s n c j) := by
  unfold State.dumpAbort
  repeat' first
    | with_reducible assumption
    | with_reducible refine State.setCmd_keep ?_
    | with_reducible refine State.dropXfers_keep ?_

theorem State.reduceAbort_keep {s : State} {n : ℕ} {c : Cmd} {j : ReduceJob} (hk : Keep s0 s) :
    Keep s0 (State.reduceAbort s n c j) := by
  unfold State.reduceAbort
  repeat' first
    | with_reducible assumption
    | with_reducible refine State.settleMesh_keep ?_
    | with_reducible refine State.setCmd_keep ?_

theorem State.mcastAbort_keep {s : State} {n : ℕ} {c : Cmd} {j : McastJob} (hk : Keep s0 s) :
    Keep s0 (State.mcastAbort s n c j) := by
  unfold State.mcastAbort
  repeat' first
    | with_reducible assumption
    | with_reducible refine State.settleMesh_keep ?_
    | with_reducible refine State.setCmd_keep ?_

theorem State.setFab_keep {s : State} {f : Fabric} (hk : Keep s0 s) :
    Keep s0 (State.setFab s f) := by
  unfold State.setFab
  repeat' first
    | with_reducible assumption
    | with_reducible refine Keep.foldl (fun _ _ _ => ?_) ?_
    | with_reducible refine Keep.foldl_snd (fun _ _ _ => ?_) ?_
    | split
    | fail_if_no_progress ((with_reducible refine Keep.upd ?_ ?_); exact rfl)

theorem State.settleFab_keep {s : State} {n : ℕ} {tag : ℕ} {status : ℕ} {position : ℕ} (hk : Keep s0 s) :
    Keep s0 (State.settleFab s n tag status position) := by
  unfold State.settleFab
  repeat' first
    | with_reducible assumption
    | with_reducible refine State.settleCmd_keep ?_
    | with_reducible refine State.progressFor_keep ?_
    | with_reducible refine State.dropXfers_keep ?_
    | with_reducible refine State.setFab_keep ?_

theorem State.gatherAbort_keep {s : State} {n : ℕ} {c : Cmd} {j : GatherJob} (hk : Keep s0 s) :
    Keep s0 (State.gatherAbort s n c j) := by
  unfold State.gatherAbort
  repeat' first
    | with_reducible assumption
    | with_reducible refine State.settleMesh_keep ?_
    | with_reducible refine State.setCmd_keep ?_

theorem State.ingestAbort_keep {s : State} {n : ℕ} {c : Cmd} {j : IngestJob} (hk : Keep s0 s) :
    Keep s0 (State.ingestAbort s n c j) := by
  unfold State.ingestAbort
  repeat' first
    | with_reducible assumption
    | with_reducible refine State.ingestEnds_keep ?_
    | with_reducible refine State.setCmd_keep ?_

theorem State.abortCmd_keep {s : State} {n : ℕ} {c : Cmd} (hk : Keep s0 s) :
    PKeep s0 (State.abortCmd s n c) := by
  unfold State.abortCmd
  repeat' first
    | with_reducible assumption
    | with_reducible refine State.setWaiters_keep ?_
    | with_reducible refine State.abortUnstarted_keep ?_
    | with_reducible refine State.setCmd_keep ?_
    | with_reducible refine State.dropXfers_keep ?_
    | with_reducible refine State.computeAbort_keep_of (by assumption) ?_
    | with_reducible refine State.countHeld_keep ?_
    | with_reducible refine State.dmaAbort_keep_of (by assumption) ?_
    | with_reducible refine State.waitAbort_keep ?_
    | with_reducible refine State.pressAbort_keep_of (by assumption) ?_
    | with_reducible refine State.dumpAbort_keep ?_
    | with_reducible refine State.reduceAbort_keep ?_
    | with_reducible refine State.mcastAbort_keep ?_
    | with_reducible refine State.settleFab_keep ?_
    | with_reducible refine State.gatherAbort_keep ?_
    | with_reducible refine State.collRaise_keep ?_
    | with_reducible refine State.ingestAbort_keep ?_
    | refine PKeep.some ?_
    | exact PKeep.none
    | with_reducible refine Keep.foldl (fun _ _ _ => ?_) ?_
    | with_reducible refine Keep.foldl_snd (fun _ _ _ => ?_) ?_
    | split
    | dsimp only
    | intro _
theorem State.abortCmd_keep_of {s : State} {n : ℕ} {c : Cmd} {t1 : State} (e : State.abortCmd s n c = some t1) (hk : Keep s0 s) : Keep s0 t1 := State.abortCmd_keep hk t1 e

theorem State.takeAbort_keep {s : State} {n : ℕ} {tag : ℕ} (hk : Keep s0 s) :
    Keep s0 (State.takeAbort s n tag) := by
  unfold State.takeAbort
  repeat' first
    | with_reducible assumption
    | with_reducible refine State.tooLate_keep ?_
    | with_reducible refine State.hostWrite_keep ?_
    | with_reducible refine State.setCtx_keep ?_
    | with_reducible refine State.abortCmd_keep_of (by assumption) ?_
    | with_reducible refine Keep.foldl (fun _ _ _ => ?_) ?_
    | with_reducible refine Keep.foldl_snd (fun _ _ _ => ?_) ?_
    | split
    | fail_if_no_progress ((with_reducible refine Keep.upd ?_ ?_); exact rfl)
    | dsimp only

theorem State.takeAborts_keep {s : State} {n : ℕ} {page : ℕ} {x3 : ℕ} (hk : Keep s0 s) :
    Keep s0 (State.takeAborts s n page x3) := by
  induction x3 generalizing s with
  | zero =>
    rw [State.takeAborts]
    repeat' first
      | with_reducible assumption
  | succ _ ih =>
    rw [State.takeAborts]
    repeat' first
      | with_reducible assumption
      | with_reducible refine ih ?_
      | with_reducible refine State.takeAbort_keep ?_
      | with_reducible refine State.setCtx_keep ?_

theorem State.takeWords_keep {s : State} {n : ℕ} {page : ℕ} (hk : Keep s0 s) :
    Keep s0 (State.takeWords s n page) := by
  unfold State.takeWords
  repeat' first
    | with_reducible assumption
    | with_reducible refine State.takeAborts_keep ?_
    | with_reducible refine State.setCtx_keep ?_

theorem State.loadPress_keep {s : State} {n : ℕ} {c : Cmd} (hk : Keep s0 s) :
    LoadRes.Keeps s0 (State.loadPress s n c) := by
  unfold State.loadPress
  repeat' first
    | with_reducible assumption
    | with_reducible refine State.thRead_keep ?_
    | with_reducible refine State.thRead_keep_ok (by assumption) ?_
    | with_reducible refine State.thRead_keep_fault (by assumption) ?_
    | with_reducible refine State.thRead_keep_again (by assumption) ?_
    | with_reducible refine State.thRead_keep_wait (by assumption) ?_
    | with_reducible refine State.thRead_keep_lost (by assumption) ?_
    | with_reducible refine State.settleCmd_keep ?_
    | with_reducible refine State.cmdFault_keep ?_
    | with_reducible refine State.updCmd_keep ?_
    | exact trivial
    | fail_if_no_progress change Keep _ _
    | with_reducible refine Keep.foldl (fun _ _ _ => ?_) ?_
    | with_reducible refine Keep.foldl_snd (fun _ _ _ => ?_) ?_
    | split
    | dsimp only
theorem State.loadPress_keep_ok {s : State} {n : ℕ} {c : Cmd}  {t1 : State} (e : State.loadPress s n c = .ok t1) (hk : Keep s0 s) : Keep s0 t1 := by
  have k := State.loadPress_keep (s0 := s0) (s := s) (n := n) (c := c) hk
  rw [e] at k
  exact k

theorem State.loadIngest_keep {s : State} {n : ℕ} {c : Cmd} (hk : Keep s0 s) :
    LoadRes.Keeps s0 (State.loadIngest s n c) := by
  unfold State.loadIngest
  repeat' first
    | with_reducible assumption
    | with_reducible refine State.thRead_keep ?_
    | with_reducible refine State.thRead_keep_ok (by assumption) ?_
    | with_reducible refine State.thRead_keep_fault (by assumption) ?_
    | with_reducible refine State.thRead_keep_again (by assumption) ?_
    | with_reducible refine State.thRead_keep_wait (by assumption) ?_
    | with_reducible refine State.thRead_keep_lost (by assumption) ?_
    | with_reducible refine State.settleCmd_keep ?_
    | with_reducible refine State.updCmd_keep ?_
    | exact trivial
    | fail_if_no_progress change Keep _ _
    | with_reducible refine Keep.foldl (fun _ _ _ => ?_) ?_
    | with_reducible refine Keep.foldl_snd (fun _ _ _ => ?_) ?_
    | split
    | dsimp only
theorem State.loadIngest_keep_ok {s : State} {n : ℕ} {c : Cmd}  {t1 : State} (e : State.loadIngest s n c = .ok t1) (hk : Keep s0 s) : Keep s0 t1 := by
  have k := State.loadIngest_keep (s0 := s0) (s := s) (n := n) (c := c) hk
  rw [e] at k
  exact k

theorem State.loadRecord_keep {s : State} {n : ℕ} {c : Cmd} (hk : Keep s0 s) :
    LoadRes.Keeps s0 (State.loadRecord s n c) := by
  unfold State.loadRecord
  repeat' first
    | with_reducible assumption
    | with_reducible refine State.loadPress_keep ?_
    | with_reducible refine State.loadPress_keep_ok (by assumption) ?_
    | with_reducible refine State.loadIngest_keep ?_
    | with_reducible refine State.loadIngest_keep_ok (by assumption) ?_
    | exact trivial
    | fail_if_no_progress change Keep _ _
    | with_reducible refine Keep.foldl (fun _ _ _ => ?_) ?_
    | with_reducible refine Keep.foldl_snd (fun _ _ _ => ?_) ?_
    | split
theorem State.loadRecord_keep_ok {s : State} {n : ℕ} {c : Cmd}  {t1 : State} (e : State.loadRecord s n c = .ok t1) (hk : Keep s0 s) : Keep s0 t1 := by
  have k := State.loadRecord_keep (s0 := s0) (s := s) (n := n) (c := c) hk
  rw [e] at k
  exact k

theorem State.loadRecords_keep {n : ℕ} {x1 : List ℕ} {x2 : State} (hk : Keep s0 x2) :
    DescRead.Keeps s0 (State.loadRecords n x1 x2) := by
  induction x1 generalizing x2 with
  | nil =>
    rw [State.loadRecords]
    repeat' first
      | with_reducible assumption
      | with_reducible refine ih ?_
      | with_reducible refine State.loadRecord_keep ?_
      | with_reducible refine State.loadRecord_keep_ok (by assumption) ?_
      | exact trivial
      | fail_if_no_progress change Keep _ _
  | cons _ _ ih =>
    rw [State.loadRecords]
    repeat' first
      | with_reducible assumption
      | with_reducible refine ih ?_
      | with_reducible refine State.loadRecord_keep ?_
      | with_reducible refine State.loadRecord_keep_ok (by assumption) ?_
      | exact trivial
      | fail_if_no_progress change Keep _ _
      | with_reducible refine Keep.foldl (fun _ _ _ => ?_) ?_
      | with_reducible refine Keep.foldl_snd (fun _ _ _ => ?_) ?_
      | split
theorem State.loadRecords_keep_ok {n : ℕ} {x1 : List ℕ} {x2 : State}  {t1 : State} (e : State.loadRecords n x1 x2 = .ok t1) (hk : Keep s0 x2) : Keep s0 t1 := by
  have k := State.loadRecords_keep (s0 := s0) (n := n) (x1 := x1) (x2 := x2) hk
  rw [e] at k
  exact k

theorem State.writeHeads_keep {s : State} {n : ℕ} {x : Ctx} (hk : Keep s0 s) :
    Keep s0 (State.writeHeads s n x) := by
  unfold State.writeHeads
  repeat' first
    | with_reducible assumption
    | with_reducible refine State.hostWrite_keep ?_
    | with_reducible refine Keep.foldl (fun _ _ _ => ?_) ?_
    | with_reducible refine Keep.foldl_snd (fun _ _ _ => ?_) ?_
    | split
    | fail_if_no_progress ((with_reducible refine Keep.upd ?_ ?_); exact rfl)
    | dsimp only

theorem State.poll_keep {s : State} {n : ℕ} (hk : Keep s0 s) :
    OKeep s0 (State.poll s n) := by
  rw [State.poll]
  repeat' first
    | with_reducible assumption
    | with_reducible refine State.hallRead_keep ?_
    | with_reducible refine State.hallRead_keep_error (by assumption) ?_
    | with_reducible refine State.markPolled_keep ?_
    | with_reducible refine State.readDescs_keep ?_
    | with_reducible refine State.readDescs_keep_ok (by assumption) ?_
    | with_reducible refine State.takeWords_keep ?_
    | with_reducible refine State.loadRecords_keep ?_
    | with_reducible refine State.loadRecords_keep_ok (by assumption) ?_
    | with_reducible refine State.writeHeads_keep ?_
    | with_reducible refine OKeep.next ?_
    | with_reducible exact OKeep.fault
    | with_reducible exact OKeep.refused
    | with_reducible refine Keep.foldl (fun _ _ _ => ?_) ?_
    | with_reducible refine Keep.foldl_snd (fun _ _ _ => ?_) ?_
    | split
theorem State.poll_keep_of {s : State} {n : ℕ} {t1 : State} (e : State.poll s n = .next t1) (hk : Keep s0 s) : Keep s0 t1 := State.poll_keep hk t1 e

theorem execDoorbellPoll_keep {n : ℕ} {s : State} (hk : Keep s0 s) :
    OKeep s0 (execDoorbellPoll n s) := by
  unfold execDoorbellPoll
  repeat' first
    | with_reducible assumption
    | with_reducible refine State.poll_keep ?_
    | with_reducible refine State.poll_keep_of (by assumption) ?_
    | with_reducible refine OKeep.next ?_
    | with_reducible exact OKeep.fault
    | with_reducible exact OKeep.refused
    | with_reducible refine Keep.foldl (fun _ _ _ => ?_) ?_
    | with_reducible refine Keep.foldl_snd (fun _ _ _ => ?_) ?_
    | split

theorem State.setPressEng_keep {s : State} {p : ℕ} {e : PressEng} (hk : Keep s0 s) :
    Keep s0 (State.setPressEng s p e) := by
  unfold State.setPressEng
  repeat' first
    | with_reducible assumption
    | with_reducible refine Keep.foldl (fun _ _ _ => ?_) ?_
    | with_reducible refine Keep.foldl_snd (fun _ _ _ => ?_) ?_
    | split
    | fail_if_no_progress ((with_reducible refine Keep.upd ?_ ?_); exact rfl)

theorem State.pressUnitFault_keep {s : State} {n : ℕ} {tag : ℕ} {p : ℕ} {cause : ℕ} (hk : Keep s0 s) :
    Keep s0 (State.pressUnitFault s n tag p cause) := by
  unfold State.pressUnitFault
  repeat' first
    | with_reducible assumption
    | with_reducible refine State.pressSettle_keep ?_
    | with_reducible refine State.updPress_keep ?_
    | with_reducible refine State.setPressEng_keep ?_

theorem State.ingestFault_keep {s : State} {n : ℕ} {tag : ℕ} {share : ℕ} {f : AccFault} {write : Bool} (hk : Keep s0 s) :
    Keep s0 (State.ingestFault s n tag share f write) := by
  unfold State.ingestFault
  repeat' first
    | with_reducible assumption
    | with_reducible refine State.ingestEnds_keep ?_
    | with_reducible refine State.cmdFaultRec_keep ?_

theorem execPcieCompletionTimeout_keep {w : HostReader} {s : State} (hk : Keep s0 s) :
    OKeep s0 (execPcieCompletionTimeout w s) := by
  unfold execPcieCompletionTimeout
  repeat' first
    | with_reducible assumption
    | with_reducible refine State.hostReadError_keep ?_
    | with_reducible refine State.dmaFault_keep ?_
    | with_reducible refine State.dropXfer_keep ?_
    | with_reducible refine State.pressUnitFault_keep ?_
    | with_reducible refine State.cmdFaultRec_keep ?_
    | with_reducible refine State.engineReadFails_keep ?_
    | with_reducible refine State.ingestFault_keep ?_
    | with_reducible refine State.progress_keep ?_
    | with_reducible refine State.accFault_keep ?_
    | with_reducible refine OKeep.next ?_
    | with_reducible exact OKeep.fault
    | with_reducible exact OKeep.refused
    | with_reducible refine Keep.foldl (fun _ _ _ => ?_) ?_
    | with_reducible refine Keep.foldl_snd (fun _ _ _ => ?_) ?_
    | split
    | dsimp only

theorem execProgressWrite_keep {n : ℕ} {tag : ℕ} {s : State} (hk : Keep s0 s) :
    OKeep s0 (execProgressWrite n tag s) := by
  unfold execProgressWrite
  repeat' first
    | with_reducible assumption
    | with_reducible refine State.writeProgress_keep ?_
    | with_reducible refine OKeep.next ?_
    | with_reducible exact OKeep.fault
    | with_reducible exact OKeep.refused
    | with_reducible refine Keep.foldl (fun _ _ _ => ?_) ?_
    | with_reducible refine Keep.foldl_snd (fun _ _ _ => ?_) ?_
    | split

theorem State.settleResult_keep {s : State} {n : ℕ} {tag : ℕ} {status : ℕ} {cause : ℕ} {result : ℕ} (hk : Keep s0 s) :
    Keep s0 (State.settleResult s n tag status cause result) := by
  unfold State.settleResult
  repeat' first
    | with_reducible assumption
    | with_reducible refine State.updCmd_keep ?_

theorem State.applyInit_keep {s : State} {n : ℕ} {c : Cmd} (hk : Keep s0 s) :
    Keep s0 (State.applyInit s n c) := by
  unfold State.applyInit
  repeat' first
    | with_reducible assumption
    | with_reducible refine State.settleCmd_keep ?_
    | with_reducible refine State.settleResult_keep ?_
    | with_reducible refine State.changeObj_keep ?_
    | with_reducible refine Keep.foldl (fun _ _ _ => ?_) ?_
    | with_reducible refine Keep.foldl_snd (fun _ _ _ => ?_) ?_
    | split
    | fail_if_no_progress ((with_reducible refine Keep.upd ?_ ?_); exact rfl)
    | dsimp only

theorem State.dumpWrite_keep {s : State} {n tag va : Nat} {v : View} {go : State → State} (hg : ∀ t, Keep s0 t → Keep s0 (go t))
    (h : Keep s0 s) : Keep s0 (s.dumpWrite n tag va v go) := by
  unfold State.dumpWrite
  repeat' first
    | with_reducible assumption
    | with_reducible refine hg _ ?_
    | with_reducible refine State.thWrite_keep ?_
    | with_reducible refine State.thWrite_keep_ok (by assumption) ?_
    | with_reducible refine State.thWrite_keep_wait (by assumption) ?_
    | with_reducible refine State.thWrite_keep_lost (by assumption) ?_
    | with_reducible refine State.settleCmd_keep ?_
    | with_reducible refine Keep.foldl (fun _ _ _ => ?_) ?_
    | with_reducible refine Keep.foldl_snd (fun _ _ _ => ?_) ?_
    | split

theorem State.dumpEnds_keep {s : State} {n : ℕ} {c : Cmd} {j : DumpJob} (hk : Keep s0 s) :
    Keep s0 (State.dumpEnds s n c j) := by
  unfold State.dumpEnds
  repeat' first
    | with_reducible assumption
    | with_reducible refine State.dumpWrite_keep (fun _ _ => ?_) ?_
    | with_reducible refine State.settleCmd_keep ?_

theorem State.dumpStep_keep {s : State} {n : ℕ} {c : Cmd} {j : DumpJob} (hk : Keep s0 s) :
    Keep s0 (State.dumpStep s n c j) := by
  unfold State.dumpStep
  repeat' first
    | with_reducible assumption
    | with_reducible refine State.updCmd_keep ?_
    | with_reducible refine State.dumpWrite_keep (fun _ _ => ?_) ?_
    | with_reducible refine State.dumpEnds_keep ?_
    | with_reducible refine Keep.foldl (fun _ _ _ => ?_) ?_
    | with_reducible refine Keep.foldl_snd (fun _ _ _ => ?_) ?_
    | split

theorem State.hostWait_keep {s : State} {n : ℕ} {tag : ℕ} {j : WaitJob} (hk : Keep s0 s) :
    Keep s0 (State.hostWait s n tag j) := by
  unfold State.hostWait
  repeat' first
    | with_reducible assumption
    | with_reducible refine State.waitObj_keep ?_
    | with_reducible refine State.waitObj_keep_of (by assumption) ?_
    | with_reducible refine State.settleResult_keep ?_
    | with_reducible refine State.settleCmd_keep ?_
    | with_reducible refine State.updCmd_keep ?_
    | with_reducible refine Keep.foldl (fun _ _ _ => ?_) ?_
    | with_reducible refine Keep.foldl_snd (fun _ _ _ => ?_) ?_
    | split
    | fail_if_no_progress ((with_reducible refine Keep.upd ?_ ?_); exact rfl)
    | dsimp only

theorem State.xlateWaits_keep {s : State} {n : ℕ} {tag : ℕ} {j : XlateJob} (hk : Keep s0 s) :
    Keep s0 (State.xlateWaits s n tag j) := by
  unfold State.xlateWaits
  repeat' first
    | with_reducible assumption
    | with_reducible refine State.settleCmd_keep ?_
    | with_reducible refine State.updCmd_keep ?_
    | with_reducible refine Keep.foldl (fun _ _ _ => ?_) ?_
    | with_reducible refine Keep.foldl_snd (fun _ _ _ => ?_) ?_
    | split

theorem execSyncDump_keep {n : ℕ} {tag : ℕ} {s : State} (hk : Keep s0 s) :
    OKeep s0 (execSyncDump n tag s) := by
  unfold execSyncDump
  repeat' first
    | with_reducible assumption
    | with_reducible refine State.settleCmd_keep ?_
    | with_reducible refine State.startJob_keep ?_
    | with_reducible refine State.dumpStep_keep ?_
    | with_reducible refine OKeep.next ?_
    | with_reducible exact OKeep.fault
    | with_reducible exact OKeep.refused
    | with_reducible refine Keep.foldl (fun _ _ _ => ?_) ?_
    | with_reducible refine Keep.foldl_snd (fun _ _ _ => ?_) ?_
    | split
    | dsimp only

theorem execSyncInit_keep {n : ℕ} {tag : ℕ} {s : State} (hk : Keep s0 s) :
    OKeep s0 (execSyncInit n tag s) := by
  unfold execSyncInit
  repeat' first
    | with_reducible assumption
    | with_reducible refine State.setCmd_keep ?_
    | with_reducible refine State.applyInit_keep ?_
    | with_reducible refine OKeep.next ?_
    | with_reducible exact OKeep.fault
    | with_reducible exact OKeep.refused
    | with_reducible refine Keep.foldl (fun _ _ _ => ?_) ?_
    | with_reducible refine Keep.foldl_snd (fun _ _ _ => ?_) ?_
    | split

theorem execSyncInitHoldEnd_keep {n : ℕ} {tag : ℕ} {s : State} (hk : Keep s0 s) :
    OKeep s0 (execSyncInitHoldEnd n tag s) := by
  unfold execSyncInitHoldEnd
  repeat' first
    | with_reducible assumption
    | with_reducible refine State.applyInit_keep ?_
    | with_reducible refine OKeep.next ?_
    | with_reducible exact OKeep.fault
    | with_reducible exact OKeep.refused
    | with_reducible refine Keep.foldl (fun _ _ _ => ?_) ?_
    | with_reducible refine Keep.foldl_snd (fun _ _ _ => ?_) ?_
    | split

theorem execSyncRetire_keep {n : ℕ} {tag : ℕ} {s : State} (hk : Keep s0 s) :
    OKeep s0 (execSyncRetire n tag s) := by
  unfold execSyncRetire
  repeat' first
    | with_reducible assumption
    | with_reducible refine State.settleResult_keep ?_
    | with_reducible refine State.countStale_keep ?_
    | with_reducible refine State.changeObj_keep ?_
    | with_reducible refine OKeep.next ?_
    | with_reducible exact OKeep.fault
    | with_reducible exact OKeep.refused
    | with_reducible refine Keep.foldl (fun _ _ _ => ?_) ?_
    | with_reducible refine Keep.foldl_snd (fun _ _ _ => ?_) ?_
    | split
    | fail_if_no_progress ((with_reducible refine Keep.upd ?_ ?_); exact rfl)
    | dsimp only

theorem execSyncSignal_keep {n : ℕ} {tag : ℕ} {s : State} (hk : Keep s0 s) :
    OKeep s0 (execSyncSignal n tag s) := by
  unfold execSyncSignal
  repeat' first
    | with_reducible assumption
    | with_reducible refine State.signalFor_keep ?_
    | with_reducible refine State.signalFor_keep_of (by assumption) ?_
    | with_reducible refine State.settleCmd_keep ?_
    | with_reducible refine State.settleResult_keep ?_
    | with_reducible refine OKeep.next ?_
    | with_reducible exact OKeep.fault
    | with_reducible exact OKeep.refused
    | with_reducible refine Keep.foldl (fun _ _ _ => ?_) ?_
    | with_reducible refine Keep.foldl_snd (fun _ _ _ => ?_) ?_
    | split
    | dsimp only

theorem execSyncWait_keep {n : ℕ} {tag : ℕ} {s : State} (hk : Keep s0 s) :
    OKeep s0 (execSyncWait n tag s) := by
  unfold execSyncWait
  repeat' first
    | with_reducible assumption
    | with_reducible refine State.settleCmd_keep ?_
    | with_reducible refine State.setWaiters_keep ?_
    | with_reducible refine State.hostWait_keep ?_
    | with_reducible refine OKeep.next ?_
    | with_reducible exact OKeep.fault
    | with_reducible exact OKeep.refused
    | with_reducible refine Keep.foldl (fun _ _ _ => ?_) ?_
    | with_reducible refine Keep.foldl_snd (fun _ _ _ => ?_) ?_
    | split
    | dsimp only

theorem execSyncWaitTimeLimit_keep {n : ℕ} {tag : ℕ} {s : State} (hk : Keep s0 s) :
    OKeep s0 (execSyncWaitTimeLimit n tag s) := by
  unfold execSyncWaitTimeLimit
  repeat' first
    | with_reducible assumption
    | with_reducible refine State.hostWait_keep ?_
    | with_reducible refine State.setWaiters_keep ?_
    | with_reducible refine State.settleResult_keep ?_
    | with_reducible refine OKeep.next ?_
    | with_reducible exact OKeep.fault
    | with_reducible exact OKeep.refused
    | with_reducible refine Keep.foldl (fun _ _ _ => ?_) ?_
    | with_reducible refine Keep.foldl_snd (fun _ _ _ => ?_) ?_
    | split
    | dsimp only

theorem execXlateInv_keep {n : ℕ} {tag : ℕ} {s : State} (hk : Keep s0 s) :
    OKeep s0 (execXlateInv n tag s) := by
  unfold execXlateInv
  repeat' first
    | with_reducible assumption
    | with_reducible refine State.xlateWaits_keep ?_
    | with_reducible refine State.dropXlat_keep ?_
    | with_reducible refine OKeep.next ?_
    | with_reducible exact OKeep.fault
    | with_reducible exact OKeep.refused
    | with_reducible refine Keep.foldl (fun _ _ _ => ?_) ?_
    | with_reducible refine Keep.foldl_snd (fun _ _ _ => ?_) ?_
    | split

theorem State.tapSelect_keep {s : State} {ir : ℕ} {bits : ℕ} {dr : ℕ} (hk : Keep s0 s) :
    Keep s0 (State.tapSelect s ir bits dr) := by
  unfold State.tapSelect
  repeat' first
    | with_reducible assumption
    | with_reducible refine State.startBoot_keep ?_
    | with_reducible refine State.setTap_keep ?_

theorem State.tapBypass_keep {s : State} {ir : ℕ} (hk : Keep s0 s) :
    Keep s0 (State.tapBypass s ir) := by
  unfold State.tapBypass
  repeat' first
    | with_reducible assumption
    | with_reducible refine State.tapSelect_keep ?_

theorem State.tapControl_keep {s : State} {ir : ℕ} {f : Tap → Tap} (hk : Keep s0 s) :
    Keep s0 (State.tapControl s ir f) := by
  unfold State.tapControl
  repeat' first
    | with_reducible assumption
    | with_reducible refine State.tapBypass_keep ?_
    | with_reducible refine State.setTap_keep ?_
    | with_reducible refine Keep.foldl (fun _ _ _ => ?_) ?_
    | with_reducible refine Keep.foldl_snd (fun _ _ _ => ?_) ?_
    | split

theorem State.withTap_keep {s : State} {t : State} (hk : Keep s0 s) (h2 : Keep s0 t) :
    OKeep s0 (State.withTap s t) := by
  unfold State.withTap
  repeat' first
    | with_reducible assumption
    | with_reducible refine OKeep.next ?_
    | with_reducible exact OKeep.fault
    | with_reducible exact OKeep.refused
    | with_reducible refine Keep.foldl (fun _ _ _ => ?_) ?_
    | with_reducible refine Keep.foldl_snd (fun _ _ _ => ?_) ?_
    | split

theorem execBypass_keep {s : State} (hk : Keep s0 s) :
    OKeep s0 (execBypass s) := by
  unfold execBypass
  repeat' first
    | with_reducible assumption
    | with_reducible refine State.withTap_keep ?_ ?_
    | with_reducible refine State.tapBypass_keep ?_

theorem execClamp_keep {s : State} (hk : Keep s0 s) :
    OKeep s0 (execClamp s) := by
  unfold execClamp
  repeat' first
    | with_reducible assumption
    | with_reducible refine State.withTap_keep ?_ ?_
    | with_reducible refine State.tapControl_keep ?_

theorem execExtest_keep {pins : ℕ} {cells : ℕ} {s : State} (hk : Keep s0 s) :
    OKeep s0 (execExtest pins cells s) := by
  unfold execExtest
  repeat' first
    | with_reducible assumption
    | with_reducible refine State.withTap_keep ?_ ?_
    | with_reducible refine State.tapControl_keep ?_

theorem execExtestPulse_keep {pins : ℕ} {cells : ℕ} {s : State} (hk : Keep s0 s) :
    OKeep s0 (execExtestPulse pins cells s) := by
  unfold execExtestPulse
  repeat' first
    | with_reducible assumption
    | with_reducible refine State.withTap_keep ?_ ?_
    | with_reducible refine State.tapControl_keep ?_

theorem execExtestTrain_keep {pins : ℕ} {cells : ℕ} {s : State} (hk : Keep s0 s) :
    OKeep s0 (execExtestTrain pins cells s) := by
  unfold execExtestTrain
  repeat' first
    | with_reducible assumption
    | with_reducible refine State.withTap_keep ?_ ?_
    | with_reducible refine State.tapControl_keep ?_

theorem execHighz_keep {s : State} (hk : Keep s0 s) :
    OKeep s0 (execHighz s) := by
  unfold execHighz
  repeat' first
    | with_reducible assumption
    | with_reducible refine State.withTap_keep ?_ ?_
    | with_reducible refine State.tapControl_keep ?_

theorem execIdcode_keep {s : State} (hk : Keep s0 s) :
    OKeep s0 (execIdcode s) := by
  unfold execIdcode
  repeat' first
    | with_reducible assumption
    | with_reducible refine State.withTap_keep ?_ ?_
    | with_reducible refine State.tapSelect_keep ?_

end Sys2Proof.Machine
end

