-- ==== Sys2Proof/Laws/Keep04.lean ====
section
/-! SUPPORT. The operations of the model and the frame `Keep`, part 4. -/

namespace Sys2Proof.Machine

open Sys2Proof

variable {s0 : State}

theorem execSamplePreload_keep {pins : ℕ} {cells : ℕ} {s : State} (hk : Keep s0 s) :
    OKeep s0 (execSamplePreload pins cells s) := by
  unfold execSamplePreload
  repeat' first
    | with_reducible assumption
    | with_reducible refine State.withTap_keep ?_ ?_
    | with_reducible refine State.startBoot_keep ?_
    | with_reducible refine State.setTap_keep ?_

theorem execTapReset_keep {s : State} (hk : Keep s0 s) :
    OKeep s0 (execTapReset s) := by
  unfold execTapReset
  repeat' first
    | with_reducible assumption
    | with_reducible refine State.startBoot_keep ?_
    | with_reducible refine State.setTap_keep ?_
    | with_reducible refine OKeep.next ?_

theorem State.portTrain_keep {s : State} {p : ℕ} (hk : Keep s0 s) :
    Keep s0 (State.portTrain s p) := by
  unfold State.portTrain
  repeat' first
    | with_reducible assumption
    | with_reducible refine State.setPort_keep ?_
    | with_reducible refine Keep.foldl (fun _ _ _ => ?_) ?_
    | with_reducible refine Keep.foldl_snd (fun _ _ _ => ?_) ?_
    | split

theorem State.applySeal_keep {s : State} (hk : Keep s0 s) :
    Keep s0 (State.applySeal s) := by
  unfold State.applySeal
  repeat' first
    | with_reducible assumption
    | with_reducible refine State.setReg_keep ?_
    | with_reducible refine State.measureSeal_keep ?_
    | with_reducible refine State.setFlag_keep ?_
    | with_reducible refine State.portTrain_keep ?_
    | with_reducible refine Keep.foldl (fun _ _ _ => ?_) ?_

theorem State.coreLost_keep {s : State} {c : ℕ} {node : ℕ} {xid : ℕ} (hk : Keep s0 s) :
    Keep s0 (State.coreLost s c node xid) := by
  unfold State.coreLost
  repeat' first
    | with_reducible assumption
    | with_reducible refine State.setCore_keep ?_
    | with_reducible refine State.coreTimeout_keep ?_
    | with_reducible refine Keep.foldl (fun _ _ _ => ?_) ?_
    | with_reducible refine Keep.foldl_snd (fun _ _ _ => ?_) ?_
    | split
    | fail_if_no_progress ((with_reducible refine Keep.upd ?_ ?_); exact rfl)
    | dsimp only

theorem State.fmcastCheck_keep {s : State} {n : ℕ} {tag : ℕ} (hk : Keep s0 s) :
    Keep s0 (State.fmcastCheck s n tag) := by
  unfold State.fmcastCheck
  repeat' first
    | with_reducible assumption
    | with_reducible refine State.settleFab_keep ?_
    | with_reducible refine State.progressFor_keep ?_
    | with_reducible refine Keep.foldl (fun _ _ _ => ?_) ?_
    | with_reducible refine Keep.foldl_snd (fun _ _ _ => ?_) ?_
    | split
    | fail_if_no_progress ((with_reducible refine Keep.upd ?_ ?_); exact rfl)
    | dsimp only

theorem State.setMcast_keep {s : State} {n : ℕ} {tag : ℕ} {f : McastJob → McastJob} (hk : Keep s0 s) :
    Keep s0 (State.setMcast s n tag f) := by
  unfold State.setMcast
  repeat' first
    | with_reducible assumption
    | with_reducible refine State.updCmd_keep ?_

theorem State.fmcastDead_keep {s : State} {n : ℕ} {tag : ℕ} {t : ℕ} (hk : Keep s0 s) :
    Keep s0 (State.fmcastDead s n tag t) := by
  unfold State.fmcastDead
  repeat' first
    | with_reducible assumption
    | with_reducible refine State.fmcastCheck_keep ?_
    | with_reducible refine State.setMcast_keep ?_
    | with_reducible refine State.setFab_keep ?_

theorem State.sampleFail_keep {s : State} {n : ℕ} {tag : ℕ} {pos : ℕ} {reason : ℕ} (hk : Keep s0 s) :
    Keep s0 (State.sampleFail s n tag pos reason) := by
  unfold State.sampleFail
  repeat' first
    | with_reducible assumption
    | with_reducible refine State.closeTxn_keep ?_
    | with_reducible refine State.setCmd_keep ?_
    | with_reducible refine Keep.foldl (fun _ _ _ => ?_) ?_
    | with_reducible refine Keep.foldl_snd (fun _ _ _ => ?_) ?_
    | split

theorem State.txnLost_keep {s : State} {xid : ℕ} {held : Bool} (hk : Keep s0 s) :
    Keep s0 (State.txnLost s xid held) := by
  unfold State.txnLost
  repeat' first
    | with_reducible assumption
    | with_reducible refine State.closeTxn_keep ?_
    | with_reducible refine State.coreLost_keep ?_
    | with_reducible refine State.e2eRecord_keep ?_
    | with_reducible refine State.putXfer_keep ?_
    | with_reducible refine State.fmcastDead_keep ?_
    | with_reducible refine State.sampleFail_keep ?_
    | with_reducible refine Keep.foldl (fun _ _ _ => ?_) ?_
    | with_reducible refine Keep.foldl_snd (fun _ _ _ => ?_) ?_
    | split
    | fail_if_no_progress ((with_reducible refine Keep.upd ?_ ?_); exact rfl)
    | dsimp only

theorem State.loseAll_keep {s : State} {p : Txn → Bool} (hk : Keep s0 s) :
    Keep s0 (State.loseAll s p) := by
  unfold State.loseAll
  repeat' first
    | with_reducible assumption
    | with_reducible refine State.txnLost_keep ?_
    | with_reducible refine Keep.foldl (fun _ _ _ => ?_) ?_

theorem State.rerouteFrame_keep {s : State} {f : Frame} (hk : Keep s0 s) :
    Keep s0 (State.rerouteFrame s f) := by
  unfold State.rerouteFrame
  repeat' first
    | with_reducible assumption
    | with_reducible refine State.sendFrame_keep_of (by assumption) ?_
    | with_reducible refine State.txnLost_keep ?_
    | with_reducible refine State.countDiscard_keep ?_
    | with_reducible refine Keep.foldl (fun _ _ _ => ?_) ?_
    | with_reducible refine Keep.foldl_snd (fun _ _ _ => ?_) ?_
    | split

theorem State.portDown_keep {s : State} {p : ℕ} (hk : Keep s0 s) :
    Keep s0 (State.portDown s p) := by
  unfold State.portDown
  repeat' first
    | with_reducible assumption
    | with_reducible refine State.setPort_keep ?_
    | with_reducible refine State.fabricEventAll_keep ?_
    | with_reducible refine State.setFlag_keep ?_
    | with_reducible refine State.rerouteFrame_keep ?_
    | with_reducible refine Keep.foldl (fun _ _ _ => ?_) ?_
    | with_reducible refine Keep.foldl_snd (fun _ _ _ => ?_) ?_
    | split
    | fail_if_no_progress ((with_reducible refine Keep.upd ?_ ?_); exact rfl)
    | dsimp only

theorem State.fabricOff_keep {s : State} (hk : Keep s0 s) :
    Keep s0 (State.fabricOff s) := by
  unfold State.fabricOff
  repeat' first
    | with_reducible assumption
    | with_reducible refine State.setFlag_keep ?_
    | with_reducible refine State.loseAll_keep ?_
    | with_reducible refine State.portDown_keep ?_
    | with_reducible refine Keep.foldl (fun _ _ _ => ?_) ?_

theorem State.fabricOn_keep {s : State} (hk : Keep s0 s) :
    Keep s0 (State.fabricOn s) := by
  unfold State.fabricOn
  repeat' first
    | with_reducible assumption
    | with_reducible refine State.setFlag_keep ?_
    | with_reducible refine State.setFab_keep ?_

theorem State.failMcasts_keep {s : State} {node : ℕ} (hk : Keep s0 s) :
    Keep s0 (State.failMcasts s node) := by
  unfold State.failMcasts
  repeat' first
    | with_reducible assumption
    | with_reducible refine State.fmcastDead_keep ?_
    | with_reducible refine Keep.foldl (fun _ _ _ => ?_) ?_

theorem State.freeBlocks_keep {s : State} {p : ℕ} {f : Frame} (hk : Keep s0 s) :
    Keep s0 (State.freeBlocks s p f) := by
  unfold State.freeBlocks
  repeat' first
    | with_reducible assumption
    | with_reducible refine State.setFab_keep ?_
    | with_reducible refine State.setPort_keep ?_
    | with_reducible refine Keep.foldl (fun _ _ _ => ?_) ?_
    | with_reducible refine Keep.foldl_snd (fun _ _ _ => ?_) ?_
    | split

theorem State.markFailed_keep {s : State} {node : ℕ} {from_ : ℕ} (hk : Keep s0 s) :
    Keep s0 (State.markFailed s node from_) := by
  unfold State.markFailed
  repeat' first
    | with_reducible assumption
    | with_reducible refine State.setFlag_keep ?_
    | with_reducible refine State.fabricEventAll_keep ?_
    | with_reducible refine State.setFab_keep ?_
    | with_reducible refine State.setPort_keep ?_
    | with_reducible refine State.failColls_keep ?_
    | with_reducible refine State.loseAll_keep ?_
    | with_reducible refine State.failGates_keep ?_
    | with_reducible refine State.portDown_keep ?_
    | with_reducible refine Keep.foldl (fun _ _ _ => ?_) ?_
    | with_reducible refine Keep.foldl_snd (fun _ _ _ => ?_) ?_
    | split
    | fail_if_no_progress ((with_reducible refine Keep.upd ?_ ?_); exact rfl)
    | dsimp only

theorem State.nodeFails_keep {s : State} {node : ℕ} {port : ℕ} (hk : Keep s0 s) :
    Keep s0 (State.nodeFails s node port) := by
  unfold State.nodeFails
  repeat' first
    | with_reducible assumption
    | with_reducible refine State.markFailed_keep ?_
    | with_reducible refine State.failMcasts_keep ?_
    | with_reducible refine Keep.foldl (fun _ _ _ => ?_) ?_
    | with_reducible refine Keep.foldl_snd (fun _ _ _ => ?_) ?_
    | split

theorem State.noteLink_keep {s : State} {p : ℕ} {lack : ℕ} {credit : List ℕ} (hk : Keep s0 s) :
    Keep s0 (State.noteLink s p lack credit) := by
  unfold State.noteLink
  repeat' first
    | with_reducible assumption
    | with_reducible refine State.setPort_keep ?_

theorem State.portUpNow_keep {s : State} {p : ℕ} (hk : Keep s0 s) :
    Keep s0 (State.portUpNow s p) := by
  unfold State.portUpNow
  repeat' first
    | with_reducible assumption
    | with_reducible refine State.setFlag_keep ?_
    | with_reducible refine State.setPort_keep ?_

theorem State.replyTo_keep {s : State} {f : Frame} {opc : ℕ} {status : ℕ} {payload : List Byte} {poison : ℕ} (hk : Keep s0 s) :
    Keep s0 (State.replyTo s f opc status payload poison) := by
  unfold State.replyTo
  repeat' first
    | with_reducible assumption
    | with_reducible refine State.sendLoose_keep ?_

theorem State.resend_keep {s : State} {p : ℕ} (hk : Keep s0 s) :
    Keep s0 (State.resend s p) := by
  unfold State.resend
  repeat' first
    | with_reducible assumption
    | with_reducible refine State.portDown_keep ?_
    | with_reducible refine State.countReplay_keep ?_
    | with_reducible refine State.setPort_keep ?_
    | with_reducible refine Keep.foldl (fun _ _ _ => ?_) ?_
    | with_reducible refine Keep.foldl_snd (fun _ _ _ => ?_) ?_
    | split
    | fail_if_no_progress ((with_reducible refine Keep.upd ?_ ?_); exact rfl)
    | dsimp only

theorem State.sendControl_keep {s : State} {p : ℕ} (hk : Keep s0 s) :
    Keep s0 (State.sendControl s p) := by
  unfold State.sendControl
  repeat' first
    | with_reducible assumption
    | with_reducible refine State.putLink_keep ?_
    | with_reducible refine State.setPort_keep ?_

theorem State.sendHello_keep {s : State} {p : ℕ} (hk : Keep s0 s) :
    Keep s0 (State.sendHello s p) := by
  unfold State.sendHello
  repeat' first
    | with_reducible assumption
    | with_reducible refine State.putLink_keep ?_

theorem State.sendReplayReq_keep {s : State} {p : ℕ} (hk : Keep s0 s) :
    Keep s0 (State.sendReplayReq s p) := by
  unfold State.sendReplayReq
  repeat' first
    | with_reducible assumption
    | with_reducible refine State.putLink_keep ?_
    | with_reducible refine State.setPort_keep ?_

theorem State.takeFrame_keep {s : State} {f : Frame} (hk : Keep s0 s) :
    Keep s0 (State.takeFrame s f) := by
  unfold State.takeFrame
  repeat' first
    | with_reducible assumption
    | with_reducible refine State.countDiscard_keep ?_
    | with_reducible refine State.setFab_keep ?_
    | with_reducible refine State.sendLoose_keep ?_
    | with_reducible refine State.replyTo_keep ?_
    | with_reducible refine Keep.foldl (fun _ _ _ => ?_) ?_
    | with_reducible refine Keep.foldl_snd (fun _ _ _ => ?_) ?_
    | split

theorem State.failClear_keep {s : State} {v : W32} (hk : Keep s0 s) :
    Keep s0 (State.failClear s v) := by
  unfold State.failClear
  repeat' first
    | with_reducible assumption
    | with_reducible refine State.setFab_keep ?_

theorem State.portWrite_keep {s : State} {p : ℕ} {v : W32} (hk : Keep s0 s) :
    Keep s0 (State.portWrite s p v) := by
  unfold State.portWrite
  repeat' first
    | with_reducible assumption
    | with_reducible refine State.setFld_keep ?_
    | with_reducible refine State.setFlag_keep ?_
    | with_reducible refine State.portTrain_keep ?_
    | with_reducible refine State.portDown_keep ?_
    | with_reducible refine Keep.foldl (fun _ _ _ => ?_) ?_
    | with_reducible refine Keep.foldl_snd (fun _ _ _ => ?_) ?_
    | split
    | fail_if_no_progress ((with_reducible refine Keep.upd ?_ ?_); exact rfl)
    | dsimp only

theorem State.routeWrite_keep {s : State} {v : W32} (hk : Keep s0 s) :
    Keep s0 (State.routeWrite s v) := by
  unfold State.routeWrite
  repeat' first
    | with_reducible assumption
    | with_reducible refine State.setFab_keep ?_
    | with_reducible refine State.setFld_keep ?_
    | with_reducible refine Keep.foldl (fun _ _ _ => ?_) ?_
    | with_reducible refine Keep.foldl_snd (fun _ _ _ => ?_) ?_
    | split

theorem execControl_keep {p : ℕ} {lack : ℕ} {credit : List ℕ} {s : State} (hk : Keep s0 s) :
    OKeep s0 (execControl p lack credit s) := by
  unfold execControl
  repeat' first
    | with_reducible assumption
    | with_reducible refine State.noteLink_keep ?_
    | with_reducible refine OKeep.next ?_
    | with_reducible exact OKeep.fault
    | with_reducible exact OKeep.refused
    | with_reducible refine Keep.foldl (fun _ _ _ => ?_) ?_
    | with_reducible refine Keep.foldl_snd (fun _ _ _ => ?_) ?_
    | split

theorem execDataFrameReceive_keep {p : ℕ} {lseq : ℕ} {lack : ℕ} {credit : List ℕ} {f : Frame} {eth : EthHdr} {s : State} (hk : Keep s0 s) :
    OKeep s0 (execDataFrameReceive p lseq lack credit f eth s) := by
  unfold execDataFrameReceive
  repeat' first
    | with_reducible assumption
    | with_reducible refine State.sendReplayReq_keep ?_
    | with_reducible refine State.countDiscard_keep ?_
    | with_reducible refine State.noteLink_keep ?_
    | with_reducible refine State.setPort_keep ?_
    | with_reducible refine State.setFab_keep ?_
    | with_reducible refine State.takeFrame_keep ?_
    | with_reducible refine State.freeBlocks_keep ?_
    | with_reducible refine OKeep.next ?_
    | with_reducible exact OKeep.fault
    | with_reducible exact OKeep.refused
    | with_reducible refine Keep.foldl (fun _ _ _ => ?_) ?_
    | with_reducible refine Keep.foldl_snd (fun _ _ _ => ?_) ?_
    | split
    | dsimp only

theorem execE2eTimeout_keep {xid : ℕ} {s : State} (hk : Keep s0 s) :
    OKeep s0 (execE2eTimeout xid s) := by
  unfold execE2eTimeout
  repeat' first
    | with_reducible assumption
    | with_reducible refine State.txnLost_keep ?_
    | with_reducible refine OKeep.next ?_
    | with_reducible exact OKeep.fault
    | with_reducible exact OKeep.refused
    | with_reducible refine Keep.foldl (fun _ _ _ => ?_) ?_
    | with_reducible refine Keep.foldl_snd (fun _ _ _ => ?_) ?_
    | split

theorem execFabricDisable_keep {s : State} (hk : Keep s0 s) :
    OKeep s0 (execFabricDisable s) := by
  unfold execFabricDisable
  repeat' first
    | with_reducible assumption
    | with_reducible refine State.fabricOff_keep ?_
    | with_reducible refine OKeep.next ?_
    | with_reducible exact OKeep.fault
    | with_reducible exact OKeep.refused
    | with_reducible refine Keep.foldl (fun _ _ _ => ?_) ?_
    | with_reducible refine Keep.foldl_snd (fun _ _ _ => ?_) ?_
    | split

theorem execFabricEnable_keep {s : State} (hk : Keep s0 s) :
    OKeep s0 (execFabricEnable s) := by
  unfold execFabricEnable
  repeat' first
    | with_reducible assumption
    | with_reducible refine State.fabricOn_keep ?_
    | with_reducible refine OKeep.next ?_
    | with_reducible exact OKeep.fault
    | with_reducible exact OKeep.refused
    | with_reducible refine Keep.foldl (fun _ _ _ => ?_) ?_
    | with_reducible refine Keep.foldl_snd (fun _ _ _ => ?_) ?_
    | split

theorem execFail_keep {s : State} (hk : Keep s0 s) :
    OKeep s0 (execFail s) := by
  unfold execFail
  repeat' first
    | with_reducible assumption
    | with_reducible refine State.takeOpc_keep_of (by assumption) ?_
    | with_reducible refine State.nodeFails_keep ?_
    | with_reducible refine State.setFab_keep ?_
    | with_reducible refine OKeep.next ?_
    | with_reducible exact OKeep.fault
    | with_reducible exact OKeep.refused
    | with_reducible refine Keep.foldl (fun _ _ _ => ?_) ?_
    | with_reducible refine Keep.foldl_snd (fun _ _ _ => ?_) ?_
    | split

theorem execFailClear_keep {v : W32} {s : State} (hk : Keep s0 s) :
    OKeep s0 (execFailClear v s) := by
  unfold execFailClear
  repeat' first
    | with_reducible assumption
    | with_reducible refine State.failClear_keep ?_
    | with_reducible refine OKeep.next ?_
    | with_reducible exact OKeep.fault
    | with_reducible exact OKeep.refused
    | with_reducible refine Keep.foldl (fun _ _ _ => ?_) ?_
    | with_reducible refine Keep.foldl_snd (fun _ _ _ => ?_) ?_
    | split

theorem execFenced_keep {p : ℕ} {s : State} (hk : Keep s0 s) :
    OKeep s0 (execFenced p s) := by
  unfold execFenced
  repeat' first
    | with_reducible assumption
    | with_reducible refine State.nodeFails_keep ?_
    | with_reducible refine State.setPort_keep ?_
    | with_reducible refine OKeep.next ?_
    | with_reducible exact OKeep.fault
    | with_reducible exact OKeep.refused
    | with_reducible refine Keep.foldl (fun _ _ _ => ?_) ?_
    | with_reducible refine Keep.foldl_snd (fun _ _ _ => ?_) ?_
    | split

theorem execFencedTimer_keep {p : ℕ} {s : State} (hk : Keep s0 s) :
    OKeep s0 (execFencedTimer p s) := by
  unfold execFencedTimer
  repeat' first
    | with_reducible assumption
    | with_reducible refine State.putLink_keep ?_
    | with_reducible refine OKeep.next ?_
    | with_reducible exact OKeep.fault
    | with_reducible exact OKeep.refused
    | with_reducible refine Keep.foldl (fun _ _ _ => ?_) ?_
    | with_reducible refine Keep.foldl_snd (fun _ _ _ => ?_) ?_
    | split
    | dsimp only

theorem State.tagFrame_keep {s : State} {p : ℕ} {f : Frame} (hk : Keep s0 s) :
    Keep s0 (State.tagFrame s p f) := by
  unfold State.tagFrame
  repeat' first
    | with_reducible assumption
    | with_reducible refine State.setPmu_keep ?_

theorem execFrameTransmit_keep {p : ℕ} {vc : ℕ} {cls : ℕ} {s : State} (hk : Keep s0 s) :
    OKeep s0 (execFrameTransmit p vc cls s) := by
  unfold execFrameTransmit
  repeat' first
    | with_reducible assumption
    | with_reducible refine State.setPort_keep ?_
    | with_reducible refine State.countDiscard_keep ?_
    | with_reducible refine State.sendData_keep ?_
    | with_reducible refine State.tagFrame_keep ?_
    | with_reducible refine OKeep.next ?_
    | with_reducible exact OKeep.fault
    | with_reducible exact OKeep.refused
    | with_reducible refine Keep.foldl (fun _ _ _ => ?_) ?_
    | with_reducible refine Keep.foldl_snd (fun _ _ _ => ?_) ?_
    | split
    | dsimp only

theorem execHello_keep {p : ℕ} {node : ℕ} {port : ℕ} {leaf : Bool} {lane : Bool} {fec : Bool} {ack : Bool} {grant : List ℕ} {s : State} (hk : Keep s0 s) :
    OKeep s0 (execHello p node port leaf lane fec ack grant s) := by
  unfold execHello
  repeat' first
    | with_reducible assumption
    | with_reducible refine State.setPort_keep ?_
    | with_reducible refine State.setFab_keep ?_
    | with_reducible refine State.setFlag_keep ?_
    | with_reducible refine State.setFld_keep ?_
    | with_reducible refine State.portUpNow_keep ?_
    | with_reducible refine State.sendHello_keep ?_
    | with_reducible refine OKeep.next ?_
    | with_reducible exact OKeep.fault
    | with_reducible exact OKeep.refused
    | with_reducible refine Keep.foldl (fun _ _ _ => ?_) ?_
    | with_reducible refine Keep.foldl_snd (fun _ _ _ => ?_) ?_
    | split
    | dsimp only

theorem execHelloTimer_keep {p : ℕ} {s : State} (hk : Keep s0 s) :
    OKeep s0 (execHelloTimer p s) := by
  unfold execHelloTimer
  repeat' first
    | with_reducible assumption
    | with_reducible refine State.sendHello_keep ?_
    | with_reducible refine OKeep.next ?_
    | with_reducible exact OKeep.fault
    | with_reducible exact OKeep.refused
    | with_reducible refine Keep.foldl (fun _ _ _ => ?_) ?_
    | with_reducible refine Keep.foldl_snd (fun _ _ _ => ?_) ?_
    | split
    | dsimp only

theorem execLackReportTimer_keep {p : ℕ} {s : State} (hk : Keep s0 s) :
    OKeep s0 (execLackReportTimer p s) := by
  unfold execLackReportTimer
  repeat' first
    | with_reducible assumption
    | with_reducible refine State.sendControl_keep ?_
    | with_reducible refine OKeep.next ?_
    | with_reducible exact OKeep.fault
    | with_reducible exact OKeep.refused
    | with_reducible refine Keep.foldl (fun _ _ _ => ?_) ?_
    | with_reducible refine Keep.foldl_snd (fun _ _ _ => ?_) ?_
    | split

theorem execLinkIdleTimer_keep {p : ℕ} {s : State} (hk : Keep s0 s) :
    OKeep s0 (execLinkIdleTimer p s) := by
  unfold execLinkIdleTimer
  repeat' first
    | with_reducible assumption
    | with_reducible refine State.sendControl_keep ?_
    | with_reducible refine OKeep.next ?_
    | with_reducible exact OKeep.fault
    | with_reducible exact OKeep.refused
    | with_reducible refine Keep.foldl (fun _ _ _ => ?_) ?_
    | with_reducible refine Keep.foldl_snd (fun _ _ _ => ?_) ?_
    | split
    | dsimp only

theorem execPortCtrlWrite_keep {p : ℕ} {v : W32} {s : State} (hk : Keep s0 s) :
    OKeep s0 (execPortCtrlWrite p v s) := by
  unfold execPortCtrlWrite
  repeat' first
    | with_reducible assumption
    | with_reducible refine State.portWrite_keep ?_
    | with_reducible refine OKeep.next ?_
    | with_reducible exact OKeep.fault
    | with_reducible exact OKeep.refused
    | with_reducible refine Keep.foldl (fun _ _ _ => ?_) ?_
    | with_reducible refine Keep.foldl_snd (fun _ _ _ => ?_) ?_
    | split

theorem execPortTrainingComplete_keep {p : ℕ} {s : State} (hk : Keep s0 s) :
    OKeep s0 (execPortTrainingComplete p s) := by
  unfold execPortTrainingComplete
  repeat' first
    | with_reducible assumption
    | with_reducible refine State.sendHello_keep ?_
    | with_reducible refine State.setPort_keep ?_
    | with_reducible refine OKeep.next ?_
    | with_reducible exact OKeep.fault
    | with_reducible exact OKeep.refused
    | with_reducible refine Keep.foldl (fun _ _ _ => ?_) ?_
    | with_reducible refine Keep.foldl_snd (fun _ _ _ => ?_) ?_
    | split
    | dsimp only

theorem execReplayReq_keep {p : ℕ} {lack : ℕ} {credit : List ℕ} {s : State} (hk : Keep s0 s) :
    OKeep s0 (execReplayReq p lack credit s) := by
  unfold execReplayReq
  repeat' first
    | with_reducible assumption
    | with_reducible refine State.resend_keep ?_
    | with_reducible refine State.noteLink_keep ?_
    | with_reducible refine OKeep.next ?_
    | with_reducible exact OKeep.fault
    | with_reducible exact OKeep.refused
    | with_reducible refine Keep.foldl (fun _ _ _ => ?_) ?_
    | with_reducible refine Keep.foldl_snd (fun _ _ _ => ?_) ?_
    | split

theorem execReplayTimeout_keep {p : ℕ} {s : State} (hk : Keep s0 s) :
    OKeep s0 (execReplayTimeout p s) := by
  unfold execReplayTimeout
  repeat' first
    | with_reducible assumption
    | with_reducible refine State.resend_keep ?_
    | with_reducible refine OKeep.next ?_
    | with_reducible exact OKeep.fault
    | with_reducible exact OKeep.refused
    | with_reducible refine Keep.foldl (fun _ _ _ => ?_) ?_
    | with_reducible refine Keep.foldl_snd (fun _ _ _ => ?_) ?_
    | split
    | dsimp only

theorem execRouteDataWrite_keep {v : W32} {s : State} (hk : Keep s0 s) :
    OKeep s0 (execRouteDataWrite v s) := by
  unfold execRouteDataWrite
  repeat' first
    | with_reducible assumption
    | with_reducible refine State.routeWrite_keep ?_
    | with_reducible refine OKeep.next ?_
    | with_reducible exact OKeep.fault
    | with_reducible exact OKeep.refused
    | with_reducible refine Keep.foldl (fun _ _ _ => ?_) ?_
    | with_reducible refine Keep.foldl_snd (fun _ _ _ => ?_) ?_
    | split

theorem execRxSilenceTimeout_keep {p : ℕ} {s : State} (hk : Keep s0 s) :
    OKeep s0 (execRxSilenceTimeout p s) := by
  unfold execRxSilenceTimeout
  repeat' first
    | with_reducible assumption
    | with_reducible refine State.portDown_keep ?_
    | with_reducible refine OKeep.next ?_
    | with_reducible exact OKeep.fault
    | with_reducible exact OKeep.refused
    | with_reducible refine Keep.foldl (fun _ _ _ => ?_) ?_
    | with_reducible refine Keep.foldl_snd (fun _ _ _ => ?_) ?_
    | split
    | dsimp only

theorem execSealApply_keep {s : State} (hk : Keep s0 s) :
    OKeep s0 (execSealApply s) := by
  unfold execSealApply
  repeat' first
    | with_reducible assumption
    | with_reducible refine State.setFlag_keep ?_
    | with_reducible refine OKeep.next ?_
    | with_reducible exact OKeep.fault
    | with_reducible exact OKeep.refused
    | with_reducible refine Keep.foldl (fun _ _ _ => ?_) ?_
    | with_reducible refine Keep.foldl_snd (fun _ _ _ => ?_) ?_
    | split

theorem execSealComplete_keep {s : State} (hk : Keep s0 s) :
    OKeep s0 (execSealComplete s) := by
  unfold execSealComplete
  repeat' first
    | with_reducible assumption
    | with_reducible refine State.applySeal_keep ?_
    | with_reducible refine OKeep.next ?_
    | with_reducible exact OKeep.fault
    | with_reducible exact OKeep.refused
    | with_reducible refine Keep.foldl (fun _ _ _ => ?_) ?_
    | with_reducible refine Keep.foldl_snd (fun _ _ _ => ?_) ?_
    | split

theorem State.answerLine_keep {s : State} {r : SqReq} (hk : Keep s0 s) :
    Keep s0 (State.answerLine s r) := by
  unfold State.answerLine
  repeat' first
    | with_reducible assumption
    | with_reducible refine Keep.foldl (fun _ _ _ => ?_) ?_
    | with_reducible refine Keep.foldl_snd (fun _ _ _ => ?_) ?_
    | split
    | fail_if_no_progress ((with_reducible refine Keep.upd ?_ ?_); exact rfl)

theorem State.countRead_keep {s : State} {cls : ℕ} {unit : ℕ} {a : ℕ} {r : W64 × Bool × EccOutcome} (hk : Keep s0 s) :
    Keep s0 (State.countRead s cls unit a r) := by
  unfold State.countRead
  repeat' first
    | with_reducible assumption
    | with_reducible refine State.countUncorrectable_keep ?_
    | with_reducible refine State.countCorrection_keep ?_
    | with_reducible refine State.countPoisoned_keep ?_
    | with_reducible refine Keep.foldl (fun _ _ _ => ?_) ?_
    | with_reducible refine Keep.foldl_snd (fun _ _ _ => ?_) ?_
    | split

theorem State.eccWord_keep {s : State} {a : ℕ} {flip : W80} (hk : Keep s0 s) :
    Keep s0 (State.eccWord s a flip) := by
  unfold State.eccWord
  repeat' first
    | with_reducible assumption
    | with_reducible refine State.countRead_keep ?_
    | with_reducible refine State.putWord_keep ?_
    | with_reducible refine Keep.foldl (fun _ _ _ => ?_) ?_
    | with_reducible refine Keep.foldl_snd (fun _ _ _ => ?_) ?_
    | split

theorem State.eccLine_keep {s : State} {line : ℕ} {flips : List (ℕ × W80)} (hk : Keep s0 s) :
    Keep s0 (State.eccLine s line flips) := by
  unfold State.eccLine
  repeat' first
    | with_reducible assumption
    | with_reducible refine State.eccWord_keep ?_
    | with_reducible refine Keep.foldl (fun _ _ _ => ?_) ?_

theorem State.flushCaches_keep {s : State} {inval : Bool} (hk : Keep s0 s) :
    Keep s0 (State.flushCaches s inval) := by
  unfold State.flushCaches
  repeat' first
    | with_reducible assumption
    | with_reducible refine State.evictWay_keep ?_
    | with_reducible refine Keep.foldl (fun _ _ _ => ?_) ?_
    | with_reducible refine Keep.foldl_snd (fun _ _ _ => ?_) ?_
    | split
    | fail_if_no_progress ((with_reducible refine Keep.upd ?_ ?_); exact rfl)

theorem State.writeLine_keep {s : State} {line : ℕ} {mask : ℕ} {data : BitVec 2048} (hk : Keep s0 s) :
    Keep s0 (State.writeLine s line mask data) := by
  unfold State.writeLine
  repeat' first
    | with_reducible assumption
    | with_reducible refine State.devWrite_keep ?_
    | with_reducible refine Keep.foldl (fun _ _ _ => ?_) ?_
    | with_reducible refine Keep.foldl_snd (fun _ _ _ => ?_) ?_
    | split
    | fail_if_no_progress ((with_reducible refine Keep.upd ?_ ?_); exact rfl)
    | dsimp only

theorem State.performReq_keep {s : State} {r : SqReq} {flips : List (ℕ × W80)} (hk : Keep s0 s) :
    Keep s0 (State.performReq s r flips) := by
  unfold State.performReq
  repeat' first
    | with_reducible assumption
    | with_reducible refine State.answerLine_keep ?_
    | with_reducible refine State.writeLine_keep ?_
    | with_reducible refine State.eccWord_keep ?_
    | with_reducible refine State.eccLine_keep ?_
    | with_reducible refine Keep.foldl (fun _ _ _ => ?_) ?_
    | with_reducible refine Keep.foldl_snd (fun _ _ _ => ?_) ?_
    | split

theorem State.serveMissed_keep {s : State} {half : ℕ} {r : SqReq} (hk : Keep s0 s) :
    Keep s0 (State.serveMissed s half r) := by
  unfold State.serveMissed
  repeat' first
    | with_reducible assumption
    | with_reducible refine State.performReq_keep ?_
    | with_reducible refine State.setCacheSet_keep ?_
    | with_reducible refine Keep.foldl (fun _ _ _ => ?_) ?_
    | with_reducible refine Keep.foldl_snd (fun _ _ _ => ?_) ?_
    | split
    | fail_if_no_progress ((with_reducible refine Keep.upd ?_ ?_); exact rfl)
    | dsimp only

theorem State.serveCached_keep {s : State} {half : ℕ} {r : SqReq} {flips : List (ℕ × W80)} (hk : Keep s0 s) :
    Keep s0 (State.serveCached s half r flips) := by
  unfold State.serveCached
  repeat' first
    | with_reducible assumption
    | with_reducible refine State.performReq_keep ?_
    | with_reducible refine State.setCacheSet_keep ?_
    | with_reducible refine State.evictWay_keep ?_
    | with_reducible refine Keep.foldl (fun _ _ _ => ?_) ?_
    | with_reducible refine Keep.foldl_snd (fun _ _ _ => ?_) ?_
    | split
    | fail_if_no_progress ((with_reducible refine Keep.upd ?_ ?_); exact rfl)
    | dsimp only

theorem State.serveReq_keep {s : State} {half : ℕ} {r : SqReq} {flips : List (ℕ × W80)} (hk : Keep s0 s) :
    Keep s0 (State.serveReq s half r flips) := by
  unfold State.serveReq
  repeat' first
    | with_reducible assumption
    | with_reducible refine State.performReq_keep ?_
    | with_reducible refine State.serveCached_keep ?_
    | with_reducible refine Keep.foldl (fun _ _ _ => ?_) ?_
    | with_reducible refine Keep.foldl_snd (fun _ _ _ => ?_) ?_
    | split

theorem State.serveAll_keep {s : State} {half : ℕ} {x2 : List SqReq} (hk : Keep s0 s) :
    Keep s0 (State.serveAll s half x2) := by
  induction x2 generalizing s with
  | nil =>
    rw [State.serveAll]
    repeat' first
      | with_reducible assumption
  | cons _ _ ih =>
    rw [State.serveAll]
    repeat' first
      | with_reducible assumption
      | with_reducible refine ih ?_
      | with_reducible refine State.serveMissed_keep ?_
      | with_reducible refine State.serveReq_keep ?_
      | with_reducible refine Keep.foldl (fun _ _ _ => ?_) ?_
      | with_reducible refine Keep.foldl_snd (fun _ _ _ => ?_) ?_
      | split

theorem State.crcReplay_keep {s : State} {source : ℕ} {cls : ℕ} {unit : ℕ} {fails : ℕ} (hk : Keep s0 s) :
    Keep s0 (State.crcReplay s source cls unit fails) := by
  unfold State.crcReplay
  repeat' first
    | with_reducible assumption
    | with_reducible refine State.fatal_keep ?_
    | with_reducible refine State.countReplay_keep ?_
    | with_reducible refine Keep.foldl (fun _ _ _ => ?_) ?_
    | with_reducible refine Keep.foldl_snd (fun _ _ _ => ?_) ?_
    | split

theorem State.setGather_keep {s : State} {n : ℕ} {tag : ℕ} {f : GatherJob → GatherJob} (hk : Keep s0 s) :
    Keep s0 (State.setGather s n tag f) := by
  unfold State.setGather
  repeat' first
    | with_reducible assumption
    | with_reducible refine State.updCmd_keep ?_

theorem State.gatherRow_keep {s : State} {n : ℕ} {c : Cmd} {i : ℕ} {idx : ℕ} (hk : Keep s0 s) :
    Keep s0 (State.gatherRow s n c i idx) := by
  unfold State.gatherRow
  repeat' first
    | with_reducible assumption
    | with_reducible refine State.engStep_keep ?_
    | with_reducible refine State.engStep_keep_wait (by assumption) ?_
    | with_reducible refine State.engStep_keep_fault (by assumption) ?_
    | with_reducible refine State.engStep_keep_lost (by assumption) ?_
    | with_reducible refine State.engStep_keep_done (by assumption) ?_
    | with_reducible refine State.meshFault_keep ?_
    | with_reducible refine State.settleMesh_keep ?_
    | with_reducible refine State.setGather_keep ?_
    | with_reducible refine State.progressFor_keep ?_
    | with_reducible refine Keep.foldl (fun _ _ _ => ?_) ?_
    | with_reducible refine Keep.foldl_snd (fun _ _ _ => ?_) ?_
    | split
    | fail_if_no_progress ((with_reducible refine Keep.upd ?_ ?_); exact rfl)
    | dsimp only

theorem State.gatherTurn_keep {s : State} {n : ℕ} {tag : ℕ} {op : ℕ} {i : ℕ} (hk : Keep s0 s) :
    Keep s0 (State.gatherTurn s n tag op i) := by
  unfold State.gatherTurn
  repeat' first
    | with_reducible assumption
    | with_reducible refine State.gatherRow_keep ?_
    | with_reducible refine State.engStep_keep ?_
    | with_reducible refine State.engStep_keep_wait (by assumption) ?_
    | with_reducible refine State.engStep_keep_fault (by assumption) ?_
    | with_reducible refine State.engStep_keep_lost (by assumption) ?_
    | with_reducible refine State.engStep_keep_done (by assumption) ?_
    | with_reducible refine State.meshFault_keep ?_
    | with_reducible refine State.settleMesh_keep ?_
    | with_reducible refine State.setGather_keep ?_
    | with_reducible refine Keep.foldl (fun _ _ _ => ?_) ?_
    | with_reducible refine Keep.foldl_snd (fun _ _ _ => ?_) ?_
    | split
    | fail_if_no_progress ((with_reducible refine Keep.upd ?_ ?_); exact rfl)
    | dsimp only

theorem State.gatherCmd_keep {s : State} {n : ℕ} {tag : ℕ} {op : ℕ} {i : ℕ} (hk : Keep s0 s) :
    OKeep s0 (State.gatherCmd s n tag op i) := by
  unfold State.gatherCmd
  repeat' first
    | with_reducible assumption
    | with_reducible refine State.startJob_keep ?_
    | with_reducible refine State.settleCmd_keep ?_
    | with_reducible refine State.gatherTurn_keep ?_
    | with_reducible refine OKeep.next ?_
    | with_reducible exact OKeep.fault
    | with_reducible exact OKeep.refused
    | with_reducible refine Keep.foldl (fun _ _ _ => ?_) ?_
    | with_reducible refine Keep.foldl_snd (fun _ _ _ => ?_) ?_
    | split
theorem State.gatherCmd_keep_of {s : State} {n : ℕ} {tag : ℕ} {op : ℕ} {i : ℕ} {t1 : State} (e : State.gatherCmd s n tag op i = .next t1) (hk : Keep s0 s) : Keep s0 t1 := State.gatherCmd_keep hk t1 e

theorem execGather_keep {n : ℕ} {tag : ℕ} {i : ℕ} {s : State} (hk : Keep s0 s) :
    OKeep s0 (execGather n tag i s) := by
  unfold execGather
  repeat' first
    | with_reducible assumption
    | with_reducible refine State.gatherCmd_keep ?_

theorem execMeshCrcReplay_keep {x : ℕ} {port : ℕ} {fails : ℕ} {s : State} (hk : Keep s0 s) :
    OKeep s0 (execMeshCrcReplay x port fails s) := by
  unfold execMeshCrcReplay
  repeat' first
    | with_reducible assumption
    | with_reducible refine State.crcReplay_keep ?_
    | with_reducible refine OKeep.next ?_
    | with_reducible exact OKeep.fault
    | with_reducible exact OKeep.refused
    | with_reducible refine Keep.foldl (fun _ _ _ => ?_) ?_
    | with_reducible refine Keep.foldl_snd (fun _ _ _ => ?_) ?_
    | split

theorem State.setLink_keep {s : State} {x : ℕ} {port : ℕ} {l : List Flit} (hk : Keep s0 s) :
    Keep s0 (State.setLink s x port l) := by
  unfold State.setLink
  repeat' first
    | with_reducible assumption
    | with_reducible refine State.setMesh_keep ?_

theorem State.pushLink_keep {s : State} {x : ℕ} {port : ℕ} {f : Flit} (hk : Keep s0 s) :
    Keep s0 (State.pushLink s x port f) := by
  unfold State.pushLink
  repeat' first
    | with_reducible assumption
    | with_reducible refine State.setLink_keep ?_

theorem State.setBuf_keep {s : State} {x : ℕ} {port : ℕ} {l : List Flit} (hk : Keep s0 s) :
    Keep s0 (State.setBuf s x port l) := by
  unfold State.setBuf
  repeat' first
    | with_reducible assumption
    | with_reducible refine State.setMesh_keep ?_

theorem State.takeMcast_keep {s : State} {x : ℕ} {n : ℕ} {tag : ℕ} {packet : ℕ} {src : ℕ} {bytes : List Byte} {bad : List (ℕ × ℕ)} {x8 : List (ℕ × ℕ)} (hk : Keep s0 s) :
    Keep s0 (State.takeMcast s x n tag packet src bytes bad x8) := by
  induction x8 generalizing s with
  | nil =>
    rw [State.takeMcast]
    repeat' first
      | with_reducible assumption
  | cons _ _ ih =>
    rw [State.takeMcast]
    repeat' first
      | with_reducible assumption
      | with_reducible refine ih ?_
      | with_reducible refine State.setMesh_keep ?_
      | with_reducible refine State.pushLink_keep ?_
      | with_reducible refine Keep.foldl (fun _ _ _ => ?_) ?_
      | with_reducible refine Keep.foldl_snd (fun _ _ _ => ?_) ?_
      | split

theorem State.deliverFlit_keep {s : State} {x : ℕ} {f : Flit} (hk : Keep s0 s) :
    Keep s0 (State.deliverFlit s x f) := by
  unfold State.deliverFlit
  repeat' first
    | with_reducible assumption
    | with_reducible refine State.pushLink_keep ?_
    | with_reducible refine State.takeMcast_keep ?_
    | with_reducible refine State.setMesh_keep ?_
    | with_reducible refine Keep.foldl (fun _ _ _ => ?_) ?_
    | with_reducible refine Keep.foldl_snd (fun _ _ _ => ?_) ?_
    | split

theorem State.meshClock_keep {s : State} {x : ℕ} {out : ℕ} (hk : Keep s0 s) :
    Keep s0 (State.meshClock s x out) := by
  unfold State.meshClock
  repeat' first
    | with_reducible assumption
    | with_reducible refine State.setMesh_keep ?_
    | with_reducible refine State.setBuf_keep ?_
    | with_reducible refine State.pushLink_keep ?_
    | with_reducible refine State.deliverFlit_keep ?_
    | with_reducible refine Keep.foldl (fun _ _ _ => ?_) ?_
    | with_reducible refine Keep.foldl_snd (fun _ _ _ => ?_) ?_
    | split
    | fail_if_no_progress ((with_reducible refine Keep.upd ?_ ?_); exact rfl)
    | dsimp only

theorem State.squareClock_keep {s : State} {d : ℕ} {v : ℕ} (hk : Keep s0 s) :
    Keep s0 (State.squareClock s d v) := by
  unfold State.squareClock
  repeat' first
    | with_reducible assumption
    | with_reducible refine State.setMesh_keep ?_
    | with_reducible refine Keep.foldl (fun _ _ _ => ?_) ?_
    | with_reducible refine Keep.foldl_snd (fun _ _ _ => ?_) ?_
    | split
    | fail_if_no_progress ((with_reducible refine Keep.upd ?_ ?_); exact rfl)
    | dsimp only

theorem State.seamClock_keep {s : State} {d : ℕ} (hk : Keep s0 s) :
    Keep s0 (State.seamClock s d) := by
  unfold State.seamClock
  repeat' first
    | with_reducible assumption
    | with_reducible refine State.setMesh_keep ?_
    | with_reducible refine State.meshClock_keep ?_
    | with_reducible refine State.squareClock_keep ?_
    | with_reducible refine Keep.foldl (fun _ _ _ => ?_) ?_
    | with_reducible refine Keep.foldl_snd (fun _ _ _ => ?_) ?_
    | split
    | fail_if_no_progress ((with_reducible refine Keep.upd ?_ ?_); exact rfl)
    | dsimp only

theorem State.outClock_keep {s : State} {x : ℕ} {out : ℕ} (hk : Keep s0 s) :
    Keep s0 (State.outClock s x out) := by
  unfold State.outClock
  repeat' first
    | with_reducible assumption
    | with_reducible refine State.seamClock_keep ?_
    | with_reducible refine State.meshClock_keep ?_
    | with_reducible refine Keep.foldl (fun _ _ _ => ?_) ?_
    | with_reducible refine Keep.foldl_snd (fun _ _ _ => ?_) ?_
    | split

theorem State.pushBuf_keep {s : State} {x : ℕ} {port : ℕ} {f : Flit} (hk : Keep s0 s) :
    Keep s0 (State.pushBuf s x port f) := by
  unfold State.pushBuf
  repeat' first
    | with_reducible assumption
    | with_reducible refine State.setBuf_keep ?_

theorem execMeshFlitArrival_keep {x : ℕ} {port : ℕ} {pkt : Option MeshPkt} {s : State} (hk : Keep s0 s) :
    OKeep s0 (execMeshFlitArrival x port pkt s) := by
  unfold execMeshFlitArrival
  repeat' first
    | with_reducible assumption
    | with_reducible refine State.pushLink_keep ?_
    | with_reducible refine State.outClock_keep ?_
    | with_reducible refine State.pushBuf_keep ?_
    | with_reducible refine State.setLink_keep ?_
    | with_reducible refine OKeep.next ?_
    | with_reducible exact OKeep.fault
    | with_reducible exact OKeep.refused
    | with_reducible refine Keep.foldl (fun _ _ _ => ?_) ?_
    | with_reducible refine Keep.foldl_snd (fun _ _ _ => ?_) ?_
    | split
    | dsimp only

theorem execMeshMcastDeadline_keep {n : ℕ} {tag : ℕ} {s : State} (hk : Keep s0 s) :
    OKeep s0 (execMeshMcastDeadline n tag s) := by
  unfold execMeshMcastDeadline
  repeat' first
    | with_reducible assumption
    | with_reducible refine State.settleMesh_keep ?_
    | with_reducible refine OKeep.next ?_
    | with_reducible exact OKeep.fault
    | with_reducible exact OKeep.refused
    | with_reducible refine Keep.foldl (fun _ _ _ => ?_) ?_
    | with_reducible refine Keep.foldl_snd (fun _ _ _ => ?_) ?_
    | split

theorem State.mcastSend_keep {s : State} {n : ℕ} {tag : ℕ} {p : ℕ} {ts : List ℕ} {after : McastJob → McastJob} (hk : Keep s0 s) :
    Keep s0 (State.mcastSend s n tag p ts after) := by
  unfold State.mcastSend
  repeat' first
    | with_reducible assumption
    | with_reducible refine State.engStep_keep ?_
    | with_reducible refine State.engStep_keep_wait (by assumption) ?_
    | with_reducible refine State.engStep_keep_fault (by assumption) ?_
    | with_reducible refine State.engStep_keep_lost (by assumption) ?_
    | with_reducible refine State.engStep_keep_done (by assumption) ?_
    | with_reducible refine State.meshFault_keep ?_
    | with_reducible refine State.settleMesh_keep ?_
    | with_reducible refine State.pushLink_keep ?_
    | with_reducible refine State.setMcast_keep ?_
    | with_reducible refine Keep.foldl (fun _ _ _ => ?_) ?_
    | with_reducible refine Keep.foldl_snd (fun _ _ _ => ?_) ?_
    | split
    | fail_if_no_progress ((with_reducible refine Keep.upd ?_ ?_); exact rfl)
    | dsimp only

theorem execMeshMcastResend_keep {n : ℕ} {tag : ℕ} {s : State} (hk : Keep s0 s) :
    OKeep s0 (execMeshMcastResend n tag s) := by
  unfold execMeshMcastResend
  repeat' first
    | with_reducible assumption
    | with_reducible refine State.setMesh_keep ?_
    | with_reducible refine State.mcastSend_keep ?_
    | with_reducible refine OKeep.next ?_
    | with_reducible exact OKeep.fault
    | with_reducible exact OKeep.refused
    | with_reducible refine Keep.foldl (fun _ _ _ => ?_) ?_
    | with_reducible refine Keep.foldl_snd (fun _ _ _ => ?_) ?_
    | split
    | fail_if_no_progress ((with_reducible refine Keep.upd ?_ ?_); exact rfl)
    | dsimp only

theorem State.mcastWrite_keep {s : State} {n : ℕ} {tag : ℕ} {t : ℕ} (hk : Keep s0 s) :
    Keep s0 (State.mcastWrite s n tag t) := by
  unfold State.mcastWrite
  repeat' first
    | with_reducible assumption
    | with_reducible refine State.engStep_keep ?_
    | with_reducible refine State.engStep_keep_wait (by assumption) ?_
    | with_reducible refine State.engStep_keep_fault (by assumption) ?_
    | with_reducible refine State.engStep_keep_lost (by assumption) ?_
    | with_reducible refine State.engStep_keep_done (by assumption) ?_
    | with_reducible refine State.meshFault_keep ?_
    | with_reducible refine State.settleMesh_keep ?_
    | with_reducible refine State.setMcast_keep ?_
    | with_reducible refine State.setMesh_keep ?_
    | with_reducible refine State.progressFor_keep ?_
    | with_reducible refine Keep.foldl (fun _ _ _ => ?_) ?_
    | with_reducible refine Keep.foldl_snd (fun _ _ _ => ?_) ?_
    | split
    | fail_if_no_progress ((with_reducible refine Keep.upd ?_ ?_); exact rfl)
    | dsimp only

theorem execMmcast_keep {n : ℕ} {tag : ℕ} {k : ℕ} {s : State} (hk : Keep s0 s) :
    OKeep s0 (execMmcast n tag k s) := by
  unfold execMmcast
  repeat' first
    | with_reducible assumption
    | with_reducible refine State.engStep_keep ?_
    | with_reducible refine State.engStep_keep_wait (by assumption) ?_
    | with_reducible refine State.engStep_keep_fault (by assumption) ?_
    | with_reducible refine State.engStep_keep_lost (by assumption) ?_
    | with_reducible refine State.engStep_keep_done (by assumption) ?_
    | with_reducible refine State.meshFault_keep ?_
    | with_reducible refine State.settleMesh_keep ?_
    | with_reducible refine State.startJob_keep ?_
    | with_reducible refine State.mcastSend_keep ?_
    | with_reducible refine State.mcastWrite_keep ?_
    | with_reducible refine OKeep.next ?_
    | with_reducible exact OKeep.fault
    | with_reducible exact OKeep.refused
    | with_reducible refine Keep.foldl (fun _ _ _ => ?_) ?_
    | with_reducible refine Keep.foldl_snd (fun _ _ _ => ?_) ?_
    | split
    | dsimp only

theorem State.setReduce_keep {s : State} {n : ℕ} {tag : ℕ} {f : ReduceJob → ReduceJob} (hk : Keep s0 s) :
    Keep s0 (State.setReduce s n tag f) := by
  unfold State.setReduce
  repeat' first
    | with_reducible assumption
    | with_reducible refine State.updCmd_keep ?_

theorem State.reduceSend_keep {s : State} {n : ℕ} {tag : ℕ} {i : ℕ} (hk : Keep s0 s) :
    Keep s0 (State.reduceSend s n tag i) := by
  unfold State.reduceSend
  repeat' first
    | with_reducible assumption
    | with_reducible refine State.engStep_keep ?_
    | with_reducible refine State.engStep_keep_wait (by assumption) ?_
    | with_reducible refine State.engStep_keep_fault (by assumption) ?_
    | with_reducible refine State.engStep_keep_lost (by assumption) ?_
    | with_reducible refine State.engStep_keep_done (by assumption) ?_
    | with_reducible refine State.meshFault_keep ?_
    | with_reducible refine State.settleMesh_keep ?_
    | with_reducible refine State.pushLink_keep ?_
    | with_reducible refine State.setReduce_keep ?_
    | with_reducible refine Keep.foldl (fun _ _ _ => ?_) ?_
    | with_reducible refine Keep.foldl_snd (fun _ _ _ => ?_) ?_
    | split
    | fail_if_no_progress ((with_reducible refine Keep.upd ?_ ?_); exact rfl)
    | dsimp only

theorem State.reduceWrite_keep {s : State} {n : ℕ} {tag : ℕ} {k : ℕ} (hk : Keep s0 s) :
    Keep s0 (State.reduceWrite s n tag k) := by
  unfold State.reduceWrite
  repeat' first
    | with_reducible assumption
    | with_reducible refine State.engStep_keep ?_
    | with_reducible refine State.engStep_keep_wait (by assumption) ?_
    | with_reducible refine State.engStep_keep_fault (by assumption) ?_
    | with_reducible refine State.engStep_keep_lost (by assumption) ?_
    | with_reducible refine State.engStep_keep_done (by assumption) ?_
    | with_reducible refine State.meshFault_keep ?_
    | with_reducible refine State.settleMesh_keep ?_
    | with_reducible refine State.setReduce_keep ?_
    | with_reducible refine State.progressFor_keep ?_
    | with_reducible refine Keep.foldl (fun _ _ _ => ?_) ?_
    | with_reducible refine Keep.foldl_snd (fun _ _ _ => ?_) ?_
    | split
    | fail_if_no_progress ((with_reducible refine Keep.upd ?_ ?_); exact rfl)
    | dsimp only

theorem State.reduceAdd_keep {s : State} {n : ℕ} {tag : ℕ} {k : ℕ} {count : ℕ} {words : List W32} {bad : List ℕ} {acc : Bool} (hk : Keep s0 s) :
    Keep s0 (State.reduceAdd s n tag k count words bad acc) := by
  unfold State.reduceAdd
  repeat' first
    | with_reducible assumption
    | with_reducible refine State.reduceWrite_keep ?_
    | with_reducible refine State.setReduce_keep ?_
    | with_reducible refine Keep.foldl (fun _ _ _ => ?_) ?_
    | with_reducible refine Keep.foldl_snd (fun _ _ _ => ?_) ?_
    | split

theorem State.reduceTurn_keep {s : State} {n : ℕ} {tag : ℕ} {k : ℕ} (hk : Keep s0 s) :
    Keep s0 (State.reduceTurn s n tag k) := by
  unfold State.reduceTurn
  repeat' first
    | with_reducible assumption
    | with_reducible refine State.engStep_keep ?_
    | with_reducible refine State.engStep_keep_wait (by assumption) ?_
    | with_reducible refine State.engStep_keep_fault (by assumption) ?_
    | with_reducible refine State.engStep_keep_lost (by assumption) ?_
    | with_reducible refine State.engStep_keep_done (by assumption) ?_
    | with_reducible refine State.meshFault_keep ?_
    | with_reducible refine State.settleMesh_keep ?_
    | with_reducible refine State.reduceAdd_keep ?_
    | with_reducible refine State.reduceWrite_keep ?_
    | with_reducible refine Keep.foldl (fun _ _ _ => ?_) ?_
    | with_reducible refine Keep.foldl_snd (fun _ _ _ => ?_) ?_
    | split
    | fail_if_no_progress ((with_reducible refine Keep.upd ?_ ?_); exact rfl)
    | dsimp only

theorem execMreduce_keep {n : ℕ} {tag : ℕ} {k : ℕ} {s : State} (hk : Keep s0 s) :
    OKeep s0 (execMreduce n tag k s) := by
  unfold execMreduce
  repeat' first
    | with_reducible assumption
    | with_reducible refine State.engStep_keep ?_
    | with_reducible refine State.engStep_keep_wait (by assumption) ?_
    | with_reducible refine State.engStep_keep_fault (by assumption) ?_
    | with_reducible refine State.engStep_keep_lost (by assumption) ?_
    | with_reducible refine State.engStep_keep_done (by assumption) ?_
    | with_reducible refine State.meshFault_keep ?_
    | with_reducible refine State.settleMesh_keep ?_
    | with_reducible refine State.startJob_keep ?_
    | with_reducible refine State.reduceSend_keep ?_
    | with_reducible refine State.reduceTurn_keep ?_
    | with_reducible refine OKeep.next ?_
    | with_reducible exact OKeep.fault
    | with_reducible exact OKeep.refused
    | with_reducible refine Keep.foldl (fun _ _ _ => ?_) ?_
    | with_reducible refine Keep.foldl_snd (fun _ _ _ => ?_) ?_
    | split
    | dsimp only

theorem execReductionHoldTimeout_keep {x : ℕ} {s : State} (hk : Keep s0 s) :
    OKeep s0 (execReductionHoldTimeout x s) := by
  unfold execReductionHoldTimeout
  repeat' first
    | with_reducible assumption
    | with_reducible refine State.pushBuf_keep ?_
    | with_reducible refine State.setMesh_keep ?_
    | with_reducible refine OKeep.next ?_
    | with_reducible exact OKeep.fault
    | with_reducible exact OKeep.refused
    | with_reducible refine Keep.foldl (fun _ _ _ => ?_) ?_
    | with_reducible refine Keep.foldl_snd (fun _ _ _ => ?_) ?_
    | split

theorem State.holdPkt_keep {s : State} {x : ℕ} {int : Bool} {f : Flit} (hk : Keep s0 s) :
    Keep s0 (State.holdPkt s x int f) := by
  unfold State.holdPkt
  repeat' first
    | with_reducible assumption
    | with_reducible refine State.pushBuf_keep ?_
    | with_reducible refine State.setMesh_keep ?_
    | with_reducible refine Keep.foldl (fun _ _ _ => ?_) ?_
    | with_reducible refine Keep.foldl_snd (fun _ _ _ => ?_) ?_
    | split
    | fail_if_no_progress ((with_reducible refine Keep.upd ?_ ?_); exact rfl)
    | dsimp only

theorem execReductionPacketArrival_keep {x : ℕ} {port : ℕ} {s : State} (hk : Keep s0 s) :
    OKeep s0 (execReductionPacketArrival x port s) := by
  unfold execReductionPacketArrival
  repeat' first
    | with_reducible assumption
    | with_reducible refine State.setLink_keep ?_
    | with_reducible refine State.reduceAdd_keep ?_
    | with_reducible refine State.holdPkt_keep ?_
    | with_reducible refine OKeep.next ?_
    | with_reducible exact OKeep.fault
    | with_reducible exact OKeep.refused
    | with_reducible refine Keep.foldl (fun _ _ _ => ?_) ?_
    | with_reducible refine Keep.foldl_snd (fun _ _ _ => ?_) ?_
    | split

theorem execScatter_keep {n : ℕ} {tag : ℕ} {i : ℕ} {s : State} (hk : Keep s0 s) :
    OKeep s0 (execScatter n tag i s) := by
  unfold execScatter
  repeat' first
    | with_reducible assumption
    | with_reducible refine State.gatherCmd_keep ?_

theorem State.onI3c_keep {s : State} {t : State} (hk : Keep s0 s) (h2 : Keep s0 t) :
    OKeep s0 (State.onI3c s t) := by
  unfold State.onI3c
  repeat' first
    | with_reducible assumption
    | with_reducible refine OKeep.next ?_
    | with_reducible exact OKeep.fault
    | with_reducible exact OKeep.refused
    | with_reducible refine Keep.foldl (fun _ _ _ => ?_) ?_
    | with_reducible refine Keep.foldl_snd (fun _ _ _ => ?_) ?_
    | split

theorem State.sampleRegs_keep {s : State} {id : ℕ} {v : ℤ} (hk : Keep s0 s) :
    Keep s0 (State.sampleRegs s id v) := by
  unfold State.sampleRegs
  repeat' first
    | with_reducible assumption
    | with_reducible refine State.setFld_keep ?_
    | with_reducible refine Keep.foldl (fun _ _ _ => ?_) ?_
    | with_reducible refine Keep.foldl_snd (fun _ _ _ => ?_) ?_
    | split

theorem State.onBinding_keep {s : State} {b : ℕ} {t : State} (hk : Keep s0 s) (h2 : Keep s0 t) :
    OKeep s0 (State.onBinding s b t) := by
  unfold State.onBinding
  repeat' first
    | with_reducible assumption
    | with_reducible refine OKeep.next ?_
    | with_reducible exact OKeep.fault
    | with_reducible exact OKeep.refused
    | with_reducible refine Keep.foldl (fun _ _ _ => ?_) ?_
    | with_reducible refine Keep.foldl_snd (fun _ _ _ => ?_) ?_
    | split

theorem State.sayMgmt_keep {s : State} {m : MgmtOut} (hk : Keep s0 s) :
    Keep s0 (State.sayMgmt s m) := by
  unfold State.sayMgmt
  repeat' first
    | with_reducible assumption
    | with_reducible refine State.setMgmt_keep ?_

theorem State.spdm_keep {s : State} {b : ℕ} {r : SpdmResp} (hk : Keep s0 s) :
    Keep s0 (State.spdm s b r) := by
  unfold State.spdm
  repeat' first
    | with_reducible assumption
    | with_reducible refine State.sayMgmt_keep ?_

theorem State.onSpdm_keep {s : State} {b : ℕ} {f : State} (hk : Keep s0 s) (h2 : Keep s0 f) :
    OKeep s0 (State.onSpdm s b f) := by
  unfold State.onSpdm
  repeat' first
    | with_reducible assumption
    | with_reducible refine State.onBinding_keep ?_ ?_
    | with_reducible refine State.spdm_keep ?_
    | with_reducible refine OKeep.next ?_
    | with_reducible exact OKeep.fault
    | with_reducible exact OKeep.refused
    | with_reducible refine Keep.foldl (fun _ _ _ => ?_) ?_
    | with_reducible refine Keep.foldl_snd (fun _ _ _ => ?_) ?_
    | split

theorem State.negotiated_keep {s : State} {b : ℕ} {f : State} (hk : Keep s0 s) (h2 : Keep s0 f) :
    Keep s0 (State.negotiated s b f) := by
  unfold State.negotiated
  repeat' first
    | with_reducible assumption
    | with_reducible refine State.spdm_keep ?_
    | with_reducible refine Keep.foldl (fun _ _ _ => ?_) ?_
    | with_reducible refine Keep.foldl_snd (fun _ _ _ => ?_) ?_
    | split

theorem State.sign_keep {s : State} {msg : List Byte} (hk : Keep s0 s) :
    Keep s0 (State.sign s msg).2 := by
  unfold State.sign
  repeat' first
    | with_reducible assumption
    | with_reducible refine State.fresh_keep ?_
theorem State.sign_keep_of {s : State} {msg : List Byte} {v1 : (ℕ × ℕ)} {t1 : State} (e : State.sign s msg = (v1, t1)) (hk : Keep s0 s) : Keep s0 t1 := by
  have k := State.sign_keep (s0 := s0) (s := s) (msg := msg) hk
  rw [e] at k
  exact k

theorem execChallenge_keep {b : ℕ} {slot : ℕ} {msg : List Byte} {s : State} (hk : Keep s0 s) :
    OKeep s0 (execChallenge b slot msg s) := by
  unfold execChallenge
  repeat' first
    | with_reducible assumption
    | with_reducible refine State.onSpdm_keep ?_ ?_
    | with_reducible refine State.negotiated_keep ?_ ?_
    | with_reducible refine State.spdm_keep ?_
    | with_reducible refine State.sign_keep ?_
    | with_reducible refine State.sign_keep_of (by assumption) ?_
    | with_reducible refine OKeep.next ?_
    | with_reducible exact OKeep.fault
    | with_reducible exact OKeep.refused
    | with_reducible refine Keep.foldl (fun _ _ _ => ?_) ?_
    | with_reducible refine Keep.foldl_snd (fun _ _ _ => ?_) ?_
    | split

theorem execDisec_keep {events : ℕ} {s : State} (hk : Keep s0 s) :
    OKeep s0 (execDisec events s) := by
  unfold execDisec
  repeat' first
    | with_reducible assumption
    | with_reducible refine State.onI3c_keep ?_ ?_
    | with_reducible refine State.setMgmt_keep ?_

theorem execEndSession_keep {b : ℕ} {id : ℕ} {s : State} (hk : Keep s0 s) :
    OKeep s0 (execEndSession b id s) := by
  unfold execEndSession
  repeat' first
    | with_reducible assumption
    | with_reducible refine State.onSpdm_keep ?_ ?_
    | with_reducible refine State.spdm_keep ?_
    | with_reducible refine State.setMgmt_keep ?_
    | with_reducible refine OKeep.next ?_
    | with_reducible exact OKeep.fault
    | with_reducible exact OKeep.refused
    | with_reducible refine Keep.foldl (fun _ _ _ => ?_) ?_
    | with_reducible refine Keep.foldl_snd (fun _ _ _ => ?_) ?_
    | split

theorem execEnec_keep {events : ℕ} {s : State} (hk : Keep s0 s) :
    OKeep s0 (execEnec events s) := by
  unfold execEnec
  repeat' first
    | with_reducible assumption
    | with_reducible refine State.onI3c_keep ?_ ?_
    | with_reducible refine State.setMgmt_keep ?_

theorem execEntdaa_keep {addr : ℕ} {s : State} (hk : Keep s0 s) :
    OKeep s0 (execEntdaa addr s) := by
  unfold execEntdaa
  repeat' first
    | with_reducible assumption
    | with_reducible refine State.setMgmt_keep ?_
    | with_reducible refine OKeep.next ?_
    | with_reducible exact OKeep.fault
    | with_reducible exact OKeep.refused
    | with_reducible refine Keep.foldl (fun _ _ _ => ?_) ?_
    | with_reducible refine Keep.foldl_snd (fun _ _ _ => ?_) ?_
    | split

theorem State.setSession_keep {s : State} {x : Session} (hk : Keep s0 s) :
    Keep s0 (State.setSession s x) := by
  unfold State.setSession
  repeat' first
    | with_reducible assumption
    | with_reducible refine State.setMgmt_keep ?_

theorem execFinish_keep {b : ℕ} {id : ℕ} {verified : Bool} {s : State} (hk : Keep s0 s) :
    OKeep s0 (execFinish b id verified s) := by
  unfold execFinish
  repeat' first
    | with_reducible assumption
    | with_reducible refine State.onSpdm_keep ?_ ?_
    | with_reducible refine State.spdm_keep ?_
    | with_reducible refine State.setSession_keep ?_
    | with_reducible refine OKeep.next ?_
    | with_reducible exact OKeep.fault
    | with_reducible exact OKeep.refused
    | with_reducible refine Keep.foldl (fun _ _ _ => ?_) ?_
    | with_reducible refine Keep.foldl_snd (fun _ _ _ => ?_) ?_
    | split

theorem State.setConn_keep {s : State} {b : ℕ} {v : ℕ} (hk : Keep s0 s) :
    Keep s0 (State.setConn s b v) := by
  unfold State.setConn
  repeat' first
    | with_reducible assumption
    | with_reducible refine State.setMgmt_keep ?_

theorem execGetCapabilities_keep {b : ℕ} {s : State} (hk : Keep s0 s) :
    OKeep s0 (execGetCapabilities b s) := by
  unfold execGetCapabilities
  repeat' first
    | with_reducible assumption
    | with_reducible refine State.onSpdm_keep ?_ ?_
    | with_reducible refine State.spdm_keep ?_
    | with_reducible refine State.setConn_keep ?_
    | with_reducible refine OKeep.next ?_
    | with_reducible exact OKeep.fault
    | with_reducible exact OKeep.refused
    | with_reducible refine Keep.foldl (fun _ _ _ => ?_) ?_
    | with_reducible refine Keep.foldl_snd (fun _ _ _ => ?_) ?_
    | split

theorem execGetCertificate_keep {b : ℕ} {slot : ℕ} {offset : ℕ} {length : ℕ} {s : State} (hk : Keep s0 s) :
    OKeep s0 (execGetCertificate b slot offset length s) := by
  unfold execGetCertificate
  repeat' first
    | with_reducible assumption
    | with_reducible refine State.onSpdm_keep ?_ ?_
    | with_reducible refine State.negotiated_keep ?_ ?_
    | with_reducible refine State.spdm_keep ?_
    | with_reducible refine State.setMgmt_keep ?_
    | with_reducible refine OKeep.next ?_
    | with_reducible exact OKeep.fault
    | with_reducible exact OKeep.refused
    | with_reducible refine Keep.foldl (fun _ _ _ => ?_) ?_
    | with_reducible refine Keep.foldl_snd (fun _ _ _ => ?_) ?_
    | split

theorem execGetDigests_keep {b : ℕ} {s : State} (hk : Keep s0 s) :
    OKeep s0 (execGetDigests b s) := by
  unfold execGetDigests
  repeat' first
    | with_reducible assumption
    | with_reducible refine State.onSpdm_keep ?_ ?_
    | with_reducible refine State.negotiated_keep ?_ ?_
    | with_reducible refine State.spdm_keep ?_

theorem execGetMeasurements_keep {b : ℕ} {index : ℕ} {signed : Bool} {msg : List Byte} {s : State} (hk : Keep s0 s) :
    OKeep s0 (execGetMeasurements b index signed msg s) := by
  unfold execGetMeasurements
  repeat' first
    | with_reducible assumption
    | with_reducible refine State.onSpdm_keep ?_ ?_
    | with_reducible refine State.negotiated_keep ?_ ?_
    | with_reducible refine State.spdm_keep ?_
    | with_reducible refine State.sign_keep ?_
    | with_reducible refine State.sign_keep_of (by assumption) ?_
    | with_reducible refine OKeep.next ?_
    | with_reducible exact OKeep.fault
    | with_reducible exact OKeep.refused
    | with_reducible refine Keep.foldl (fun _ _ _ => ?_) ?_
    | with_reducible refine Keep.foldl_snd (fun _ _ _ => ?_) ?_
    | split

theorem State.pldm_keep {s : State} {b : ℕ} {r : PldmResp} (hk : Keep s0 s) :
    Keep s0 (State.pldm s b r) := by
  unfold State.pldm
  repeat' first
    | with_reducible assumption
    | with_reducible refine State.sayMgmt_keep ?_

theorem execGetNumericEffecterValue_keep {b : ℕ} {id : ℕ} {s : State} (hk : Keep s0 s) :
    OKeep s0 (execGetNumericEffecterValue b id s) := by
  unfold execGetNumericEffecterValue
  repeat' first
    | with_reducible assumption
    | with_reducible refine State.onBinding_keep ?_ ?_
    | with_reducible refine State.pldm_keep ?_
    | with_reducible refine OKeep.next ?_
    | with_reducible exact OKeep.fault
    | with_reducible exact OKeep.refused
    | with_reducible refine Keep.foldl (fun _ _ _ => ?_) ?_
    | with_reducible refine Keep.foldl_snd (fun _ _ _ => ?_) ?_
    | split

end Sys2Proof.Machine
end

