-- ==== Sys2Proof/Laws/Keep05.lean ====
section
/-! SUPPORT. The operations of the model and the frame `Keep`, part 5. -/

namespace Sys2Proof.Machine

open Sys2Proof

variable {s0 : State}

theorem execGetPdr_keep {b : ℕ} {handle : ℕ} {s : State} (hk : Keep s0 s) :
    OKeep s0 (execGetPdr b handle s) := by
  unfold execGetPdr
  repeat' first
    | with_reducible assumption
    | with_reducible refine State.onBinding_keep ?_ ?_
    | with_reducible refine State.pldm_keep ?_
    | with_reducible refine OKeep.next ?_
    | with_reducible exact OKeep.fault
    | with_reducible exact OKeep.refused
    | with_reducible refine Keep.foldl (fun _ _ _ => ?_) ?_
    | with_reducible refine Keep.foldl_snd (fun _ _ _ => ?_) ?_
    | split

theorem execGetPdrRepositoryInfo_keep {b : ℕ} {s : State} (hk : Keep s0 s) :
    OKeep s0 (execGetPdrRepositoryInfo b s) := by
  unfold execGetPdrRepositoryInfo
  repeat' first
    | with_reducible assumption
    | with_reducible refine State.onBinding_keep ?_ ?_
    | with_reducible refine State.pldm_keep ?_

theorem execGetPldmCommands_keep {b : ℕ} {type : ℕ} {s : State} (hk : Keep s0 s) :
    OKeep s0 (execGetPldmCommands b type s) := by
  unfold execGetPldmCommands
  repeat' first
    | with_reducible assumption
    | with_reducible refine State.onBinding_keep ?_ ?_
    | with_reducible refine State.pldm_keep ?_

theorem execGetPldmTypes_keep {b : ℕ} {s : State} (hk : Keep s0 s) :
    OKeep s0 (execGetPldmTypes b s) := by
  unfold execGetPldmTypes
  repeat' first
    | with_reducible assumption
    | with_reducible refine State.onBinding_keep ?_ ?_
    | with_reducible refine State.pldm_keep ?_

theorem execGetPldmVersion_keep {b : ℕ} {type : ℕ} {s : State} (hk : Keep s0 s) :
    OKeep s0 (execGetPldmVersion b type s) := by
  unfold execGetPldmVersion
  repeat' first
    | with_reducible assumption
    | with_reducible refine State.onBinding_keep ?_ ?_
    | with_reducible refine State.pldm_keep ?_
    | with_reducible refine State.fresh_keep ?_
    | with_reducible refine State.fresh_keep_of (by assumption) ?_
    | with_reducible refine OKeep.next ?_
    | with_reducible exact OKeep.fault
    | with_reducible exact OKeep.refused
    | with_reducible refine Keep.foldl (fun _ _ _ => ?_) ?_
    | with_reducible refine Keep.foldl_snd (fun _ _ _ => ?_) ?_
    | split

theorem execGetSensorReading_keep {b : ℕ} {id : ℕ} {s : State} (hk : Keep s0 s) :
    OKeep s0 (execGetSensorReading b id s) := by
  unfold execGetSensorReading
  repeat' first
    | with_reducible assumption
    | with_reducible refine State.onBinding_keep ?_ ?_
    | with_reducible refine State.pldm_keep ?_
    | with_reducible refine OKeep.next ?_
    | with_reducible exact OKeep.fault
    | with_reducible exact OKeep.refused
    | with_reducible refine Keep.foldl (fun _ _ _ => ?_) ?_
    | with_reducible refine Keep.foldl_snd (fun _ _ _ => ?_) ?_
    | split

theorem execGetStateEffecterStates_keep {b : ℕ} {id : ℕ} {s : State} (hk : Keep s0 s) :
    OKeep s0 (execGetStateEffecterStates b id s) := by
  unfold execGetStateEffecterStates
  repeat' first
    | with_reducible assumption
    | with_reducible refine State.onBinding_keep ?_ ?_
    | with_reducible refine State.pldm_keep ?_
    | with_reducible refine OKeep.next ?_
    | with_reducible exact OKeep.fault
    | with_reducible exact OKeep.refused
    | with_reducible refine Keep.foldl (fun _ _ _ => ?_) ?_
    | with_reducible refine Keep.foldl_snd (fun _ _ _ => ?_) ?_
    | split

theorem execGetStateSensorReadings_keep {b : ℕ} {id : ℕ} {s : State} (hk : Keep s0 s) :
    OKeep s0 (execGetStateSensorReadings b id s) := by
  unfold execGetStateSensorReadings
  repeat' first
    | with_reducible assumption
    | with_reducible refine State.onBinding_keep ?_ ?_
    | with_reducible refine State.pldm_keep ?_
    | with_reducible refine OKeep.next ?_
    | with_reducible exact OKeep.fault
    | with_reducible exact OKeep.refused
    | with_reducible refine Keep.foldl (fun _ _ _ => ?_) ?_
    | with_reducible refine Keep.foldl_snd (fun _ _ _ => ?_) ?_
    | split

theorem execGetTid_keep {b : ℕ} {s : State} (hk : Keep s0 s) :
    OKeep s0 (execGetTid b s) := by
  unfold execGetTid
  repeat' first
    | with_reducible assumption
    | with_reducible refine State.onBinding_keep ?_ ?_
    | with_reducible refine State.pldm_keep ?_

theorem execGetVersion_keep {b : ℕ} {s : State} (hk : Keep s0 s) :
    OKeep s0 (execGetVersion b s) := by
  unfold execGetVersion
  repeat' first
    | with_reducible assumption
    | with_reducible refine State.onSpdm_keep ?_ ?_
    | with_reducible refine State.spdm_keep ?_
    | with_reducible refine State.setConn_keep ?_

theorem execGetbcr_keep {s : State} (hk : Keep s0 s) :
    OKeep s0 (execGetbcr s) := by
  unfold execGetbcr
  repeat' first
    | with_reducible assumption
    | with_reducible refine State.onI3c_keep ?_ ?_
    | with_reducible refine State.sayMgmt_keep ?_

theorem execGetdcr_keep {s : State} (hk : Keep s0 s) :
    OKeep s0 (execGetdcr s) := by
  unfold execGetdcr
  repeat' first
    | with_reducible assumption
    | with_reducible refine State.onI3c_keep ?_ ?_
    | with_reducible refine State.sayMgmt_keep ?_

theorem execGetmrl_keep {s : State} (hk : Keep s0 s) :
    OKeep s0 (execGetmrl s) := by
  unfold execGetmrl
  repeat' first
    | with_reducible assumption
    | with_reducible refine State.onI3c_keep ?_ ?_
    | with_reducible refine State.sayMgmt_keep ?_

theorem execGetmwl_keep {s : State} (hk : Keep s0 s) :
    OKeep s0 (execGetmwl s) := by
  unfold execGetmwl
  repeat' first
    | with_reducible assumption
    | with_reducible refine State.onI3c_keep ?_ ?_
    | with_reducible refine State.sayMgmt_keep ?_

theorem execGetpid_keep {s : State} (hk : Keep s0 s) :
    OKeep s0 (execGetpid s) := by
  unfold execGetpid
  repeat' first
    | with_reducible assumption
    | with_reducible refine State.onI3c_keep ?_ ?_
    | with_reducible refine State.sayMgmt_keep ?_

theorem execGetstatus_keep {s : State} (hk : Keep s0 s) :
    OKeep s0 (execGetstatus s) := by
  unfold execGetstatus
  repeat' first
    | with_reducible assumption
    | with_reducible refine State.onI3c_keep ?_ ?_
    | with_reducible refine State.sayMgmt_keep ?_
    | with_reducible refine State.fresh_keep ?_

theorem execKeyExchange_keep {b : ℕ} {msg : List Byte} {s : State} (hk : Keep s0 s) :
    OKeep s0 (execKeyExchange b msg s) := by
  unfold execKeyExchange
  repeat' first
    | with_reducible assumption
    | with_reducible refine State.onSpdm_keep ?_ ?_
    | with_reducible refine State.negotiated_keep ?_ ?_
    | with_reducible refine State.spdm_keep ?_
    | with_reducible refine State.sign_keep ?_
    | with_reducible refine State.sign_keep_of (by assumption) ?_
    | with_reducible refine State.setMgmt_keep ?_
    | with_reducible refine OKeep.next ?_
    | with_reducible exact OKeep.fault
    | with_reducible exact OKeep.refused
    | with_reducible refine Keep.foldl (fun _ _ _ => ?_) ?_
    | with_reducible refine Keep.foldl_snd (fun _ _ _ => ?_) ?_
    | split

theorem execKeyUpdate_keep {b : ℕ} {id : ℕ} {s : State} (hk : Keep s0 s) :
    OKeep s0 (execKeyUpdate b id s) := by
  unfold execKeyUpdate
  repeat' first
    | with_reducible assumption
    | with_reducible refine State.onSpdm_keep ?_ ?_
    | with_reducible refine State.spdm_keep ?_
    | with_reducible refine State.setSession_keep ?_
    | with_reducible refine OKeep.next ?_
    | with_reducible exact OKeep.fault
    | with_reducible exact OKeep.refused
    | with_reducible refine Keep.foldl (fun _ _ _ => ?_) ?_
    | with_reducible refine Keep.foldl_snd (fun _ _ _ => ?_) ?_
    | split

theorem execNegotiateAlgorithms_keep {b : ℕ} {offered : List Bool} {s : State} (hk : Keep s0 s) :
    OKeep s0 (execNegotiateAlgorithms b offered s) := by
  unfold execNegotiateAlgorithms
  repeat' first
    | with_reducible assumption
    | with_reducible refine State.onSpdm_keep ?_ ?_
    | with_reducible refine State.spdm_keep ?_
    | with_reducible refine State.setConn_keep ?_
    | with_reducible refine OKeep.next ?_
    | with_reducible exact OKeep.fault
    | with_reducible exact OKeep.refused
    | with_reducible refine Keep.foldl (fun _ _ _ => ?_) ?_
    | with_reducible refine Keep.foldl_snd (fun _ _ _ => ?_) ?_
    | split

theorem execRevocationOrder_keep {b : ℕ} {o : List Byte} {s : State} (hk : Keep s0 s) :
    OKeep s0 (execRevocationOrder b o s) := by
  unfold execRevocationOrder
  repeat' first
    | with_reducible assumption
    | with_reducible refine State.setFuses_keep rfl (Fuses.blownFrom_revoke _ _) ?_
    | with_reducible refine State.onBinding_keep ?_ ?_
    | with_reducible refine State.sayMgmt_keep ?_
    | with_reducible refine State.measureHardware_keep ?_
    | with_reducible refine OKeep.next ?_
    | with_reducible exact OKeep.fault
    | with_reducible exact OKeep.refused
    | with_reducible refine Keep.foldl (fun _ _ _ => ?_) ?_
    | with_reducible refine Keep.foldl_snd (fun _ _ _ => ?_) ?_
    | split

theorem execRstdaa_keep {s : State} (hk : Keep s0 s) :
    OKeep s0 (execRstdaa s) := by
  unfold execRstdaa
  repeat' first
    | with_reducible assumption
    | with_reducible refine State.onI3c_keep ?_ ?_
    | with_reducible refine State.setMgmt_keep ?_

theorem State.platformEvent_keep {s : State} {id : ℕ} {v : ℤ} (hk : Keep s0 s) :
    Keep s0 (State.platformEvent s id v) := by
  unfold State.platformEvent
  repeat' first
    | with_reducible assumption
    | with_reducible refine State.sayMgmt_keep ?_
    | with_reducible refine Keep.foldl (fun _ _ _ => ?_) ?_
    | with_reducible refine Keep.foldl_snd (fun _ _ _ => ?_) ?_
    | split

theorem State.stateEvent_keep {s : State} {id : ℕ} (hk : Keep s0 s) :
    Keep s0 (State.stateEvent s id) := by
  unfold State.stateEvent
  repeat' first
    | with_reducible assumption
    | with_reducible refine State.setMgmt_keep ?_
    | with_reducible refine State.platformEvent_keep ?_
    | with_reducible refine Keep.foldl (fun _ _ _ => ?_) ?_
    | with_reducible refine Keep.foldl_snd (fun _ _ _ => ?_) ?_
    | split
    | fail_if_no_progress ((with_reducible refine Keep.upd ?_ ?_); exact rfl)
    | dsimp only

theorem execSensorSample_keep {id : ℕ} {v : ℤ} {s : State} (hk : Keep s0 s) :
    OKeep s0 (execSensorSample id v s) := by
  unfold execSensorSample
  repeat' first
    | with_reducible assumption
    | with_reducible refine State.stateEvent_keep ?_
    | with_reducible refine State.sampleRegs_keep ?_
    | with_reducible refine State.setMgmt_keep ?_
    | with_reducible refine State.platformEvent_keep ?_
    | with_reducible refine OKeep.next ?_
    | with_reducible exact OKeep.fault
    | with_reducible exact OKeep.refused
    | with_reducible refine Keep.foldl (fun _ _ _ => ?_) ?_
    | with_reducible refine Keep.foldl_snd (fun _ _ _ => ?_) ?_
    | split

theorem execSetCertificate_keep {b : ℕ} {slot : ℕ} {chain : List Byte} {leafKey : ℕ} {s : State} (hk : Keep s0 s) :
    OKeep s0 (execSetCertificate b slot chain leafKey s) := by
  unfold execSetCertificate
  repeat' first
    | with_reducible assumption
    | with_reducible refine State.onSpdm_keep ?_ ?_
    | with_reducible refine State.negotiated_keep ?_ ?_
    | with_reducible refine State.spdm_keep ?_
    | with_reducible refine State.setMgmt_keep ?_
    | with_reducible refine OKeep.next ?_
    | with_reducible exact OKeep.fault
    | with_reducible exact OKeep.refused
    | with_reducible refine Keep.foldl (fun _ _ _ => ?_) ?_
    | with_reducible refine Keep.foldl_snd (fun _ _ _ => ?_) ?_
    | split

theorem execSetEndpointId_keep {b : ℕ} {eid : ℕ} {s : State} (hk : Keep s0 s) :
    OKeep s0 (execSetEndpointId b eid s) := by
  unfold execSetEndpointId
  repeat' first
    | with_reducible assumption
    | with_reducible refine State.onBinding_keep ?_ ?_
    | with_reducible refine State.sayMgmt_keep ?_
    | with_reducible refine State.setMgmt_keep ?_

theorem execSetEventReceiver_keep {b : ℕ} {eid : ℕ} {s : State} (hk : Keep s0 s) :
    OKeep s0 (execSetEventReceiver b eid s) := by
  unfold execSetEventReceiver
  repeat' first
    | with_reducible assumption
    | with_reducible refine State.onBinding_keep ?_ ?_
    | with_reducible refine State.pldm_keep ?_
    | with_reducible refine State.setMgmt_keep ?_

theorem State.applyLimit_keep {s : State} (hk : Keep s0 s) :
    Keep s0 (State.applyLimit s) := by
  unfold State.applyLimit
  repeat' first
    | with_reducible assumption
    | with_reducible refine State.setFld_keep ?_

theorem execSetNumericEffecterValue_keep {b : ℕ} {id : ℕ} {v : ℕ} {s : State} (hk : Keep s0 s) :
    OKeep s0 (execSetNumericEffecterValue b id v s) := by
  unfold execSetNumericEffecterValue
  repeat' first
    | with_reducible assumption
    | with_reducible refine State.onBinding_keep ?_ ?_
    | with_reducible refine State.pldm_keep ?_
    | with_reducible refine State.applyLimit_keep ?_
    | with_reducible refine State.setMgmt_keep ?_
    | with_reducible refine OKeep.next ?_
    | with_reducible exact OKeep.fault
    | with_reducible exact OKeep.refused
    | with_reducible refine Keep.foldl (fun _ _ _ => ?_) ?_
    | with_reducible refine Keep.foldl_snd (fun _ _ _ => ?_) ?_
    | split

theorem execSetStateEffecterStates_keep {b : ℕ} {id : ℕ} {v : ℕ} {s : State} (hk : Keep s0 s) :
    OKeep s0 (execSetStateEffecterStates b id v s) := by
  unfold execSetStateEffecterStates
  repeat' first
    | with_reducible assumption
    | with_reducible refine State.onBinding_keep ?_ ?_
    | with_reducible refine State.pldm_keep ?_
    | with_reducible refine State.setBoot_keep ?_
    | with_reducible refine OKeep.next ?_
    | with_reducible exact OKeep.fault
    | with_reducible exact OKeep.refused
    | with_reducible refine Keep.foldl (fun _ _ _ => ?_) ?_
    | with_reducible refine Keep.foldl_snd (fun _ _ _ => ?_) ?_
    | split

theorem execSetTid_keep {b : ℕ} {v : ℕ} {s : State} (hk : Keep s0 s) :
    OKeep s0 (execSetTid b v s) := by
  unfold execSetTid
  repeat' first
    | with_reducible assumption
    | with_reducible refine State.onBinding_keep ?_ ?_
    | with_reducible refine State.pldm_keep ?_
    | with_reducible refine State.setMgmt_keep ?_

theorem execSetdasa_keep {static : ℕ} {addr : ℕ} {s : State} (hk : Keep s0 s) :
    OKeep s0 (execSetdasa static addr s) := by
  unfold execSetdasa
  repeat' first
    | with_reducible assumption
    | with_reducible refine State.setMgmt_keep ?_
    | with_reducible refine OKeep.next ?_
    | with_reducible exact OKeep.fault
    | with_reducible exact OKeep.refused
    | with_reducible refine Keep.foldl (fun _ _ _ => ?_) ?_
    | with_reducible refine Keep.foldl_snd (fun _ _ _ => ?_) ?_
    | split

theorem execSetmrl_keep {v : ℕ} {s : State} (hk : Keep s0 s) :
    OKeep s0 (execSetmrl v s) := by
  unfold execSetmrl
  repeat' first
    | with_reducible assumption
    | with_reducible refine State.onI3c_keep ?_ ?_
    | with_reducible refine State.setMgmt_keep ?_

theorem execSetmwl_keep {v : ℕ} {s : State} (hk : Keep s0 s) :
    OKeep s0 (execSetmwl v s) := by
  unfold execSetmwl
  repeat' first
    | with_reducible assumption
    | with_reducible refine State.onI3c_keep ?_ ?_
    | with_reducible refine State.setMgmt_keep ?_

theorem execStateEventTimer_keep {id : ℕ} {s : State} (hk : Keep s0 s) :
    OKeep s0 (execStateEventTimer id s) := by
  unfold execStateEventTimer
  repeat' first
    | with_reducible assumption
    | with_reducible refine State.stateEvent_keep ?_
    | with_reducible refine OKeep.next ?_
    | with_reducible exact OKeep.fault
    | with_reducible exact OKeep.refused
    | with_reducible refine Keep.foldl (fun _ _ _ => ?_) ?_
    | with_reducible refine Keep.foldl_snd (fun _ _ _ => ?_) ?_
    | split

theorem State.applyClocks_keep {s : State} (hk : Keep s0 s) :
    Keep s0 (State.applyClocks s) := by
  unfold State.applyClocks
  repeat' first
    | with_reducible assumption
    | with_reducible refine State.setReg_keep ?_

theorem State.powerEvent_keep {s : State} {bit : ℕ} (hk : Keep s0 s) :
    Keep s0 (State.powerEvent s bit) := by
  unfold State.powerEvent
  repeat' first
    | with_reducible assumption
    | with_reducible refine State.msixIf_keep ?_
    | with_reducible refine State.setFlag_keep ?_

theorem State.applyPower_keep {s : State} (hk : Keep s0 s) :
    Keep s0 (State.applyPower s) := by
  unfold State.applyPower
  repeat' first
    | with_reducible assumption
    | with_reducible refine State.applyClocks_keep ?_
    | with_reducible refine State.setFlag_keep ?_
    | with_reducible refine State.setPower_keep ?_
    | with_reducible refine State.powerEvent_keep ?_
    | with_reducible refine Keep.foldl (fun _ _ _ => ?_) ?_
    | with_reducible refine Keep.foldl_snd (fun _ _ _ => ?_) ?_
    | split
    | fail_if_no_progress ((with_reducible refine Keep.upd ?_ ?_); exact rfl)
    | dsimp only

theorem execClkLimitWrite_keep {v : W32} {s : State} (hk : Keep s0 s) :
    OKeep s0 (execClkLimitWrite v s) := by
  unfold execClkLimitWrite
  repeat' first
    | with_reducible assumption
    | with_reducible refine State.applyPower_keep ?_
    | with_reducible refine State.setFld_keep ?_
    | with_reducible refine OKeep.next ?_
    | with_reducible exact OKeep.fault
    | with_reducible exact OKeep.refused
    | with_reducible refine Keep.foldl (fun _ _ _ => ?_) ?_
    | with_reducible refine Keep.foldl_snd (fun _ _ _ => ?_) ?_
    | split

theorem execFastClamp_keep {s : State} (hk : Keep s0 s) :
    OKeep s0 (execFastClamp s) := by
  unfold execFastClamp
  repeat' first
    | with_reducible assumption
    | with_reducible refine State.applyPower_keep ?_
    | with_reducible refine State.setPower_keep ?_
    | with_reducible refine OKeep.next ?_
    | with_reducible exact OKeep.fault
    | with_reducible exact OKeep.refused
    | with_reducible refine Keep.foldl (fun _ _ _ => ?_) ?_
    | with_reducible refine Keep.foldl_snd (fun _ _ _ => ?_) ?_
    | split

theorem execFastClampRelease_keep {s : State} (hk : Keep s0 s) :
    OKeep s0 (execFastClampRelease s) := by
  unfold execFastClampRelease
  repeat' first
    | with_reducible assumption
    | with_reducible refine State.applyPower_keep ?_
    | with_reducible refine State.setPower_keep ?_
    | with_reducible refine OKeep.next ?_

theorem State.setUnmet_keep {s : State} {b : Bool} (hk : Keep s0 s) :
    Keep s0 (State.setUnmet s b) := by
  unfold State.setUnmet
  repeat' first
    | with_reducible assumption
    | with_reducible refine State.setMgmt_keep ?_
    | with_reducible refine State.setFlag_keep ?_
    | with_reducible refine State.powerEvent_keep ?_
    | with_reducible refine Keep.foldl (fun _ _ _ => ?_) ?_
    | with_reducible refine Keep.foldl_snd (fun _ _ _ => ?_) ?_
    | split

theorem execPowerControlTick_keep {p100 : ℕ} {p1ms : ℕ} {mj : ℕ} {s : State} (hk : Keep s0 s) :
    OKeep s0 (execPowerControlTick p100 p1ms mj s) := by
  unfold execPowerControlTick
  repeat' first
    | with_reducible assumption
    | with_reducible refine State.setReg64_keep ?_
    | with_reducible refine State.setFld_keep ?_
    | with_reducible refine State.setPower_keep ?_
    | with_reducible refine State.applyLimit_keep ?_
    | with_reducible refine State.setUnmet_keep ?_
    | with_reducible refine State.applyPower_keep ?_
    | with_reducible refine OKeep.next ?_
    | with_reducible exact OKeep.fault
    | with_reducible exact OKeep.refused
    | with_reducible refine Keep.foldl (fun _ _ _ => ?_) ?_
    | with_reducible refine Keep.foldl_snd (fun _ _ _ => ?_) ?_
    | split

theorem execThermalControlTick_keep {half : ℕ} {tj : ℤ} {stack : ℤ} {s : State} (hk : Keep s0 s) :
    OKeep s0 (execThermalControlTick half tj stack s) := by
  unfold execThermalControlTick
  repeat' first
    | with_reducible assumption
    | with_reducible refine State.applyPower_keep ?_
    | with_reducible refine State.setPower_keep ?_
    | with_reducible refine State.setFld_keep ?_
    | with_reducible refine OKeep.next ?_
    | with_reducible exact OKeep.fault
    | with_reducible exact OKeep.refused
    | with_reducible refine Keep.foldl (fun _ _ _ => ?_) ?_
    | with_reducible refine Keep.foldl_snd (fun _ _ _ => ?_) ?_
    | split

theorem execThermalTrip_keep {s : State} (hk : Keep s0 s) :
    OKeep s0 (execThermalTrip s) := by
  unfold execThermalTrip
  repeat' first
    | with_reducible assumption
    | with_reducible refine State.fatal_keep ?_
    | with_reducible refine State.setPins_keep ?_
    | with_reducible refine OKeep.next ?_
    | with_reducible exact OKeep.fault
    | with_reducible exact OKeep.refused
    | with_reducible refine Keep.foldl (fun _ _ _ => ?_) ?_
    | with_reducible refine Keep.foldl_snd (fun _ _ _ => ?_) ?_
    | split

theorem State.fillBuffer_keep {s : State} {p : ℕ} {v : View} (hk : Keep s0 s) :
    Keep s0 (State.fillBuffer s p v) := by
  unfold State.fillBuffer
  repeat' first
    | with_reducible assumption
    | with_reducible refine Keep.foldl (fun _ _ _ => ?_) ?_
    | with_reducible refine Keep.foldl_snd (fun _ _ _ => ?_) ?_
    | split
    | fail_if_no_progress ((with_reducible refine Keep.upd ?_ ?_); exact rfl)

theorem State.pressBegin_keep {s : State} {n : ℕ} {c : Cmd} (hk : Keep s0 s) :
    Keep s0 (State.pressBegin s n c) := by
  unfold State.pressBegin
  repeat' first
    | with_reducible assumption
    | with_reducible refine State.startJob_keep ?_
    | with_reducible refine State.pressGate_keep ?_
    | with_reducible refine Keep.foldl (fun _ _ _ => ?_) ?_
    | with_reducible refine Keep.foldl_snd (fun _ _ _ => ?_) ?_
    | split

theorem State.pressUnitLost_keep {s : State} {n : ℕ} {tag : ℕ} {p : ℕ} (hk : Keep s0 s) :
    Keep s0 (State.pressUnitLost s n tag p) := by
  unfold State.pressUnitLost
  repeat' first
    | with_reducible assumption
    | with_reducible refine State.pressSettle_keep ?_
    | with_reducible refine State.updPress_keep ?_
    | with_reducible refine State.setPressEng_keep ?_

theorem State.pressSpanDone_keep {s : State} {n : ℕ} {tag : ℕ} {p : ℕ} {r : ℕ} (hk : Keep s0 s) :
    Keep s0 (State.pressSpanDone s n tag p r) := by
  unfold State.pressSpanDone
  repeat' first
    | with_reducible assumption
    | with_reducible refine State.setPressEng_keep ?_
    | with_reducible refine State.pressSettle_keep ?_
    | with_reducible refine State.progressFor_keep ?_
    | with_reducible refine State.updPress_keep ?_
    | with_reducible refine Keep.foldl (fun _ _ _ => ?_) ?_
    | with_reducible refine Keep.foldl_snd (fun _ _ _ => ?_) ?_
    | split
    | fail_if_no_progress ((with_reducible refine Keep.upd ?_ ?_); exact rfl)
    | dsimp only

theorem State.pressCompute_keep {s : State} {n : ℕ} {tag : ℕ} {p : ℕ} {j : PressJob} {io : List (PressIo × List (ℕ × ℕ × ℕ))} {buf : Memory} {bad : Store Bool} (hk : Keep s0 s) :
    Keep s0 (State.pressCompute s n tag p j io buf bad) := by
  unfold State.pressCompute
  repeat' first
    | with_reducible assumption
    | with_reducible refine State.fillBuffer_keep ?_
    | with_reducible refine State.noteReads_keep ?_
    | with_reducible refine State.cmdFaultRec_keep ?_
    | with_reducible refine State.engPut_keep ?_
    | with_reducible refine State.engPut_keep_lost (by assumption) ?_
    | with_reducible refine State.engPut_keep_ok (by assumption) ?_
    | with_reducible refine State.pressUnitLost_keep ?_
    | with_reducible refine State.updPress_keep ?_
    | with_reducible refine State.setPressEng_keep ?_
    | with_reducible refine State.pressSpanDone_keep ?_
    | with_reducible refine Keep.foldl (fun _ _ _ => ?_) ?_
    | with_reducible refine Keep.foldl_snd (fun _ _ _ => ?_) ?_
    | split
    | fail_if_no_progress ((with_reducible refine Keep.upd ?_ ?_); exact rfl)
    | dsimp only

theorem execPress_keep {n : ℕ} {tag : ℕ} {s : State} (hk : Keep s0 s) :
    OKeep s0 (execPress n tag s) := by
  unfold execPress
  repeat' first
    | with_reducible assumption
    | with_reducible refine State.pressBegin_keep ?_
    | with_reducible refine State.pressOpen_keep ?_
    | with_reducible refine State.pressStats_keep ?_
    | with_reducible refine State.pressClose_keep ?_
    | with_reducible refine OKeep.next ?_
    | with_reducible exact OKeep.fault
    | with_reducible exact OKeep.refused
    | with_reducible refine Keep.foldl (fun _ _ _ => ?_) ?_
    | with_reducible refine Keep.foldl_snd (fun _ _ _ => ?_) ?_
    | split

theorem execPressParityRestart_keep {p : PressPart} {s : State} (hk : Keep s0 s) :
    OKeep s0 (execPressParityRestart p s) := by
  unfold execPressParityRestart
  repeat' first
    | with_reducible assumption
    | with_reducible refine State.setPressEng_keep ?_
    | with_reducible refine State.pressUnitFault_keep ?_
    | with_reducible refine State.dropXfer_keep ?_
    | with_reducible refine OKeep.next ?_
    | with_reducible exact OKeep.fault
    | with_reducible exact OKeep.refused
    | with_reducible refine Keep.foldl (fun _ _ _ => ?_) ?_
    | with_reducible refine Keep.foldl_snd (fun _ _ _ => ?_) ?_
    | split
    | dsimp only

theorem execPressSpanComplete_keep {p : ℕ} {s : State} (hk : Keep s0 s) :
    OKeep s0 (execPressSpanComplete p s) := by
  unfold execPressSpanComplete
  repeat' first
    | with_reducible assumption
    | with_reducible refine State.setPressEng_keep ?_
    | with_reducible refine State.pressUnitFault_keep ?_
    | with_reducible refine State.cmdFaultRec_keep ?_
    | with_reducible refine State.hostReadError_keep ?_
    | with_reducible refine State.engNow_keep ?_
    | with_reducible refine State.engNow_keep_wait (by assumption) ?_
    | with_reducible refine State.engNow_keep_refused (by assumption) ?_
    | with_reducible refine State.engNow_keep_lost (by assumption) ?_
    | with_reducible refine State.engNow_keep_done (by assumption) ?_
    | with_reducible refine State.engNow_keep_go (by assumption) ?_
    | with_reducible refine State.pressUnitLost_keep ?_
    | with_reducible refine State.pressSpanDone_keep ?_
    | with_reducible refine State.pressCompute_keep ?_
    | with_reducible refine OKeep.next ?_
    | with_reducible exact OKeep.fault
    | with_reducible exact OKeep.refused
    | with_reducible refine Keep.foldl (fun _ _ _ => ?_) ?_
    | with_reducible refine Keep.foldl_snd (fun _ _ _ => ?_) ?_
    | split
    | dsimp only

theorem execPressUnitHandout_keep {p : ℕ} {s : State} (hk : Keep s0 s) :
    OKeep s0 (execPressUnitHandout p s) := by
  unfold execPressUnitHandout
  repeat' first
    | with_reducible assumption
    | with_reducible refine State.setPressEng_keep ?_
    | with_reducible refine State.updPress_keep ?_
    | with_reducible refine OKeep.next ?_
    | with_reducible exact OKeep.fault
    | with_reducible exact OKeep.refused
    | with_reducible refine Keep.foldl (fun _ _ _ => ?_) ?_
    | with_reducible refine Keep.foldl_snd (fun _ _ _ => ?_) ?_
    | split
    | fail_if_no_progress ((with_reducible refine Keep.upd ?_ ?_); exact rfl)
    | dsimp only

theorem State.afterWrite_keep {s : State} {t : State} {off : ℕ} (hk : Keep s0 s) (h2 : Keep s0 t) :
    Keep s0 (State.afterWrite s t off) := by
  unfold State.afterWrite
  repeat' first
    | with_reducible assumption
    | with_reducible refine State.applyLimit_keep ?_
    | with_reducible refine State.setPmu_keep ?_
    | with_reducible refine Keep.foldl (fun _ _ _ => ?_) ?_
    | with_reducible refine Keep.foldl_snd (fun _ _ _ => ?_) ?_
    | split

theorem State.bar2Write_keep {s : State} {x : ℕ} {bs : List Byte} (hk : Keep s0 s) :
    Keep s0 (State.bar2Write s x bs) := by
  unfold State.bar2Write
  repeat' first
    | with_reducible assumption
    | with_reducible refine State.devWrite_keep ?_
    | with_reducible refine State.countPartial_keep ?_

theorem State.release_keep {s : State} {v : ℕ} (hk : Keep s0 s) :
    Keep s0 (State.release s v) := by
  unfold State.release
  repeat' first
    | with_reducible assumption
    | with_reducible refine State.sendMsix_keep ?_
    | with_reducible refine Keep.foldl (fun _ _ _ => ?_) ?_
    | with_reducible refine Keep.foldl_snd (fun _ _ _ => ?_) ?_
    | split

theorem State.tableWrite_keep {s : State} {off : ℕ} {v : ℕ} (hk : Keep s0 s) :
    Keep s0 (State.tableWrite s off v) := by
  unfold State.tableWrite
  repeat' first
    | with_reducible assumption
    | with_reducible refine State.release_keep ?_
    | with_reducible refine Keep.foldl (fun _ _ _ => ?_) ?_
    | with_reducible refine Keep.foldl_snd (fun _ _ _ => ?_) ?_
    | split
    | fail_if_no_progress ((with_reducible refine Keep.upd ?_ ?_); exact rfl)

theorem State.bar4Write_keep {s : State} {off : ℕ} {size : ℕ} {v : ℕ} (hk : Keep s0 s) :
    Keep s0 (State.bar4Write s off size v) := by
  unfold State.bar4Write
  repeat' first
    | with_reducible assumption
    | with_reducible refine State.tableWrite_keep ?_
    | with_reducible refine Keep.foldl (fun _ _ _ => ?_) ?_
    | with_reducible refine Keep.foldl_snd (fun _ _ _ => ?_) ?_
    | split

theorem State.releaseAll_keep {s : State} (hk : Keep s0 s) :
    Keep s0 (State.releaseAll s) := by
  unfold State.releaseAll
  repeat' first
    | with_reducible assumption
    | with_reducible refine State.release_keep ?_
    | with_reducible refine Keep.foldl (fun _ _ _ => ?_) ?_

theorem State.stage_keep {s : State} {off : ℕ} {v : ℕ} (hk : Keep s0 s) :
    Keep s0 (State.stage s off v) := by
  unfold State.stage
  repeat' first
    | with_reducible assumption
    | with_reducible refine Keep.foldl (fun _ _ _ => ?_) ?_
    | with_reducible refine Keep.foldl_snd (fun _ _ _ => ?_) ?_
    | split
    | fail_if_no_progress ((with_reducible refine Keep.upd ?_ ?_); exact rfl)

theorem State.storeWord_keep {s : State} {off : ℕ} {v : ℕ} {r : RegRow} (hk : Keep s0 s) :
    Keep s0 (State.storeWord s off v r) := by
  unfold State.storeWord
  repeat' first
    | with_reducible assumption
    | with_reducible refine State.afterWrite_keep ?_ ?_
    | with_reducible refine State.setReg_keep ?_

theorem execPmDump_keep {v : W64} {s : State} (hk : Keep s0 s) :
    OKeep s0 (execPmDump v s) := by
  unfold execPmDump
  repeat' first
    | with_reducible assumption
    | with_reducible refine State.setReg64_keep ?_
    | with_reducible refine State.setFlag_keep ?_
    | with_reducible refine State.physWrite_keep ?_
    | with_reducible refine OKeep.next ?_
    | with_reducible exact OKeep.fault
    | with_reducible exact OKeep.refused
    | with_reducible refine Keep.foldl (fun _ _ _ => ?_) ?_
    | with_reducible refine Keep.foldl_snd (fun _ _ _ => ?_) ?_
    | split

theorem andNext_keep {o : Host.Outcome State Fault Refusal} {f : State → Host.Outcome State Fault Refusal}
    (hf : ∀ t, Keep s0 t → OKeep s0 (f t)) (h : OKeep s0 o) : OKeep s0 (andNext o f) := by
  unfold andNext
  split
  · exact hf _ (h _ rfl)
  · exact OKeep.fault
  · exact OKeep.refused

theorem nextIf_keep {b : Bool} {s : State} {f : State → Host.Outcome State Fault Refusal} (hf : ∀ t, Keep s0 t → OKeep s0 (f t))
    (h : Keep s0 s) : OKeep s0 (nextIf b s f) := by
  unfold nextIf
  split
  · exact hf s h
  · exact OKeep.next h

theorem State.writeCtxCtrl_keep {s : State} {n : ℕ} {v : ℕ} (hk : Keep s0 s) :
    OKeep s0 (State.writeCtxCtrl s n v) := by
  unfold State.writeCtxCtrl
  repeat' first
    | with_reducible assumption
    | with_reducible refine State.setFld_keep ?_
    | with_reducible refine State.setFlag_keep ?_
    | with_reducible refine andNext_keep (fun _ _ => ?_) ?_
    | with_reducible refine execCtxPreempt_keep ?_
    | with_reducible refine execCtxResume_keep ?_
    | with_reducible refine execCtxEnable_keep ?_
    | with_reducible refine execCtxDisable_keep ?_
    | with_reducible refine nextIf_keep (fun _ _ => ?_) ?_
    | with_reducible refine execCtxReset_keep ?_
    | with_reducible refine OKeep.next ?_
    | with_reducible exact OKeep.fault
    | with_reducible exact OKeep.refused
    | with_reducible refine Keep.foldl (fun _ _ _ => ?_) ?_
    | with_reducible refine Keep.foldl_snd (fun _ _ _ => ?_) ?_
    | split
theorem State.writeCtxCtrl_keep_of {s : State} {n : ℕ} {v : ℕ} {t1 : State} (e : State.writeCtxCtrl s n v = .next t1) (hk : Keep s0 s) : Keep s0 t1 := State.writeCtxCtrl_keep hk t1 e

theorem State.writeEvtSel_keep {s : State} {c : ℕ} {v : ℕ} (hk : Keep s0 s) :
    OKeep s0 (State.writeEvtSel s c v) := by
  unfold State.writeEvtSel
  repeat' first
    | with_reducible assumption
    | with_reducible refine State.setCtr_keep ?_
    | with_reducible refine OKeep.next ?_
    | with_reducible exact OKeep.fault
    | with_reducible exact OKeep.refused
    | with_reducible refine Keep.foldl (fun _ _ _ => ?_) ?_
    | with_reducible refine Keep.foldl_snd (fun _ _ _ => ?_) ?_
    | split
    | dsimp only
theorem State.writeEvtSel_keep_of {s : State} {c : ℕ} {v : ℕ} {t1 : State} (e : State.writeEvtSel s c v = .next t1) (hk : Keep s0 s) : Keep s0 t1 := State.writeEvtSel_keep hk t1 e

theorem State.writeBootCtrl_keep {s : State} {v : ℕ} (hk : Keep s0 s) :
    OKeep s0 (State.writeBootCtrl s v) := by
  unfold State.writeBootCtrl
  repeat' first
    | with_reducible assumption
    | with_reducible refine andNext_keep (fun _ _ => ?_) ?_
    | with_reducible refine nextIf_keep (fun _ _ => ?_) ?_
    | with_reducible refine execGo_keep ?_
    | with_reducible refine execAdvance_keep ?_
    | with_reducible refine execBootReset_keep ?_
    | with_reducible refine OKeep.next ?_
    | with_reducible exact OKeep.fault
    | with_reducible exact OKeep.refused
    | with_reducible refine Keep.foldl (fun _ _ _ => ?_) ?_
    | with_reducible refine Keep.foldl_snd (fun _ _ _ => ?_) ?_
    | split
theorem State.writeBootCtrl_keep_of {s : State} {v : ℕ} {t1 : State} (e : State.writeBootCtrl s v = .next t1) (hk : Keep s0 s) : Keep s0 t1 := State.writeBootCtrl_keep hk t1 e

theorem State.writeDbgCtrl_keep {s : State} {v : ℕ} (hk : Keep s0 s) :
    OKeep s0 (State.writeDbgCtrl s v) := by
  unfold State.writeDbgCtrl
  repeat' first
    | with_reducible assumption
    | with_reducible refine State.setFld_keep ?_
    | with_reducible refine State.showHalted_keep ?_
    | with_reducible refine State.setFlag_keep ?_
    | with_reducible refine andNext_keep (fun _ _ => ?_) ?_
    | with_reducible refine nextIf_keep (fun _ _ => ?_) ?_
    | with_reducible refine execDbgHalt_keep ?_
    | with_reducible refine execDbgResume_keep ?_
    | with_reducible refine execBlockReset_keep ?_
    | with_reducible refine OKeep.next ?_
    | with_reducible exact OKeep.fault
    | with_reducible exact OKeep.refused
    | with_reducible refine Keep.foldl (fun _ _ _ => ?_) ?_
    | with_reducible refine Keep.foldl_snd (fun _ _ _ => ?_) ?_
    | split
    | dsimp only
theorem State.writeDbgCtrl_keep_of {s : State} {v : ℕ} {t1 : State} (e : State.writeDbgCtrl s v = .next t1) (hk : Keep s0 s) : Keep s0 t1 := State.writeDbgCtrl_keep hk t1 e

theorem execSquareSplitApply_keep {v : W32} {s : State} (hk : Keep s0 s) :
    OKeep s0 (execSquareSplitApply v s) := by
  unfold execSquareSplitApply
  repeat' first
    | with_reducible assumption
    | with_reducible refine State.setFld_keep ?_
    | with_reducible refine State.setFlag_keep ?_
    | with_reducible refine OKeep.next ?_
    | with_reducible exact OKeep.fault
    | with_reducible exact OKeep.refused
    | with_reducible refine Keep.foldl (fun _ _ _ => ?_) ?_
    | with_reducible refine Keep.foldl_snd (fun _ _ _ => ?_) ?_
    | split
    | fail_if_no_progress ((with_reducible refine Keep.upd ?_ ?_); exact rfl)
    | dsimp only

theorem State.writeFabricCtrl_keep {s : State} {v : ℕ} (hk : Keep s0 s) :
    OKeep s0 (State.writeFabricCtrl s v) := by
  unfold State.writeFabricCtrl
  repeat' first
    | with_reducible assumption
    | with_reducible refine State.setFld_keep ?_
    | with_reducible refine State.setFlag_keep ?_
    | with_reducible refine andNext_keep (fun _ _ => ?_) ?_
    | with_reducible refine execFabricEnable_keep ?_
    | with_reducible refine execFabricDisable_keep ?_
    | with_reducible refine nextIf_keep (fun _ _ => ?_) ?_
    | with_reducible refine execSealApply_keep ?_
    | with_reducible refine OKeep.next ?_
    | with_reducible exact OKeep.fault
    | with_reducible exact OKeep.refused
    | with_reducible refine Keep.foldl (fun _ _ _ => ?_) ?_
    | with_reducible refine Keep.foldl_snd (fun _ _ _ => ?_) ?_
    | split
theorem State.writeFabricCtrl_keep_of {s : State} {v : ℕ} {t1 : State} (e : State.writeFabricCtrl s v = .next t1) (hk : Keep s0 s) : Keep s0 t1 := State.writeFabricCtrl_keep hk t1 e

theorem execErrSelClear_keep {v : W32} {s : State} (hk : Keep s0 s) :
    OKeep s0 (execErrSelClear v s) := by
  unfold execErrSelClear
  repeat' first
    | with_reducible assumption
    | with_reducible refine State.setReg_keep ?_
    | with_reducible refine State.setUnitErr_keep ?_
    | with_reducible refine OKeep.next ?_
    | with_reducible exact OKeep.fault
    | with_reducible exact OKeep.refused
    | with_reducible refine Keep.foldl (fun _ _ _ => ?_) ?_
    | with_reducible refine Keep.foldl_snd (fun _ _ _ => ?_) ?_
    | split
    | dsimp only

theorem State.writeWord_keep {s : State} {off : ℕ} {v : ℕ} (hk : Keep s0 s) :
    OKeep s0 (State.writeWord s off v) := by
  unfold State.writeWord
  repeat' first
    | with_reducible assumption
    | with_reducible refine State.writeCtxCtrl_keep ?_
    | with_reducible refine State.writeCtxCtrl_keep_of (by assumption) ?_
    | with_reducible refine State.writeEvtSel_keep ?_
    | with_reducible refine State.writeEvtSel_keep_of (by assumption) ?_
    | with_reducible refine execPortCtrlWrite_keep ?_
    | with_reducible refine State.writeBootCtrl_keep ?_
    | with_reducible refine State.writeBootCtrl_keep_of (by assumption) ?_
    | with_reducible refine State.writeDbgCtrl_keep ?_
    | with_reducible refine State.writeDbgCtrl_keep_of (by assumption) ?_
    | with_reducible refine execSquareSplitApply_keep ?_
    | with_reducible refine State.writeFabricCtrl_keep ?_
    | with_reducible refine State.writeFabricCtrl_keep_of (by assumption) ?_
    | with_reducible refine execRouteDataWrite_keep ?_
    | with_reducible refine execFailClear_keep ?_
    | with_reducible refine execErrSelClear_keep ?_
    | with_reducible refine execPmuClear_keep ?_
    | with_reducible refine execClkLimitWrite_keep ?_
    | with_reducible refine State.storeWord_keep ?_
    | with_reducible refine OKeep.next ?_
    | with_reducible exact OKeep.fault
    | with_reducible exact OKeep.refused
    | with_reducible refine Keep.foldl (fun _ _ _ => ?_) ?_
    | with_reducible refine Keep.foldl_snd (fun _ _ _ => ?_) ?_
    | split
theorem State.writeWord_keep_of {s : State} {off : ℕ} {v : ℕ} {t1 : State} (e : State.writeWord s off v = .next t1) (hk : Keep s0 s) : Keep s0 t1 := State.writeWord_keep hk t1 e

theorem State.writeWide_keep {s : State} {off : ℕ} {v : ℕ} (hk : Keep s0 s) :
    OKeep s0 (State.writeWide s off v) := by
  unfold State.writeWide
  repeat' first
    | with_reducible assumption
    | with_reducible refine execCtxPtRootWrite_keep ?_
    | with_reducible refine execPmuCountWrite_keep ?_
    | with_reducible refine execPmDump_keep ?_
    | with_reducible refine andNext_keep (fun _ _ => ?_) ?_
    | with_reducible refine State.writeWord_keep ?_
    | with_reducible refine State.writeWord_keep_of (by assumption) ?_
    | with_reducible refine OKeep.next ?_
    | with_reducible exact OKeep.fault
    | with_reducible exact OKeep.refused
    | with_reducible refine Keep.foldl (fun _ _ _ => ?_) ?_
    | with_reducible refine Keep.foldl_snd (fun _ _ _ => ?_) ?_
    | split
theorem State.writeWide_keep_of {s : State} {off : ℕ} {v : ℕ} {t1 : State} (e : State.writeWide s off v = .next t1) (hk : Keep s0 s) : Keep s0 t1 := State.writeWide_keep hk t1 e

theorem State.write32_keep {s : State} {off : ℕ} {v : ℕ} (hk : Keep s0 s) :
    OKeep s0 (State.write32 s off v) := by
  unfold State.write32
  repeat' first
    | with_reducible assumption
    | with_reducible refine State.stage_keep ?_
    | with_reducible refine State.writeWide_keep ?_
    | with_reducible refine State.writeWide_keep_of (by assumption) ?_
    | with_reducible refine State.writeWord_keep ?_
    | with_reducible refine State.writeWord_keep_of (by assumption) ?_
    | with_reducible refine OKeep.next ?_
    | with_reducible exact OKeep.fault
    | with_reducible exact OKeep.refused
    | with_reducible refine Keep.foldl (fun _ _ _ => ?_) ?_
    | with_reducible refine Keep.foldl_snd (fun _ _ _ => ?_) ?_
    | split
theorem State.write32_keep_of {s : State} {off : ℕ} {v : ℕ} {t1 : State} (e : State.write32 s off v = .next t1) (hk : Keep s0 s) : Keep s0 t1 := State.write32_keep hk t1 e

theorem State.write64_keep {s : State} {off : ℕ} {v : ℕ} (hk : Keep s0 s) :
    OKeep s0 (State.write64 s off v) := by
  unfold State.write64
  repeat' first
    | with_reducible assumption
    | with_reducible refine State.writeWide_keep ?_
    | with_reducible refine State.writeWide_keep_of (by assumption) ?_
    | with_reducible refine State.stage_keep ?_
    | with_reducible refine andNext_keep (fun _ _ => ?_) ?_
    | with_reducible refine State.write32_keep ?_
    | with_reducible refine State.write32_keep_of (by assumption) ?_
    | with_reducible refine OKeep.next ?_
    | with_reducible exact OKeep.fault
    | with_reducible exact OKeep.refused
    | with_reducible refine Keep.foldl (fun _ _ _ => ?_) ?_
    | with_reducible refine Keep.foldl_snd (fun _ _ _ => ?_) ?_
    | split
theorem State.write64_keep_of {s : State} {off : ℕ} {v : ℕ} {t1 : State} (e : State.write64 s off v = .next t1) (hk : Keep s0 s) : Keep s0 t1 := State.write64_keep hk t1 e

theorem execBar2Access_keep {x : ℕ} {len : ℕ} {data : Option (List Byte)} {s : State} (hk : Keep s0 s) :
    OKeep s0 (execBar2Access x len data s) := by
  unfold execBar2Access
  repeat' first
    | with_reducible assumption
    | with_reducible refine State.setPlat_keep (by rfl) ?_
    | with_reducible refine State.bar2Write_keep ?_
    | with_reducible refine State.countFound_keep ?_
    | with_reducible refine OKeep.next ?_
    | with_reducible exact OKeep.fault
    | with_reducible exact OKeep.refused
    | with_reducible refine Keep.foldl (fun _ _ _ => ?_) ?_
    | with_reducible refine Keep.foldl_snd (fun _ _ _ => ?_) ?_
    | split
    | dsimp only

theorem execMsixVectorUnmask_keep {v : ℕ} {s : State} (hk : Keep s0 s) :
    OKeep s0 (execMsixVectorUnmask v s) := by
  unfold execMsixVectorUnmask
  repeat' first
    | with_reducible assumption
    | with_reducible refine State.tableWrite_keep ?_
    | with_reducible refine OKeep.next ?_
    | with_reducible exact OKeep.fault
    | with_reducible exact OKeep.refused
    | with_reducible refine Keep.foldl (fun _ _ _ => ?_) ?_
    | with_reducible refine Keep.foldl_snd (fun _ _ _ => ?_) ?_
    | split

theorem execPcieConfigRequest_keep {msix : Option (Bool × Bool)} {s : State} (hk : Keep s0 s) :
    OKeep s0 (execPcieConfigRequest msix s) := by
  unfold execPcieConfigRequest
  repeat' first
    | with_reducible assumption
    | with_reducible refine State.setPlat_keep (by rfl) ?_
    | with_reducible refine State.releaseAll_keep ?_
    | with_reducible refine OKeep.next ?_
    | with_reducible exact OKeep.fault
    | with_reducible exact OKeep.refused
    | with_reducible refine Keep.foldl (fun _ _ _ => ?_) ?_
    | with_reducible refine Keep.foldl_snd (fun _ _ _ => ?_) ?_
    | split
    | fail_if_no_progress ((with_reducible refine Keep.upd ?_ ?_); exact rfl)

theorem execRegisterWrite_keep {bar : ℕ} {off : ℕ} {size : ℕ} {v : W64} {s : State} (hk : Keep s0 s) :
    OKeep s0 (execRegisterWrite bar off size v s) := by
  unfold execRegisterWrite
  repeat' first
    | with_reducible assumption
    | with_reducible refine State.write32_keep ?_
    | with_reducible refine State.write32_keep_of (by assumption) ?_
    | with_reducible refine State.write64_keep ?_
    | with_reducible refine State.write64_keep_of (by assumption) ?_
    | with_reducible refine State.bar4Write_keep ?_
    | with_reducible refine OKeep.next ?_
    | with_reducible exact OKeep.fault
    | with_reducible exact OKeep.refused
    | with_reducible refine Keep.foldl (fun _ _ _ => ?_) ?_
    | with_reducible refine Keep.foldl_snd (fun _ _ _ => ?_) ?_
    | split

theorem execErrThresholdWindow_keep {s : State} (hk : Keep s0 s) :
    OKeep s0 (execErrThresholdWindow s) := by
  unfold execErrThresholdWindow
  repeat' first
    | with_reducible assumption
    | with_reducible refine OKeep.next ?_
    | with_reducible exact OKeep.fault
    | with_reducible exact OKeep.refused
    | with_reducible refine Keep.foldl (fun _ _ _ => ?_) ?_
    | with_reducible refine Keep.foldl_snd (fun _ _ _ => ?_) ?_
    | split
    | fail_if_no_progress ((with_reducible refine Keep.upd ?_ ?_); exact rfl)
    | dsimp only

theorem execFatalError_keep {source : ℕ} {cls : ℕ} {unit : ℕ} {info : ℕ} {s : State} (hk : Keep s0 s) :
    OKeep s0 (execFatalError source cls unit info s) := by
  unfold execFatalError
  repeat' first
    | with_reducible assumption
    | with_reducible refine State.fatal_keep ?_
    | with_reducible refine OKeep.next ?_
    | with_reducible exact OKeep.fault
    | with_reducible exact OKeep.refused
    | with_reducible refine Keep.foldl (fun _ _ _ => ?_) ?_
    | with_reducible refine Keep.foldl_snd (fun _ _ _ => ?_) ?_
    | split
    | fail_if_no_progress ((with_reducible refine Keep.upd ?_ ?_); exact rfl)

theorem State.emitOne_keep {s : State} {n : ℕ} {tag : ℕ} {j : IngestJob} (hk : Keep s0 s) :
    PumpRes.Keeps s0 (State.emitOne s n tag j) := by
  unfold State.emitOne
  repeat' first
    | with_reducible assumption
    | with_reducible refine State.engStep_keep ?_
    | with_reducible refine State.engStep_keep_wait (by assumption) ?_
    | with_reducible refine State.engStep_keep_fault (by assumption) ?_
    | with_reducible refine State.engStep_keep_lost (by assumption) ?_
    | with_reducible refine State.engStep_keep_done (by assumption) ?_
    | with_reducible refine State.ingestFault_keep ?_
    | with_reducible refine State.ingestEnds_keep ?_
    | with_reducible refine State.setIngest_keep ?_
    | with_reducible refine State.signalFor_keep ?_
    | with_reducible refine State.signalFor_keep_of (by assumption) ?_
    | exact trivial
    | fail_if_no_progress change Keep _ _
    | with_reducible refine Keep.foldl (fun _ _ _ => ?_) ?_
    | with_reducible refine Keep.foldl_snd (fun _ _ _ => ?_) ?_
    | split
    | dsimp only
theorem State.emitOne_keep_stop {s : State} {n : ℕ} {tag : ℕ} {j : IngestJob}  {t1 : State} (e : State.emitOne s n tag j = .stop t1) (hk : Keep s0 s) : Keep s0 t1 := by
  have k := State.emitOne_keep (s0 := s0) (s := s) (n := n) (tag := tag) (j := j) hk
  rw [e] at k
  exact k
theorem State.emitOne_keep_more {s : State} {n : ℕ} {tag : ℕ} {j : IngestJob}  {t1 : State} (e : State.emitOne s n tag j = .more t1) (hk : Keep s0 s) : Keep s0 t1 := by
  have k := State.emitOne_keep (s0 := s0) (s := s) (n := n) (tag := tag) (j := j) hk
  rw [e] at k
  exact k

theorem State.pumpOne_keep {s : State} {n : ℕ} {tag : ℕ} (hk : Keep s0 s) :
    PumpRes.Keeps s0 (State.pumpOne s n tag) := by
  unfold State.pumpOne
  repeat' first
    | with_reducible assumption
    | with_reducible refine State.ingestEnds_keep ?_
    | with_reducible refine State.emitOne_keep ?_
    | with_reducible refine State.emitOne_keep_stop (by assumption) ?_
    | with_reducible refine State.emitOne_keep_more (by assumption) ?_
    | with_reducible refine State.setIngest_keep ?_
    | exact trivial
    | fail_if_no_progress change Keep _ _
    | with_reducible refine Keep.foldl (fun _ _ _ => ?_) ?_
    | with_reducible refine Keep.foldl_snd (fun _ _ _ => ?_) ?_
    | split
    | dsimp only
theorem State.pumpOne_keep_stop {s : State} {n : ℕ} {tag : ℕ}  {t1 : State} (e : State.pumpOne s n tag = .stop t1) (hk : Keep s0 s) : Keep s0 t1 := by
  have k := State.pumpOne_keep (s0 := s0) (s := s) (n := n) (tag := tag) hk
  rw [e] at k
  exact k
theorem State.pumpOne_keep_more {s : State} {n : ℕ} {tag : ℕ}  {t1 : State} (e : State.pumpOne s n tag = .more t1) (hk : Keep s0 s) : Keep s0 t1 := by
  have k := State.pumpOne_keep (s0 := s0) (s := s) (n := n) (tag := tag) hk
  rw [e] at k
  exact k

theorem State.pump_keep {x0 : ℕ} {x1 : ℕ} {x2 : ℕ} {x3 : State} (hk : Keep s0 x3) :
    Keep s0 (State.pump x0 x1 x2 x3) := by
  induction x0 generalizing x3 with
  | zero =>
    rw [State.pump]
    repeat' first
      | with_reducible assumption
  | succ _ ih =>
    rw [State.pump]
    repeat' first
      | with_reducible assumption
      | with_reducible refine ih ?_
      | with_reducible refine State.pumpOne_keep ?_
      | with_reducible refine State.pumpOne_keep_stop (by assumption) ?_
      | with_reducible refine State.pumpOne_keep_more (by assumption) ?_
      | with_reducible refine Keep.foldl (fun _ _ _ => ?_) ?_
      | with_reducible refine Keep.foldl_snd (fun _ _ _ => ?_) ?_
      | split

theorem State.shuffle_keep {s : State} {n : ℕ} {tag : ℕ} (hk : Keep s0 s) :
    Keep s0 (State.shuffle s n tag) := by
  unfold State.shuffle
  repeat' first
    | with_reducible assumption
    | with_reducible refine State.progressFor_keep ?_
    | with_reducible refine State.pump_keep ?_

theorem execFreeTake_keep {n : ℕ} {tag : ℕ} {s : State} (hk : Keep s0 s) :
    OKeep s0 (execFreeTake n tag s) := by
  unfold execFreeTake
  repeat' first
    | with_reducible assumption
    | with_reducible refine State.ingestFault_keep ?_
    | with_reducible refine State.waitObj_keep ?_
    | with_reducible refine State.waitObj_keep_of (by assumption) ?_
    | with_reducible refine State.shuffle_keep ?_
    | with_reducible refine State.setIngest_keep ?_
    | with_reducible refine State.setWaiters_keep ?_
    | with_reducible refine State.ingestEnds_keep ?_
    | with_reducible refine OKeep.next ?_
    | with_reducible exact OKeep.fault
    | with_reducible exact OKeep.refused
    | with_reducible refine Keep.foldl (fun _ _ _ => ?_) ?_
    | with_reducible refine Keep.foldl_snd (fun _ _ _ => ?_) ?_
    | split
    | fail_if_no_progress ((with_reducible refine Keep.upd ?_ ?_); exact rfl)
    | dsimp only

theorem execIngest_keep {n : ℕ} {tag : ℕ} {s : State} (hk : Keep s0 s) :
    OKeep s0 (execIngest n tag s) := by
  unfold execIngest
  repeat' first
    | with_reducible assumption
    | with_reducible refine State.ingestEnds_keep ?_
    | with_reducible refine State.shuffle_keep ?_
    | with_reducible refine State.engStep_keep ?_
    | with_reducible refine State.engStep_keep_wait (by assumption) ?_
    | with_reducible refine State.engStep_keep_fault (by assumption) ?_
    | with_reducible refine State.engStep_keep_lost (by assumption) ?_
    | with_reducible refine State.engStep_keep_done (by assumption) ?_
    | with_reducible refine State.cmdFault_keep ?_
    | with_reducible refine State.settleCmd_keep ?_
    | with_reducible refine State.startJob_keep ?_
    | with_reducible refine OKeep.next ?_
    | with_reducible exact OKeep.fault
    | with_reducible exact OKeep.refused
    | with_reducible refine Keep.foldl (fun _ _ _ => ?_) ?_
    | with_reducible refine Keep.foldl_snd (fun _ _ _ => ?_) ?_
    | split
    | dsimp only

theorem execReadServiceDeadline_keep {xid : ℕ} {s : State} (hk : Keep s0 s) :
    OKeep s0 (execReadServiceDeadline xid s) := by
  unfold execReadServiceDeadline
  repeat' first
    | with_reducible assumption
    | with_reducible refine State.shuffle_keep ?_
    | with_reducible refine State.sampleFail_keep ?_
    | with_reducible refine State.closeTxn_keep ?_
    | with_reducible refine OKeep.next ?_
    | with_reducible exact OKeep.fault
    | with_reducible exact OKeep.refused
    | with_reducible refine Keep.foldl (fun _ _ _ => ?_) ?_
    | with_reducible refine Keep.foldl_snd (fun _ _ _ => ?_) ?_
    | split

theorem State.engWriteAll_keep {s : State} {n : ℕ} {tag : ℕ} {key : ℕ} {ws : List (ℕ × View)} (hk : Keep s0 s) :
    XferRes.Keeps s0 (State.engWriteAll s n tag key ws) := by
  unfold State.engWriteAll
  repeat' first
    | with_reducible assumption
    | with_reducible refine State.engNow_keep ?_
    | with_reducible refine State.engNow_keep_wait (by assumption) ?_
    | with_reducible refine State.engNow_keep_refused (by assumption) ?_
    | with_reducible refine State.engNow_keep_lost (by assumption) ?_
    | with_reducible refine State.engNow_keep_done (by assumption) ?_
    | with_reducible refine State.engNow_keep_go (by assumption) ?_
    | with_reducible refine State.engPut_keep ?_
    | with_reducible refine State.engPut_keep_lost (by assumption) ?_
    | with_reducible refine State.engPut_keep_ok (by assumption) ?_
    | exact trivial
    | fail_if_no_progress change Keep _ _
    | with_reducible refine Keep.foldl (fun _ _ _ => ?_) ?_
    | with_reducible refine Keep.foldl_snd (fun _ _ _ => ?_) ?_
    | split
    | dsimp only
theorem State.engWriteAll_keep_wait {s : State} {n : ℕ} {tag : ℕ} {key : ℕ} {ws : List (ℕ × View)}  {t1 : State} (e : State.engWriteAll s n tag key ws = .wait t1) (hk : Keep s0 s) : Keep s0 t1 := by
  have k := State.engWriteAll_keep (s0 := s0) (s := s) (n := n) (tag := tag) (key := key) (ws := ws) hk
  rw [e] at k
  exact k
theorem State.engWriteAll_keep_fault {s : State} {n : ℕ} {tag : ℕ} {key : ℕ} {ws : List (ℕ × View)} {f1 : AccFault} {w1 : Bool} {t1 : State} (e : State.engWriteAll s n tag key ws = .fault f1 w1 t1) (hk : Keep s0 s) : Keep s0 t1 := by
  have k := State.engWriteAll_keep (s0 := s0) (s := s) (n := n) (tag := tag) (key := key) (ws := ws) hk
  rw [e] at k
  exact k
theorem State.engWriteAll_keep_lost {s : State} {n : ℕ} {tag : ℕ} {key : ℕ} {ws : List (ℕ × View)}  {t1 : State} (e : State.engWriteAll s n tag key ws = .lost t1) (hk : Keep s0 s) : Keep s0 t1 := by
  have k := State.engWriteAll_keep (s0 := s0) (s := s) (n := n) (tag := tag) (key := key) (ws := ws) hk
  rw [e] at k
  exact k
theorem State.engWriteAll_keep_done {s : State} {n : ℕ} {tag : ℕ} {key : ℕ} {ws : List (ℕ × View)} {v1 : List View} {t1 : State} (e : State.engWriteAll s n tag key ws = .done v1 t1) (hk : Keep s0 s) : Keep s0 t1 := by
  have k := State.engWriteAll_keep (s0 := s0) (s := s) (n := n) (tag := tag) (key := key) (ws := ws) hk
  rw [e] at k
  exact k

theorem execRsData_keep {s : State} (hk : Keep s0 s) :
    OKeep s0 (execRsData s) := by
  unfold execRsData
  repeat' first
    | with_reducible assumption
    | with_reducible refine State.takeOpc_keep_of (by assumption) ?_
    | with_reducible refine State.countFabStale_keep ?_
    | with_reducible refine State.shuffle_keep ?_
    | with_reducible refine State.sampleFail_keep ?_
    | with_reducible refine State.engWriteAll_keep ?_
    | with_reducible refine State.engWriteAll_keep_wait (by assumption) ?_
    | with_reducible refine State.engWriteAll_keep_fault (by assumption) ?_
    | with_reducible refine State.engWriteAll_keep_lost (by assumption) ?_
    | with_reducible refine State.engWriteAll_keep_done (by assumption) ?_
    | with_reducible refine State.ingestFault_keep ?_
    | with_reducible refine State.ingestEnds_keep ?_
    | with_reducible refine State.setIngest_keep ?_
    | with_reducible refine OKeep.next ?_
    | with_reducible exact OKeep.fault
    | with_reducible exact OKeep.refused
    | with_reducible refine Keep.foldl (fun _ _ _ => ?_) ?_
    | with_reducible refine Keep.foldl_snd (fun _ _ _ => ?_) ?_
    | split
    | fail_if_no_progress ((with_reducible refine Keep.upd ?_ ?_); exact rfl)
    | dsimp only

theorem State.rsSend_keep {s : State} {n : ℕ} {tag : ℕ} {x : RoomSample} {i : ℕ} {room : ℕ} {x6 : List RsReq} (hk : Keep s0 s) :
    Keep s0 (State.rsSend s n tag x i room x6) := by
  induction x6 generalizing i room s with
  | nil =>
    unfold State.rsSend
    repeat' first
      | with_reducible assumption
  | cons _ _ ih =>
    unfold State.rsSend
    repeat' first
      | with_reducible assumption
      | with_reducible refine ih ?_
      | with_reducible refine State.openTxn_keep ?_
      | with_reducible refine State.openTxn_keep_of (by assumption) ?_
      | with_reducible refine State.sampleFail_keep ?_
      | with_reducible refine State.sendFrame_keep_of (by assumption) ?_
      | with_reducible refine State.closeTxn_keep ?_
      | with_reducible refine State.setIngest_keep ?_
      | with_reducible refine Keep.foldl (fun _ _ _ => ?_) ?_
      | with_reducible refine Keep.foldl_snd (fun _ _ _ => ?_) ?_
      | split
      | fail_if_no_progress ((with_reducible refine Keep.upd ?_ ?_); exact rfl)
      | dsimp only

theorem State.rsMore_keep {s : State} {n : ℕ} {tag : ℕ} {pos : ℕ} (hk : Keep s0 s) :
    Keep s0 (State.rsMore s n tag pos) := by
  unfold State.rsMore
  repeat' first
    | with_reducible assumption
    | with_reducible refine State.rsSend_keep ?_
    | with_reducible refine Keep.foldl (fun _ _ _ => ?_) ?_
    | with_reducible refine Keep.foldl_snd (fun _ _ _ => ?_) ?_
    | split

theorem execRsDone_keep {s : State} (hk : Keep s0 s) :
    OKeep s0 (execRsDone s) := by
  unfold execRsDone
  repeat' first
    | with_reducible assumption
    | with_reducible refine State.takeOpc_keep_of (by assumption) ?_
    | with_reducible refine State.countFabStale_keep ?_
    | with_reducible refine State.closeTxn_keep ?_
    | with_reducible refine State.setIngest_keep ?_
    | with_reducible refine State.rsMore_keep ?_
    | with_reducible refine State.shuffle_keep ?_
    | with_reducible refine State.sampleFail_keep ?_
    | with_reducible refine OKeep.next ?_
    | with_reducible exact OKeep.fault
    | with_reducible exact OKeep.refused
    | with_reducible refine Keep.foldl (fun _ _ _ => ?_) ?_
    | with_reducible refine Keep.foldl_snd (fun _ _ _ => ?_) ?_
    | split
    | dsimp only

theorem execSampleComplete_keep {n : ℕ} {tag : ℕ} {pos : ℕ} {d : ℕ} {s : State} (hk : Keep s0 s) :
    OKeep s0 (execSampleComplete n tag pos d s) := by
  unfold execSampleComplete
  repeat' first
    | with_reducible assumption
    | with_reducible refine State.shuffle_keep ?_
    | with_reducible refine State.setIngest_keep ?_
    | with_reducible refine State.engStep_keep ?_
    | with_reducible refine State.engStep_keep_wait (by assumption) ?_
    | with_reducible refine State.engStep_keep_fault (by assumption) ?_
    | with_reducible refine State.engStep_keep_lost (by assumption) ?_
    | with_reducible refine State.engStep_keep_done (by assumption) ?_
    | with_reducible refine State.ingestFault_keep ?_
    | with_reducible refine State.ingestEnds_keep ?_
    | with_reducible refine State.engWriteAll_keep ?_
    | with_reducible refine State.engWriteAll_keep_wait (by assumption) ?_
    | with_reducible refine State.engWriteAll_keep_fault (by assumption) ?_
    | with_reducible refine State.engWriteAll_keep_lost (by assumption) ?_
    | with_reducible refine State.engWriteAll_keep_done (by assumption) ?_
    | with_reducible refine OKeep.next ?_
    | with_reducible exact OKeep.fault
    | with_reducible exact OKeep.refused
    | with_reducible refine Keep.foldl (fun _ _ _ => ?_) ?_
    | with_reducible refine Keep.foldl_snd (fun _ _ _ => ?_) ?_
    | split
    | dsimp only

theorem State.addSample_keep {s : State} {n : ℕ} {tag : ℕ} {x : RoomSample} (hk : Keep s0 s) :
    Keep s0 (State.addSample s n tag x) := by
  unfold State.addSample
  repeat' first
    | with_reducible assumption
    | with_reducible refine State.setIngest_keep ?_

theorem State.takeSlots_keep {s : State} {x1 : ℕ} {x2 : List ℕ} (hk : Keep s0 s) :
    Keep s0 (State.takeSlots s x1 x2).2 := by
  induction x1 generalizing x2 s with
  | zero =>
    rw [State.takeSlots]
    repeat' first
      | with_reducible assumption
  | succ _ ih =>
    rw [State.takeSlots]
    repeat' first
      | with_reducible assumption
      | with_reducible refine ih ?_
      | with_reducible refine State.fresh_keep ?_
theorem State.takeSlots_keep_of {s : State} {x1 : ℕ} {x2 : List ℕ} {v1 : List ℕ} {t1 : State} (e : State.takeSlots s x1 x2 = (v1, t1)) (hk : Keep s0 s) : Keep s0 t1 := by
  have k := State.takeSlots_keep (s0 := s0) (s := s) (x1 := x1) (x2 := x2) hk
  rw [e] at k
  exact k

theorem State.sampleStart_keep {s : State} {n : ℕ} {tag : ℕ} {share : ℕ} {j : IngestJob} (hk : Keep s0 s) :
    StartRes.Keeps s0 (State.sampleStart s n tag share j) := by
  unfold State.sampleStart
  repeat' first
    | with_reducible assumption
    | with_reducible refine State.engStep_keep ?_
    | with_reducible refine State.engStep_keep_wait (by assumption) ?_
    | with_reducible refine State.engStep_keep_fault (by assumption) ?_
    | with_reducible refine State.engStep_keep_lost (by assumption) ?_
    | with_reducible refine State.engStep_keep_done (by assumption) ?_
    | with_reducible refine State.ingestFault_keep ?_
    | with_reducible refine State.ingestEnds_keep ?_
    | with_reducible refine State.shuffle_keep ?_
    | with_reducible refine State.addSample_keep ?_
    | with_reducible refine State.setIngest_keep ?_
    | with_reducible refine State.takeSlots_keep ?_
    | with_reducible refine State.takeSlots_keep_of (by assumption) ?_
    | with_reducible refine State.rsMore_keep ?_
    | exact trivial
    | fail_if_no_progress change Keep _ _
    | with_reducible refine Keep.foldl (fun _ _ _ => ?_) ?_
    | with_reducible refine Keep.foldl_snd (fun _ _ _ => ?_) ?_
    | split
    | dsimp only
theorem State.sampleStart_keep_waits {s : State} {n : ℕ} {tag : ℕ} {share : ℕ} {j : IngestJob}  {t1 : State} (e : State.sampleStart s n tag share j = .waits t1) (hk : Keep s0 s) : Keep s0 t1 := by
  have k := State.sampleStart_keep (s0 := s0) (s := s) (n := n) (tag := tag) (share := share) (j := j) hk
  rw [e] at k
  exact k
theorem State.sampleStart_keep_taken {s : State} {n : ℕ} {tag : ℕ} {share : ℕ} {j : IngestJob}  {t1 : State} (e : State.sampleStart s n tag share j = .taken t1) (hk : Keep s0 s) : Keep s0 t1 := by
  have k := State.sampleStart_keep (s0 := s0) (s := s) (n := n) (tag := tag) (share := share) (j := j) hk
  rw [e] at k
  exact k

theorem State.startFirst_keep {s : State} {share : ℕ} {x2 : List ℕ} (hk : Keep s0 s) :
    Keep s0 (State.startFirst s share x2) := by
  induction x2 generalizing s with
  | nil =>
    rw [State.startFirst]
    repeat' first
      | with_reducible assumption
  | cons _ _ ih =>
    rw [State.startFirst]
    repeat' first
      | with_reducible assumption
      | with_reducible refine ih ?_
      | with_reducible refine State.sampleStart_keep ?_
      | with_reducible refine State.sampleStart_keep_waits (by assumption) ?_
      | with_reducible refine State.sampleStart_keep_taken (by assumption) ?_
      | with_reducible refine Keep.foldl (fun _ _ _ => ?_) ?_
      | with_reducible refine Keep.foldl_snd (fun _ _ _ => ?_) ?_
      | split
      | fail_if_no_progress ((with_reducible refine Keep.upd ?_ ?_); exact rfl)

theorem execSampleStart_keep {share : ℕ} {s : State} (hk : Keep s0 s) :
    OKeep s0 (execSampleStart share s) := by
  unfold execSampleStart
  repeat' first
    | with_reducible assumption
    | with_reducible refine State.startFirst_keep ?_
    | with_reducible refine OKeep.next ?_
    | with_reducible exact OKeep.fault
    | with_reducible exact OKeep.refused
    | with_reducible refine Keep.foldl (fun _ _ _ => ?_) ?_
    | with_reducible refine Keep.foldl_snd (fun _ _ _ => ?_) ?_
    | split

theorem State.branchIf_keep {s : State} {c : ℕ} {taken : Bool} {off : W64} (hk : Keep s0 s) :
    Keep s0 (State.branchIf s c taken off) := by
  unfold State.branchIf
  repeat' first
    | with_reducible assumption
    | with_reducible refine State.setCore_keep ?_

theorem State.localStore_keep {s : State} {c : ℕ} {off : ℕ} {bs : List Byte} (hk : Keep s0 s) :
    Keep s0 (State.localStore s c off bs) := by
  unfold State.localStore
  repeat' first
    | with_reducible assumption
    | with_reducible refine State.csWrite_keep ?_
    | with_reducible refine State.countPartial_keep ?_
    | with_reducible refine State.setCore_keep ?_

theorem State.writeS_keep {s : State} {c : ℕ} {sd : ℕ} {v : W64} (hk : Keep s0 s) :
    Keep s0 (State.writeS s c sd v) := by
  unfold State.writeS
  repeat' first
    | with_reducible assumption
    | with_reducible refine State.retire_keep ?_

theorem execAlu_keep {c : ℕ} {b : Body} {s : State} (hk : Keep s0 s) :
    OKeep s0 (execAlu c b s) := by
  unfold execAlu
  repeat' first
    | with_reducible assumption
    | with_reducible refine issue_keep (fun _ => ?_) ?_
    | with_reducible refine State.illegal_keep ?_
    | with_reducible refine State.writeS_keep ?_
    | with_reducible refine OKeep.next ?_
    | with_reducible exact OKeep.fault
    | with_reducible exact OKeep.refused
    | with_reducible refine Keep.foldl (fun _ _ _ => ?_) ?_
    | with_reducible refine Keep.foldl_snd (fun _ _ _ => ?_) ?_
    | split
    | fail_if_no_progress ((with_reducible refine Keep.upd ?_ ?_); exact rfl)
    | dsimp only

theorem execAlui_keep {c : ℕ} {b : Body} {s : State} (hk : Keep s0 s) :
    OKeep s0 (execAlui c b s) := by
  unfold execAlui
  repeat' first
    | with_reducible assumption
    | with_reducible refine issue_keep (fun _ => ?_) ?_
    | with_reducible refine State.illegal_keep ?_
    | with_reducible refine State.writeS_keep ?_
    | with_reducible refine OKeep.next ?_
    | with_reducible exact OKeep.fault
    | with_reducible exact OKeep.refused
    | with_reducible refine Keep.foldl (fun _ _ _ => ?_) ?_
    | with_reducible refine Keep.foldl_snd (fun _ _ _ => ?_) ?_
    | split

theorem execBr_keep {c : ℕ} {b : Body} {s : State} (hk : Keep s0 s) :
    OKeep s0 (execBr c b s) := by
  unfold execBr
  repeat' first
    | with_reducible assumption
    | with_reducible refine issue_keep (fun _ => ?_) ?_
    | with_reducible refine State.illegal_keep ?_
    | with_reducible refine State.branchIf_keep ?_
    | with_reducible refine OKeep.next ?_
    | with_reducible exact OKeep.fault
    | with_reducible exact OKeep.refused
    | with_reducible refine Keep.foldl (fun _ _ _ => ?_) ?_
    | with_reducible refine Keep.foldl_snd (fun _ _ _ => ?_) ?_
    | split
    | fail_if_no_progress ((with_reducible refine Keep.upd ?_ ?_); exact rfl)
    | dsimp only

theorem execBrp_keep {c : ℕ} {b : Body} {s : State} (hk : Keep s0 s) :
    OKeep s0 (execBrp c b s) := by
  unfold execBrp
  repeat' first
    | with_reducible assumption
    | with_reducible refine issue_keep (fun _ => ?_) ?_
    | with_reducible refine State.illegal_keep ?_
    | with_reducible refine State.branchIf_keep ?_
    | with_reducible refine OKeep.next ?_
    | with_reducible exact OKeep.fault
    | with_reducible exact OKeep.refused
    | with_reducible refine Keep.foldl (fun _ _ _ => ?_) ?_
    | with_reducible refine Keep.foldl_snd (fun _ _ _ => ?_) ?_
    | split

theorem execJal_keep {c : ℕ} {b : Body} {s : State} (hk : Keep s0 s) :
    OKeep s0 (execJal c b s) := by
  unfold execJal
  repeat' first
    | with_reducible assumption
    | with_reducible refine issue_keep (fun _ => ?_) ?_
    | with_reducible refine State.illegal_keep ?_
    | with_reducible refine State.setCore_keep ?_
    | with_reducible refine OKeep.next ?_
    | with_reducible exact OKeep.fault
    | with_reducible exact OKeep.refused
    | with_reducible refine Keep.foldl (fun _ _ _ => ?_) ?_
    | with_reducible refine Keep.foldl_snd (fun _ _ _ => ?_) ?_
    | split

theorem execJalr_keep {c : ℕ} {b : Body} {s : State} (hk : Keep s0 s) :
    OKeep s0 (execJalr c b s) := by
  unfold execJalr
  repeat' first
    | with_reducible assumption
    | with_reducible refine issue_keep (fun _ => ?_) ?_
    | with_reducible refine State.illegal_keep ?_
    | with_reducible refine State.misaligned_keep ?_
    | with_reducible refine State.setCore_keep ?_
    | with_reducible refine OKeep.next ?_
    | with_reducible exact OKeep.fault
    | with_reducible exact OKeep.refused
    | with_reducible refine Keep.foldl (fun _ _ _ => ?_) ?_
    | with_reducible refine Keep.foldl_snd (fun _ _ _ => ?_) ?_
    | split
    | fail_if_no_progress ((with_reducible refine Keep.upd ?_ ?_); exact rfl)
    | dsimp only

theorem execLd_keep {c : ℕ} {b : Body} {s : State} (hk : Keep s0 s) :
    OKeep s0 (execLd c b s) := by
  unfold execLd
  repeat' first
    | with_reducible assumption
    | with_reducible refine issue_keep (fun _ => ?_) ?_
    | with_reducible refine State.vaLoad_keep (fun _ _ _ => ?_) ?_
    | with_reducible refine State.writeS_keep ?_

theorem execLdl_keep {c : ℕ} {b : Body} {s : State} (hk : Keep s0 s) :
    OKeep s0 (execLdl c b s) := by
  unfold execLdl
  repeat' first
    | with_reducible assumption
    | with_reducible refine issue_keep (fun _ => ?_) ?_
    | with_reducible refine State.misaligned_keep ?_
    | with_reducible refine State.localPoison_keep ?_
    | with_reducible refine State.writeS_keep ?_
    | with_reducible refine OKeep.next ?_
    | with_reducible exact OKeep.fault
    | with_reducible exact OKeep.refused
    | with_reducible refine Keep.foldl (fun _ _ _ => ?_) ?_
    | with_reducible refine Keep.foldl_snd (fun _ _ _ => ?_) ?_
    | split
    | fail_if_no_progress ((with_reducible refine Keep.upd ?_ ?_); exact rfl)
    | dsimp only

theorem execMovhi_keep {c : ℕ} {b : Body} {s : State} (hk : Keep s0 s) :
    OKeep s0 (execMovhi c b s) := by
  unfold execMovhi
  repeat' first
    | with_reducible assumption
    | with_reducible refine issue_keep (fun _ => ?_) ?_
    | with_reducible refine State.illegal_keep ?_
    | with_reducible refine State.writeS_keep ?_
    | with_reducible refine OKeep.next ?_
    | with_reducible exact OKeep.fault
    | with_reducible exact OKeep.refused
    | with_reducible refine Keep.foldl (fun _ _ _ => ?_) ?_
    | with_reducible refine Keep.foldl_snd (fun _ _ _ => ?_) ?_
    | split

theorem execMovi_keep {c : ℕ} {b : Body} {s : State} (hk : Keep s0 s) :
    OKeep s0 (execMovi c b s) := by
  unfold execMovi
  repeat' first
    | with_reducible assumption
    | with_reducible refine issue_keep (fun _ => ?_) ?_
    | with_reducible refine State.illegal_keep ?_
    | with_reducible refine State.writeS_keep ?_
    | with_reducible refine OKeep.next ?_
    | with_reducible exact OKeep.fault
    | with_reducible exact OKeep.refused
    | with_reducible refine Keep.foldl (fun _ _ _ => ?_) ?_
    | with_reducible refine Keep.foldl_snd (fun _ _ _ => ?_) ?_
    | split

theorem execNop_keep {c : ℕ} {w : W64} {s : State} (hk : Keep s0 s) :
    OKeep s0 (execNop c w s) := by
  unfold execNop
  repeat' first
    | with_reducible assumption
    | with_reducible refine issue_keep (fun _ => ?_) ?_
    | with_reducible refine State.advance_keep ?_
    | with_reducible refine State.illegal_keep ?_
    | with_reducible refine OKeep.next ?_
    | with_reducible exact OKeep.fault
    | with_reducible exact OKeep.refused
    | with_reducible refine Keep.foldl (fun _ _ _ => ?_) ?_
    | with_reducible refine Keep.foldl_snd (fun _ _ _ => ?_) ?_
    | split
    | dsimp only

theorem execRdsys_keep {c : ℕ} {b : Body} {s : State} (hk : Keep s0 s) :
    OKeep s0 (execRdsys c b s) := by
  unfold execRdsys
  repeat' first
    | with_reducible assumption
    | with_reducible refine issue_keep (fun _ => ?_) ?_
    | with_reducible refine State.writeS_keep ?_
    | with_reducible refine State.illegal_keep ?_
    | with_reducible refine OKeep.next ?_
    | with_reducible exact OKeep.fault
    | with_reducible exact OKeep.refused
    | with_reducible refine Keep.foldl (fun _ _ _ => ?_) ?_
    | with_reducible refine Keep.foldl_snd (fun _ _ _ => ?_) ?_
    | split
    | fail_if_no_progress ((with_reducible refine Keep.upd ?_ ?_); exact rfl)
    | dsimp only

theorem execSt_keep {c : ℕ} {b : Body} {s : State} (hk : Keep s0 s) :
    OKeep s0 (execSt c b s) := by
  unfold execSt
  repeat' first
    | with_reducible assumption
    | with_reducible refine issue_keep (fun _ => ?_) ?_
    | with_reducible refine State.vaStore_keep ?_

theorem execStl_keep {c : ℕ} {b : Body} {s : State} (hk : Keep s0 s) :
    OKeep s0 (execStl c b s) := by
  unfold execStl
  repeat' first
    | with_reducible assumption
    | with_reducible refine issue_keep (fun _ => ?_) ?_
    | with_reducible refine State.misaligned_keep ?_
    | with_reducible refine State.advance_keep ?_
    | with_reducible refine State.localStore_keep ?_
    | with_reducible refine OKeep.next ?_
    | with_reducible exact OKeep.fault
    | with_reducible exact OKeep.refused
    | with_reducible refine Keep.foldl (fun _ _ _ => ?_) ?_
    | with_reducible refine Keep.foldl_snd (fun _ _ _ => ?_) ?_
    | split
    | fail_if_no_progress ((with_reducible refine Keep.upd ?_ ?_); exact rfl)
    | dsimp only

theorem State.answerMemory_keep {s : State} {line : ℕ} {write : Bool} {data : BitVec 2048} {poison : BitVec 32} (hk : Keep s0 s) :
    Keep s0 (State.answerMemory s line write data poison) := by
  unfold State.answerMemory
  repeat' first
    | with_reducible assumption
    | with_reducible refine Keep.foldl (fun _ _ _ => ?_) ?_
    | with_reducible refine Keep.foldl_snd (fun _ _ _ => ?_) ?_
    | split
    | fail_if_no_progress ((with_reducible refine Keep.upd ?_ ?_); exact rfl)

theorem State.countRefresh_keep {s : State} {i : ℕ} (hk : Keep s0 s) :
    Keep s0 (State.countRefresh s i) := by
  unfold State.countRefresh
  repeat' first
    | with_reducible assumption
    | with_reducible refine State.setPower_keep ?_

end Sys2Proof.Machine
end

