-- ==== Sys2Proof/Laws/Keep06.lean ====
section
/-! SUPPORT. The operations of the model and the frame `Keep`, part 6. -/

namespace Sys2Proof.Machine

open Sys2Proof

variable {s0 : State}

theorem State.fwGuard_keep {s : State} {t : State} {a : ℕ} {differs : Bool} (hk : Keep s0 s) (h2 : Keep s0 t) :
    Keep s0 (State.fwGuard s t a differs) := by
  unfold State.fwGuard
  repeat' first
    | with_reducible assumption
    | with_reducible refine State.fatal_keep ?_
    | with_reducible refine Keep.foldl (fun _ _ _ => ?_) ?_
    | with_reducible refine Keep.foldl_snd (fun _ _ _ => ?_) ?_
    | split
    | fail_if_no_progress ((with_reducible refine Keep.upd ?_ ?_); exact rfl)
    | dsimp only

theorem State.lpRetrain_keep {s : State} {i : ℕ} {bad : ℕ} {put : Power → ℕ → Power} {inRange : Bool} (hk : Keep s0 s) :
    Keep s0 (State.lpRetrain s i bad put inRange) := by
  unfold State.lpRetrain
  repeat' first
    | with_reducible assumption
    | with_reducible refine State.setPower_keep ?_
    | with_reducible refine State.fatal_keep ?_
    | with_reducible refine Keep.foldl (fun _ _ _ => ?_) ?_
    | with_reducible refine Keep.foldl_snd (fun _ _ _ => ?_) ?_
    | split
    | fail_if_no_progress ((with_reducible refine Keep.upd ?_ ?_); exact rfl)
    | dsimp only

theorem State.patrolBuffer_keep {s : State} {b : ℕ} {flip : W80} (hk : Keep s0 s) :
    Keep s0 (State.patrolBuffer s b flip) := by
  unfold State.patrolBuffer
  repeat' first
    | with_reducible assumption
    | with_reducible refine State.countRead_keep ?_
    | with_reducible refine Keep.foldl (fun _ _ _ => ?_) ?_
    | with_reducible refine Keep.foldl_snd (fun _ _ _ => ?_) ?_
    | split
    | fail_if_no_progress ((with_reducible refine Keep.upd ?_ ?_); exact rfl)

theorem State.patrolCached_keep {s : State} {half : ℕ} {set : ℕ} {way : ℕ} {k : ℕ} {flip : W80} (hk : Keep s0 s) :
    Keep s0 (State.patrolCached s half set way k flip) := by
  unfold State.patrolCached
  repeat' first
    | with_reducible assumption
    | with_reducible refine State.eccWord_keep ?_
    | with_reducible refine State.countRead_keep ?_
    | with_reducible refine Keep.foldl (fun _ _ _ => ?_) ?_
    | with_reducible refine Keep.foldl_snd (fun _ _ _ => ?_) ?_
    | split
    | fail_if_no_progress ((with_reducible refine Keep.upd ?_ ?_); exact rfl)
    | dsimp only

theorem State.patrolEntry_keep {s : State} {w : ℕ} {flip : W80} (hk : Keep s0 s) :
    Keep s0 (State.patrolEntry s w flip) := by
  unfold State.patrolEntry
  repeat' first
    | with_reducible assumption
    | with_reducible refine Keep.foldl (fun _ _ _ => ?_) ?_
    | with_reducible refine Keep.foldl_snd (fun _ _ _ => ?_) ?_
    | split
    | fail_if_no_progress ((with_reducible refine Keep.upd ?_ ?_); exact rfl)
    | dsimp only

theorem State.underWord_keep {s : State} {a : ℕ} {flip : W80} (hk : Keep s0 s) :
    Keep s0 (State.underWord s a flip).2 := by
  unfold State.underWord
  repeat' first
    | with_reducible assumption
    | with_reducible refine State.countRead_keep ?_
    | with_reducible refine State.setCacheSet_keep ?_
    | with_reducible refine Keep.foldl (fun _ _ _ => ?_) ?_
    | with_reducible refine Keep.foldl_snd (fun _ _ _ => ?_) ?_
    | dsimp only
    | split
theorem State.underWord_keep_of {s : State} {a : ℕ} {flip : W80} {v1 : Bool} {t1 : State} (e : State.underWord s a flip = (v1, t1)) (hk : Keep s0 s) : Keep s0 t1 := by
  have k := State.underWord_keep (s0 := s0) (s := s) (a := a) (flip := flip) hk
  rw [e] at k
  exact k

theorem State.patrolRead_keep {s : State} {half : ℕ} {kind : ℕ} {i : ℕ} {flip : W80} (hk : Keep s0 s) :
    Keep s0 (State.patrolRead s half kind i flip) := by
  unfold State.patrolRead
  repeat' first
    | with_reducible assumption
    | with_reducible refine State.fwGuard_keep ?_ ?_
    | with_reducible refine State.underWord_keep ?_
    | with_reducible refine State.underWord_keep_of (by assumption) ?_
    | with_reducible refine State.eccWord_keep ?_
    | with_reducible refine State.patrolCached_keep ?_
    | with_reducible refine State.patrolBuffer_keep ?_
    | with_reducible refine State.patrolEntry_keep ?_
    | with_reducible refine Keep.foldl (fun _ _ _ => ?_) ?_
    | with_reducible refine Keep.foldl_snd (fun _ _ _ => ?_) ?_
    | split

theorem State.readOnDie_keep {s : State} {half : ℕ} (hk : Keep s0 s) :
    Keep s0 (State.readOnDie s half) := by
  unfold State.readOnDie
  repeat' first
    | with_reducible assumption
    | with_reducible refine State.fresh_keep ?_
    | with_reducible refine State.fresh_keep_of (by assumption) ?_
    | with_reducible refine Keep.foldl (fun _ _ _ => ?_) ?_
    | with_reducible refine Keep.foldl_snd (fun _ _ _ => ?_) ?_
    | split
    | fail_if_no_progress ((with_reducible refine Keep.upd ?_ ?_); exact rfl)

theorem State.splitHalf_keep {s : State} {half : ℕ} {n : ℕ} (hk : Keep s0 s) :
    Keep s0 (State.splitHalf s half n) := by
  unfold State.splitHalf
  repeat' first
    | with_reducible assumption
    | with_reducible refine Keep.updDev (fun x => Memory.wf_keep _ _ x) ?_
    | with_reducible refine State.evictWay_keep ?_
    | with_reducible refine State.devWrite_keep ?_
    | with_reducible refine Keep.foldl (fun _ _ _ => ?_) ?_
    | with_reducible refine Keep.foldl_snd (fun _ _ _ => ?_) ?_
    | split
    | fail_if_no_progress ((with_reducible refine Keep.upd ?_ ?_); exact rfl)
    | dsimp only

theorem State.underLine_keep {s : State} {line : ℕ} {flips : List (ℕ × W80)} (hk : Keep s0 s) :
    Keep s0 (State.underLine s line flips).2 := by
  unfold State.underLine
  repeat' first
    | with_reducible assumption
    | with_reducible refine State.underWord_keep ?_
    | with_reducible refine State.underWord_keep_of (by assumption) ?_
    | with_reducible refine Keep.foldl (fun _ _ _ => ?_) ?_
    | with_reducible refine Keep.foldl_snd (fun _ _ _ => ?_) ?_
theorem State.underLine_keep_of {s : State} {line : ℕ} {flips : List (ℕ × W80)} {v1 : ℕ} {t1 : State} (e : State.underLine s line flips = (v1, t1)) (hk : Keep s0 s) : Keep s0 t1 := by
  have k := State.underLine_keep (s0 := s0) (s := s) (line := line) (flips := flips) hk
  rw [e] at k
  exact k

theorem execCacheFillComplete_keep {half : ℕ} {set : ℕ} {way : ℕ} {s : State} (hk : Keep s0 s) :
    OKeep s0 (execCacheFillComplete half set way s) := by
  unfold execCacheFillComplete
  repeat' first
    | with_reducible assumption
    | with_reducible refine State.setCacheSet_keep ?_
    | with_reducible refine State.performReq_keep ?_
    | with_reducible refine State.serveAll_keep ?_
    | with_reducible refine OKeep.next ?_
    | with_reducible exact OKeep.fault
    | with_reducible exact OKeep.refused
    | with_reducible refine Keep.foldl (fun _ _ _ => ?_) ?_
    | with_reducible refine Keep.foldl_snd (fun _ _ _ => ?_) ?_
    | split
    | fail_if_no_progress ((with_reducible refine Keep.upd ?_ ?_); exact rfl)
    | dsimp only

theorem execFlush_keep {n : ℕ} {tag : ℕ} {s : State} (hk : Keep s0 s) :
    OKeep s0 (execFlush n tag s) := by
  unfold execFlush
  repeat' first
    | with_reducible assumption
    | with_reducible refine State.settleCmd_keep ?_
    | with_reducible refine State.flushCaches_keep ?_
    | with_reducible refine OKeep.next ?_
    | with_reducible exact OKeep.fault
    | with_reducible exact OKeep.refused
    | with_reducible refine Keep.foldl (fun _ _ _ => ?_) ?_
    | with_reducible refine Keep.foldl_snd (fun _ _ _ => ?_) ?_
    | split

theorem execHbmRefresh_keep {stack : ℕ} {s : State} (hk : Keep s0 s) :
    OKeep s0 (execHbmRefresh stack s) := by
  unfold execHbmRefresh
  repeat' first
    | with_reducible assumption
    | with_reducible refine State.countRefresh_keep ?_
    | with_reducible refine OKeep.next ?_
    | with_reducible exact OKeep.fault
    | with_reducible exact OKeep.refused
    | with_reducible refine Keep.foldl (fun _ _ _ => ?_) ?_
    | with_reducible refine Keep.foldl_snd (fun _ _ _ => ?_) ?_
    | split
    | fail_if_no_progress ((with_reducible refine Keep.upd ?_ ?_); exact rfl)

theorem execHbmTempSample_keep {stack : ℕ} {temp : ℤ} {s : State} (hk : Keep s0 s) :
    OKeep s0 (execHbmTempSample stack temp s) := by
  unfold execHbmTempSample
  repeat' first
    | with_reducible assumption
    | with_reducible refine State.setPower_keep ?_
    | with_reducible refine OKeep.next ?_
    | with_reducible exact OKeep.fault
    | with_reducible exact OKeep.refused
    | with_reducible refine Keep.foldl (fun _ _ _ => ?_) ?_
    | with_reducible refine Keep.foldl_snd (fun _ _ _ => ?_) ?_
    | split

theorem execLpddrRefresh_keep {i : ℕ} {s : State} (hk : Keep s0 s) :
    OKeep s0 (execLpddrRefresh i s) := by
  unfold execLpddrRefresh
  repeat' first
    | with_reducible assumption
    | with_reducible refine State.countRefresh_keep ?_
    | with_reducible refine OKeep.next ?_
    | with_reducible exact OKeep.fault
    | with_reducible exact OKeep.refused
    | with_reducible refine Keep.foldl (fun _ _ _ => ?_) ?_
    | with_reducible refine Keep.foldl_snd (fun _ _ _ => ?_) ?_
    | split

theorem execLpddrRefreshRateRead_keep {i : ℕ} {rate : LpReport} {s : State} (hk : Keep s0 s) :
    OKeep s0 (execLpddrRefreshRateRead i rate s) := by
  unfold execLpddrRefreshRateRead
  repeat' first
    | with_reducible assumption
    | with_reducible refine State.setPower_keep ?_
    | with_reducible refine OKeep.next ?_
    | with_reducible exact OKeep.fault
    | with_reducible exact OKeep.refused
    | with_reducible refine Keep.foldl (fun _ _ _ => ?_) ?_
    | with_reducible refine Keep.foldl_snd (fun _ _ _ => ?_) ?_
    | split
    | fail_if_no_progress ((with_reducible refine Keep.upd ?_ ?_); exact rfl)

theorem execMemoryLineAccess_keep {line : ℕ} {write : Bool} {data : BitVec 2048} {poison : BitVec 32} {flips : List (ℕ × W80)} {fails : ℕ} {s : State} (hk : Keep s0 s) :
    OKeep s0 (execMemoryLineAccess line write data poison flips fails s) := by
  unfold execMemoryLineAccess
  repeat' first
    | with_reducible assumption
    | with_reducible refine State.fatal_keep ?_
    | with_reducible refine State.countReplay_keep ?_
    | with_reducible refine State.answerMemory_keep ?_
    | with_reducible refine State.setCacheSet_keep ?_
    | with_reducible refine State.underLine_keep ?_
    | with_reducible refine State.underLine_keep_of (by assumption) ?_
    | with_reducible refine State.fwGuard_keep ?_ ?_
    | with_reducible refine State.devWrite_keep ?_
    | with_reducible refine State.eccLine_keep ?_
    | with_reducible refine OKeep.next ?_
    | with_reducible exact OKeep.fault
    | with_reducible exact OKeep.refused
    | with_reducible refine Keep.foldl (fun _ _ _ => ?_) ?_
    | with_reducible refine Keep.foldl_snd (fun _ _ _ => ?_) ?_
    | split
    | fail_if_no_progress ((with_reducible refine Keep.upd ?_ ?_); exact rfl)
    | dsimp only

theorem execPatrolScrubRead_keep {half : ℕ} {kind : ℕ} {flip : W80} {s : State} (hk : Keep s0 s) :
    OKeep s0 (execPatrolScrubRead half kind flip s) := by
  unfold execPatrolScrubRead
  repeat' first
    | with_reducible assumption
    | with_reducible refine State.patrolRead_keep ?_
    | with_reducible refine State.readOnDie_keep ?_
    | with_reducible refine State.setFlag_keep ?_
    | with_reducible refine OKeep.next ?_
    | with_reducible exact OKeep.fault
    | with_reducible exact OKeep.refused
    | with_reducible refine Keep.foldl (fun _ _ _ => ?_) ?_
    | with_reducible refine Keep.foldl_snd (fun _ _ _ => ?_) ?_
    | split
    | fail_if_no_progress ((with_reducible refine Keep.upd ?_ ?_); exact rfl)
    | dsimp only

theorem execSquareBankRequest_keep {half : ℕ} {bank : ℕ} {clk : ℕ} {new : List SqReq} {flips : List (ℕ × W80)} {s : State} (hk : Keep s0 s) :
    OKeep s0 (execSquareBankRequest half bank clk new flips s) := by
  unfold execSquareBankRequest
  repeat' first
    | with_reducible assumption
    | with_reducible refine State.serveReq_keep ?_
    | with_reducible refine OKeep.next ?_
    | with_reducible exact OKeep.fault
    | with_reducible exact OKeep.refused
    | with_reducible refine Keep.foldl (fun _ _ _ => ?_) ?_
    | with_reducible refine Keep.foldl_snd (fun _ _ _ => ?_) ?_
    | split
    | fail_if_no_progress ((with_reducible refine Keep.upd ?_ ?_); exact rfl)
    | dsimp only

theorem execSquareSplitComplete_keep {s : State} (hk : Keep s0 s) :
    OKeep s0 (execSquareSplitComplete s) := by
  unfold execSquareSplitComplete
  repeat' first
    | with_reducible assumption
    | with_reducible refine State.splitHalf_keep ?_
    | with_reducible refine State.setFlag_keep ?_
    | with_reducible refine State.setFld_keep ?_
    | with_reducible refine OKeep.next ?_
    | with_reducible exact OKeep.fault
    | with_reducible exact OKeep.refused
    | with_reducible refine Keep.foldl (fun _ _ _ => ?_) ?_
    | with_reducible refine Keep.foldl_snd (fun _ _ _ => ?_) ?_
    | split

theorem execWckTracking_keep {i : ℕ} {inRange : Bool} {s : State} (hk : Keep s0 s) :
    OKeep s0 (execWckTracking i inRange s) := by
  unfold execWckTracking
  repeat' first
    | with_reducible assumption
    | with_reducible refine State.lpRetrain_keep ?_
    | with_reducible refine OKeep.next ?_
    | with_reducible exact OKeep.fault
    | with_reducible exact OKeep.refused
    | with_reducible refine Keep.foldl (fun _ _ _ => ?_) ?_
    | with_reducible refine Keep.foldl_snd (fun _ _ _ => ?_) ?_
    | split

theorem execZqCalibration_keep {i : ℕ} {inRange : Bool} {s : State} (hk : Keep s0 s) :
    OKeep s0 (execZqCalibration i inRange s) := by
  unfold execZqCalibration
  repeat' first
    | with_reducible assumption
    | with_reducible refine State.lpRetrain_keep ?_
    | with_reducible refine OKeep.next ?_
    | with_reducible exact OKeep.fault
    | with_reducible exact OKeep.refused
    | with_reducible refine Keep.foldl (fun _ _ _ => ?_) ?_
    | with_reducible refine Keep.foldl_snd (fun _ _ _ => ?_) ?_
    | split

theorem State.streamLine_keep {s : State} {c : ℕ} {n : ℕ} {pa : ℕ} {stp : Bool} (hk : Keep s0 s) :
    Keep s0 (State.streamLine s c n pa stp).2 := by
  unfold State.streamLine
  repeat' first
    | with_reducible assumption
    | with_reducible refine State.lineHit_keep ?_
    | with_reducible refine State.lineHit_keep_of (by assumption) ?_
    | with_reducible refine State.setCore_keep ?_
    | with_reducible refine State.fillLine_keep ?_
    | with_reducible refine State.fillLine_keep_of (by assumption) ?_
    | with_reducible refine Keep.foldl (fun _ _ _ => ?_) ?_
    | with_reducible refine Keep.foldl_snd (fun _ _ _ => ?_) ?_
    | dsimp only
    | split
theorem State.streamLine_keep_of {s : State} {c : ℕ} {n : ℕ} {pa : ℕ} {stp : Bool} {v1 : Option Line} {t1 : State} (e : State.streamLine s c n pa stp = (v1, t1)) (hk : Keep s0 s) : Keep s0 t1 := by
  have k := State.streamLine_keep (s0 := s0) (s := s) (c := c) (n := n) (pa := pa) (stp := stp) hk
  rw [e] at k
  exact k

theorem execSdecl_keep {c : ℕ} {b : Body} {s : State} (hk : Keep s0 s) :
    OKeep s0 (execSdecl c b s) := by
  unfold execSdecl
  repeat' first
    | with_reducible assumption
    | with_reducible refine issueO_keep (fun _ => ?_) ?_
    | with_reducible refine State.misaligned_keep ?_
    | with_reducible refine State.localPoisonAt_keep ?_
    | with_reducible refine State.retire_keep ?_
    | with_reducible refine OKeep.next ?_
    | with_reducible exact OKeep.fault
    | with_reducible exact OKeep.refused
    | with_reducible refine Keep.foldl (fun _ _ _ => ?_) ?_
    | with_reducible refine Keep.foldl_snd (fun _ _ _ => ?_) ?_
    | split
    | dsimp only

theorem execSfence_keep {c : ℕ} {b : Body} {s : State} (hk : Keep s0 s) :
    OKeep s0 (execSfence c b s) := by
  unfold execSfence
  repeat' first
    | with_reducible assumption
    | with_reducible refine issue_keep (fun _ => ?_) ?_
    | with_reducible refine State.retire_keep ?_

theorem State.touchStream_keep {s : State} {c : ℕ} {n : ℕ} {first : ℕ} {vas : List ℕ} (hk : Keep s0 s) :
    Keep s0 (State.touchStream s c n first vas) := by
  unfold State.touchStream
  repeat' first
    | with_reducible assumption
    | with_reducible refine State.setCore_keep ?_
    | with_reducible refine Keep.foldl (fun _ _ _ => ?_) ?_
    | with_reducible refine Keep.foldl_snd (fun _ _ _ => ?_) ?_
    | split
    | fail_if_no_progress ((with_reducible refine Keep.upd ?_ ?_); exact rfl)
    | dsimp only

theorem execVlds_keep {c : ℕ} {b : Body} {s : State} (hk : Keep s0 s) :
    OKeep s0 (execVlds c b s) := by
  unfold execVlds
  repeat' first
    | with_reducible assumption
    | with_reducible refine issue_keep (fun _ => ?_) ?_
    | with_reducible refine State.shapeFault_keep ?_
    | with_reducible refine State.accFault_keep ?_
    | with_reducible refine State.hostReadFault_keep ?_
    | with_reducible refine State.touchStream_keep ?_
    | with_reducible refine State.keepXlat_keep ?_
    | with_reducible refine State.streamLine_keep ?_
    | with_reducible refine State.streamLine_keep_of (by assumption) ?_
    | with_reducible refine State.remoteRead_keep ?_
    | with_reducible refine State.retire_keep ?_
    | with_reducible refine OKeep.next ?_
    | with_reducible exact OKeep.fault
    | with_reducible exact OKeep.refused
    | with_reducible refine Keep.foldl (fun _ _ _ => ?_) ?_
    | with_reducible refine Keep.foldl_snd (fun _ _ _ => ?_) ?_
    | split
    | fail_if_no_progress ((with_reducible refine Keep.upd ?_ ?_); exact rfl)
    | dsimp only

theorem State.dropAhead_keep {s : State} {c : ℕ} {n : ℕ} {va : ℕ} {bits : ℕ} (hk : Keep s0 s) :
    Keep s0 (State.dropAhead s c n va bits) := by
  unfold State.dropAhead
  repeat' first
    | with_reducible assumption
    | with_reducible refine State.setCore_keep ?_

theorem State.issueAhead_keep {s : State} {c : ℕ} {n : ℕ} {i : ℕ} (hk : Keep s0 s) :
    Keep s0 (State.issueAhead s c n i) := by
  unfold State.issueAhead
  repeat' first
    | with_reducible assumption
    | with_reducible refine State.dropAhead_keep ?_
    | with_reducible refine State.keepXlat_keep ?_
    | with_reducible refine State.setCore_keep ?_
    | with_reducible refine State.sendReads_keep ?_
    | with_reducible refine State.sendReads_keep_of (by assumption) ?_
    | with_reducible refine State.addRemote_keep ?_
    | with_reducible refine Keep.foldl (fun _ _ _ => ?_) ?_
    | with_reducible refine Keep.foldl_snd (fun _ _ _ => ?_) ?_
    | split
    | fail_if_no_progress ((with_reducible refine Keep.upd ?_ ?_); exact rfl)
    | dsimp only

theorem State.aheadTurn_keep {s : State} {c : ℕ} {n : ℕ} {i : ℕ} (hk : Keep s0 s) :
    Keep s0 (State.aheadTurn s c n i) := by
  unfold State.aheadTurn
  repeat' first
    | with_reducible assumption
    | with_reducible refine State.setCore_keep ?_
    | with_reducible refine State.issueAhead_keep ?_
    | with_reducible refine Keep.foldl (fun _ _ _ => ?_) ?_
    | with_reducible refine Keep.foldl_snd (fun _ _ _ => ?_) ?_
    | split
    | fail_if_no_progress ((with_reducible refine Keep.upd ?_ ?_); exact rfl)
    | dsimp only

theorem State.objAccFault_keep {s : State} {c : ℕ} {cause : ℕ} {h : ℕ} (hk : Keep s0 s) :
    Keep s0 (State.objAccFault s c cause h) := by
  unfold State.objAccFault
  repeat' first
    | with_reducible assumption
    | with_reducible refine State.accFault_keep ?_

theorem State.sleepOn_keep {s : State} {c : ℕ} {r : WaitRec} (hk : Keep s0 s) :
    Keep s0 (State.sleepOn s c r) := by
  unfold State.sleepOn
  repeat' first
    | with_reducible assumption
    | with_reducible refine State.setCore_keep ?_
    | with_reducible refine State.setObj_keep ?_

theorem State.syncFault_keep {s : State} {c : ℕ} {cause : ℕ} {h : ℕ} {w : ℕ} (hk : Keep s0 s) :
    Keep s0 (State.syncFault s c cause h w) := by
  unfold State.syncFault
  repeat' first
    | with_reducible assumption
    | with_reducible refine State.faultHere_keep ?_

theorem State.waitReturn_keep {s : State} {c : ℕ} {sd : ℕ} {status : ℕ} {word : ℕ} (hk : Keep s0 s) :
    Keep s0 (State.waitReturn s c sd status word) := by
  unfold State.waitReturn
  repeat' first
    | with_reducible assumption
    | with_reducible refine State.setCore_keep ?_

theorem State.waitCheck_keep {s : State} {c : ℕ} {r : WaitRec} {w : ℕ} (hk : Keep s0 s) :
    Keep s0 (State.waitCheck s c r w) := by
  unfold State.waitCheck
  repeat' first
    | with_reducible assumption
    | with_reducible refine State.waitObj_keep ?_
    | with_reducible refine State.waitObj_keep_of (by assumption) ?_
    | with_reducible refine State.waitReturn_keep ?_
    | with_reducible refine State.syncFault_keep ?_
    | with_reducible refine State.objAccFault_keep ?_
    | with_reducible refine State.sleepOn_keep ?_
    | with_reducible refine Keep.foldl (fun _ _ _ => ?_) ?_
    | with_reducible refine Keep.foldl_snd (fun _ _ _ => ?_) ?_
    | split
    | fail_if_no_progress ((with_reducible refine Keep.upd ?_ ?_); exact rfl)
    | dsimp only

theorem State.wakeCore_keep {s : State} {c : ℕ} {snap : ℕ} (hk : Keep s0 s) :
    Keep s0 (State.wakeCore s c snap) := by
  unfold State.wakeCore
  repeat' first
    | with_reducible assumption
    | with_reducible refine State.setCore_keep ?_
    | with_reducible refine State.waitReturn_keep ?_
    | with_reducible refine State.syncFault_keep ?_
    | with_reducible refine State.waitCheck_keep ?_
    | with_reducible refine Keep.foldl (fun _ _ _ => ?_) ?_
    | with_reducible refine Keep.foldl_snd (fun _ _ _ => ?_) ?_
    | split
    | fail_if_no_progress ((with_reducible refine Keep.upd ?_ ?_); exact rfl)
    | dsimp only

theorem execEndWork_keep {c : ℕ} {b : Body} {s : State} (hk : Keep s0 s) :
    OKeep s0 (execEndWork c b s) := by
  unfold execEndWork
  repeat' first
    | with_reducible assumption
    | with_reducible refine issue_keep (fun _ => ?_) ?_
    | with_reducible refine State.runBreaks_keep ?_ ?_
    | with_reducible refine State.endWork_keep ?_
    | with_reducible refine State.setCore_keep ?_
    | with_reducible refine OKeep.next ?_
    | with_reducible exact OKeep.fault
    | with_reducible exact OKeep.refused
    | with_reducible refine Keep.foldl (fun _ _ _ => ?_) ?_
    | with_reducible refine Keep.foldl_snd (fun _ _ _ => ?_) ?_
    | split

theorem execMfence_keep {c : ℕ} {b : Body} {s : State} (hk : Keep s0 s) :
    OKeep s0 (execMfence c b s) := by
  unfold execMfence
  repeat' first
    | with_reducible assumption
    | with_reducible refine issue_keep (fun _ => ?_) ?_
    | with_reducible refine State.retire_keep ?_
    | with_reducible refine OKeep.next ?_
    | with_reducible exact OKeep.fault
    | with_reducible exact OKeep.refused
    | with_reducible refine Keep.foldl (fun _ _ _ => ?_) ?_
    | with_reducible refine Keep.foldl_snd (fun _ _ _ => ?_) ?_
    | split
    | fail_if_no_progress ((with_reducible refine Keep.upd ?_ ?_); exact rfl)
    | dsimp only

theorem execSig_keep {c : ℕ} {b : Body} {s : State} (hk : Keep s0 s) :
    OKeep s0 (execSig c b s) := by
  unfold execSig
  repeat' first
    | with_reducible assumption
    | with_reducible refine issueO_keep (fun _ => ?_) ?_
    | with_reducible refine State.illegal_keep ?_
    | with_reducible refine State.writeS_keep ?_
    | with_reducible refine State.signalRemote_keep ?_
    | with_reducible refine State.addRemote_keep ?_
    | with_reducible refine State.advance_keep ?_
    | with_reducible refine State.signalObj_keep ?_
    | with_reducible refine State.signalObj_keep_of (by assumption) ?_
    | with_reducible refine State.objAccFault_keep ?_
    | with_reducible refine State.syncFault_keep ?_
    | with_reducible refine OKeep.next ?_
    | with_reducible exact OKeep.fault
    | with_reducible exact OKeep.refused
    | with_reducible refine Keep.foldl (fun _ _ _ => ?_) ?_
    | with_reducible refine Keep.foldl_snd (fun _ _ _ => ?_) ?_
    | split
    | dsimp only

theorem execSpoll_keep {c : ℕ} {b : Body} {s : State} (hk : Keep s0 s) :
    OKeep s0 (execSpoll c b s) := by
  unfold execSpoll
  repeat' first
    | with_reducible assumption
    | with_reducible refine issueO_keep (fun _ => ?_) ?_
    | with_reducible refine State.illegal_keep ?_
    | with_reducible refine State.objAccFault_keep ?_
    | with_reducible refine State.writeS_keep ?_
    | with_reducible refine OKeep.next ?_
    | with_reducible exact OKeep.fault
    | with_reducible exact OKeep.refused
    | with_reducible refine Keep.foldl (fun _ _ _ => ?_) ?_
    | with_reducible refine Keep.foldl_snd (fun _ _ _ => ?_) ?_
    | split
    | dsimp only

theorem execWait_keep {c : ℕ} {b : Body} {s : State} (hk : Keep s0 s) :
    OKeep s0 (execWait c b s) := by
  unfold execWait
  repeat' first
    | with_reducible assumption
    | with_reducible refine issueO_keep (fun _ => ?_) ?_
    | with_reducible refine State.illegal_keep ?_
    | with_reducible refine State.objAccFault_keep ?_
    | with_reducible refine State.waitCheck_keep ?_
    | with_reducible refine OKeep.next ?_
    | with_reducible exact OKeep.fault
    | with_reducible exact OKeep.refused
    | with_reducible refine Keep.foldl (fun _ _ _ => ?_) ?_
    | with_reducible refine Keep.foldl_snd (fun _ _ _ => ?_) ?_
    | split
    | dsimp only

theorem execWaitDeadline_keep {c : ℕ} {s : State} (hk : Keep s0 s) :
    OKeep s0 (execWaitDeadline c s) := by
  unfold execWaitDeadline
  repeat' first
    | with_reducible assumption
    | with_reducible refine State.setCore_keep ?_
    | with_reducible refine State.waitReturn_keep ?_
    | with_reducible refine State.waitCheck_keep ?_
    | with_reducible refine OKeep.next ?_
    | with_reducible exact OKeep.fault
    | with_reducible exact OKeep.refused
    | with_reducible refine Keep.foldl (fun _ _ _ => ?_) ?_
    | with_reducible refine Keep.foldl_snd (fun _ _ _ => ?_) ?_
    | split
    | dsimp only

theorem execWakeFlitArrival_keep {b : ℕ} {s : State} (hk : Keep s0 s) :
    OKeep s0 (execWakeFlitArrival b s) := by
  unfold execWakeFlitArrival
  repeat' first
    | with_reducible assumption
    | with_reducible refine State.wakeCore_keep ?_
    | with_reducible refine OKeep.next ?_
    | with_reducible exact OKeep.fault
    | with_reducible exact OKeep.refused
    | with_reducible refine Keep.foldl (fun _ _ _ => ?_) ?_
    | with_reducible refine Keep.foldl_snd (fun _ _ _ => ?_) ?_
    | split
    | fail_if_no_progress ((with_reducible refine Keep.upd ?_ ?_); exact rfl)

theorem State.livenTile_keep {s : State} {c : ℕ} {n : ℕ} (hk : Keep s0 s) :
    Keep s0 (State.livenTile s c n) := by
  unfold State.livenTile
  repeat' first
    | with_reducible assumption
    | with_reducible refine State.setCore_keep ?_
    | with_reducible refine Keep.foldl (fun _ _ _ => ?_) ?_
    | with_reducible refine Keep.foldl_snd (fun _ _ _ => ?_) ?_
    | split
    | fail_if_no_progress ((with_reducible refine Keep.upd ?_ ?_); exact rfl)
    | dsimp only

theorem State.drainStore_keep {s : State} {c : ℕ} {off : ℕ} {bs : List Byte} (hk : Keep s0 s) :
    Keep s0 (State.drainStore s c off bs) := by
  unfold State.drainStore
  repeat' first
    | with_reducible assumption
    | with_reducible refine State.localStore_keep ?_
    | with_reducible refine Keep.foldl (fun _ _ _ => ?_) ?_

theorem State.completeDrain_keep {s : State} {c : ℕ} {i : ℕ} {e : QEntry} (hk : Keep s0 s) :
    Keep s0 (State.completeDrain s c i e) := by
  unfold State.completeDrain
  repeat' first
    | with_reducible assumption
    | with_reducible refine State.livenTile_keep ?_
    | with_reducible refine State.setCore_keep ?_
    | with_reducible refine State.drainStore_keep ?_
    | with_reducible refine Keep.foldl (fun _ _ _ => ?_) ?_
    | with_reducible refine Keep.foldl_snd (fun _ _ _ => ?_) ?_
    | split
    | fail_if_no_progress ((with_reducible refine Keep.upd ?_ ?_); exact rfl)
    | dsimp only

theorem State.mismatch_keep {s : State} {ps : List (ℕ × ℕ)} (hk : Keep s0 s) :
    Keep s0 (State.mismatch s ps) := by
  unfold State.mismatch
  repeat' first
    | with_reducible assumption
    | with_reducible refine State.runBreaks_keep ?_ ?_

theorem State.startGroup_keep {s : State} {code : ℕ} {c : ℕ} (hk : Keep s0 s) :
    Keep s0 (State.startGroup s code c) := by
  unfold State.startGroup
  repeat' first
    | with_reducible assumption
    | with_reducible refine State.setCore_keep ?_
    | with_reducible refine Keep.foldl (fun _ _ _ => ?_) ?_
    | with_reducible refine Keep.foldl_snd (fun _ _ _ => ?_) ?_
    | split
    | fail_if_no_progress ((with_reducible refine Keep.upd ?_ ?_); exact rfl)
    | dsimp only

theorem State.dispatchGroup_keep {s : State} {c : ℕ} {i : ℕ} {e : QEntry} (hk : Keep s0 s) :
    Keep s0 (State.dispatchGroup s c i e) := by
  unfold State.dispatchGroup
  repeat' first
    | with_reducible assumption
    | with_reducible refine State.setCore_keep ?_
    | with_reducible refine State.mismatch_keep ?_
    | with_reducible refine State.startGroup_keep ?_
    | with_reducible refine Keep.foldl (fun _ _ _ => ?_) ?_
    | with_reducible refine Keep.foldl_snd (fun _ _ _ => ?_) ?_
    | split
    | fail_if_no_progress ((with_reducible refine Keep.upd ?_ ?_); exact rfl)
    | dsimp only

theorem State.dispatchArray_keep {s : State} {c : ℕ} {i : ℕ} {e : QEntry} (hk : Keep s0 s) :
    Keep s0 (State.dispatchArray s c i e) := by
  unfold State.dispatchArray
  repeat' first
    | with_reducible assumption
    | with_reducible refine State.setCore_keep ?_
    | with_reducible refine State.dispatchGroup_keep ?_
    | with_reducible refine Keep.foldl (fun _ _ _ => ?_) ?_
    | with_reducible refine Keep.foldl_snd (fun _ _ _ => ?_) ?_
    | split
    | fail_if_no_progress ((with_reducible refine Keep.upd ?_ ?_); exact rfl)
    | dsimp only

theorem State.entryFault_keep {s : State} {c : ℕ} {cause : ℕ} {info : ℕ} {e : QEntry} (hk : Keep s0 s) :
    Keep s0 (State.entryFault s c cause info e) := by
  unfold State.entryFault
  repeat' first
    | with_reducible assumption
    | with_reducible refine State.instrFault_keep ?_

theorem State.livenDrains_keep {s : State} {c : ℕ} (hk : Keep s0 s) :
    Keep s0 (State.livenDrains s c) := by
  unfold State.livenDrains
  repeat' first
    | with_reducible assumption
    | with_reducible refine State.livenTile_keep ?_
    | with_reducible refine Keep.foldl (fun _ _ _ => ?_) ?_
    | with_reducible refine Keep.foldl_snd (fun _ _ _ => ?_) ?_
    | split
    | fail_if_no_progress ((with_reducible refine Keep.upd ?_ ?_); exact rfl)
    | dsimp only

theorem State.dispatchDrain_keep {s : State} {c : ℕ} {i : ℕ} {e : QEntry} (hk : Keep s0 s) :
    Keep s0 (State.dispatchDrain s c i e) := by
  unfold State.dispatchDrain
  repeat' first
    | with_reducible assumption
    | with_reducible refine State.entryFault_keep ?_
    | with_reducible refine State.livenDrains_keep ?_
    | with_reducible refine State.setCore_keep ?_
    | with_reducible refine Keep.foldl (fun _ _ _ => ?_) ?_
    | with_reducible refine Keep.foldl_snd (fun _ _ _ => ?_) ?_
    | split
    | fail_if_no_progress ((with_reducible refine Keep.upd ?_ ?_); exact rfl)
    | dsimp only

theorem State.keepRows_keep {s : State} {ctx : ℕ} {n : ℕ} {vas : List ℕ} (hk : Keep s0 s) :
    Keep s0 (State.keepRows s ctx n vas) := by
  unfold State.keepRows
  repeat' first
    | with_reducible assumption
    | with_reducible refine State.keepPieces_keep ?_
    | with_reducible refine Keep.foldl (fun _ _ _ => ?_) ?_

theorem State.servePartsHeld_keep {s : State} {c : ℕ} {i : ℕ} {stream : Option ℕ} {stp : ℕ → Bool} {x5 : List ℕ} (hk : Keep s0 s) :
    Keep s0 (State.servePartsHeld s c i stream stp x5).2 := by
  induction x5 generalizing s with
  | nil =>
    rw [State.servePartsHeld]
    repeat' first
      | with_reducible assumption
  | cons _ _ ih =>
    rw [State.servePartsHeld]
    repeat' first
      | with_reducible assumption
      | with_reducible refine ih ?_
      | with_reducible refine State.lineHit_keep ?_
      | with_reducible refine State.lineHit_keep_of (by assumption) ?_
      | with_reducible refine State.setCore_keep ?_
      | with_reducible refine Keep.foldl (fun _ _ _ => ?_) ?_
      | with_reducible refine Keep.foldl_snd (fun _ _ _ => ?_) ?_
      | dsimp only
      | split
theorem State.servePartsHeld_keep_of {s : State} {c : ℕ} {i : ℕ} {stream : Option ℕ} {stp : ℕ → Bool} {x5 : List ℕ} {v1 : Option ℕ} {t1 : State} (e : State.servePartsHeld s c i stream stp x5 = (v1, t1)) (hk : Keep s0 s) : Keep s0 t1 := by
  have k := State.servePartsHeld_keep (s0 := s0) (s := s) (c := c) (i := i) (stream := stream) (stp := stp) (x5 := x5) hk
  rw [e] at k
  exact k

theorem State.completeLoads_keep {s : State} {c : ℕ} {x2 : ℕ} (hk : Keep s0 s) :
    Keep s0 (State.completeLoads s c x2) := by
  induction x2 generalizing s with
  | zero =>
    rw [State.completeLoads]
    repeat' first
      | with_reducible assumption
  | succ _ ih =>
    rw [State.completeLoads]
    repeat' first
      | with_reducible assumption
      | with_reducible refine ih ?_
      | with_reducible refine State.setCore_keep ?_
      | with_reducible refine Keep.foldl (fun _ _ _ => ?_) ?_
      | with_reducible refine Keep.foldl_snd (fun _ _ _ => ?_) ?_
      | split
      | fail_if_no_progress ((with_reducible refine Keep.upd ?_ ?_); exact rfl)
      | dsimp only

theorem State.writeRows_keep {s : State} {c : ℕ} {i : ℕ} (hk : Keep s0 s) :
    Keep s0 (State.writeRows s c i) := by
  unfold State.writeRows
  repeat' first
    | with_reducible assumption
    | with_reducible refine State.setCore_keep ?_
    | with_reducible refine State.livenTile_keep ?_
    | with_reducible refine Keep.foldl (fun _ _ _ => ?_) ?_
    | with_reducible refine Keep.foldl_snd (fun _ _ _ => ?_) ?_
    | split
    | fail_if_no_progress ((with_reducible refine Keep.upd ?_ ?_); exact rfl)
    | dsimp only

theorem State.finishLoads_keep {s : State} {c : ℕ} (hk : Keep s0 s) :
    Keep s0 (State.finishLoads s c) := by
  unfold State.finishLoads
  repeat' first
    | with_reducible assumption
    | with_reducible refine State.completeLoads_keep ?_
    | with_reducible refine State.writeRows_keep ?_
    | with_reducible refine Keep.foldl (fun _ _ _ => ?_) ?_

theorem State.remoteFill_keep {s : State} {c : ℕ} {va : ℕ} {x3 : List ℕ} (hk : Keep s0 s) :
    Keep s0 (State.remoteFill s c va x3) := by
  induction x3 generalizing s with
  | nil =>
    rw [State.remoteFill]
    repeat' first
      | with_reducible assumption
  | cons _ _ ih =>
    rw [State.remoteFill]
    repeat' first
      | with_reducible assumption
      | with_reducible refine ih ?_
      | with_reducible refine State.sendReads_keep ?_
      | with_reducible refine State.sendReads_keep_of (by assumption) ?_
      | with_reducible refine State.coreTimeout_keep ?_
      | with_reducible refine State.addRemote_keep ?_
      | with_reducible refine State.setCore_keep ?_
      | with_reducible refine Keep.foldl (fun _ _ _ => ?_) ?_
      | with_reducible refine Keep.foldl_snd (fun _ _ _ => ?_) ?_
      | split

theorem State.dispatchLoad_keep {s : State} {c : ℕ} {i : ℕ} {e : QEntry} (hk : Keep s0 s) :
    Keep s0 (State.dispatchLoad s c i e) := by
  unfold State.dispatchLoad
  repeat' first
    | with_reducible assumption
    | with_reducible refine State.entryFault_keep ?_
    | with_reducible refine State.accFault_keep ?_
    | with_reducible refine State.hostReadFault_keep ?_
    | with_reducible refine State.coreTimeout_keep ?_
    | with_reducible refine State.keepRows_keep ?_
    | with_reducible refine State.touchStream_keep ?_
    | with_reducible refine State.servePartsHeld_keep ?_
    | with_reducible refine State.servePartsHeld_keep_of (by assumption) ?_
    | with_reducible refine State.setCore_keep ?_
    | with_reducible refine State.finishLoads_keep ?_
    | with_reducible refine State.remoteFill_keep ?_
    | with_reducible refine Keep.foldl (fun _ _ _ => ?_) ?_
    | with_reducible refine Keep.foldl_snd (fun _ _ _ => ?_) ?_
    | split
    | fail_if_no_progress ((with_reducible refine Keep.upd ?_ ?_); exact rfl)
    | dsimp only

theorem State.storeRows_keep {s : State} {c : ℕ} {e : QEntry} {rows : List (ℕ × ℕ × List (ℕ × ℕ × ℕ))} (hk : Keep s0 s) :
    Keep s0 (State.storeRows s c e rows) := by
  unfold State.storeRows
  repeat' first
    | with_reducible assumption
    | with_reducible refine State.storeAll_keep ?_
    | with_reducible refine Keep.foldl (fun _ _ _ => ?_) ?_
    | with_reducible refine Keep.foldl_snd (fun _ _ _ => ?_) ?_
    | split
    | fail_if_no_progress ((with_reducible refine Keep.upd ?_ ?_); exact rfl)

theorem State.dispatchStore_keep {s : State} {c : ℕ} {i : ℕ} {e : QEntry} (hk : Keep s0 s) :
    Keep s0 (State.dispatchStore s c i e) := by
  unfold State.dispatchStore
  repeat' first
    | with_reducible assumption
    | with_reducible refine State.entryFault_keep ?_
    | with_reducible refine State.accFault_keep ?_
    | with_reducible refine State.coreTimeout_keep ?_
    | with_reducible refine State.storeRows_keep ?_
    | with_reducible refine State.keepRows_keep ?_
    | with_reducible refine State.setCore_keep ?_
    | with_reducible refine Keep.foldl (fun _ _ _ => ?_) ?_
    | with_reducible refine Keep.foldl_snd (fun _ _ _ => ?_) ?_
    | split
    | fail_if_no_progress ((with_reducible refine Keep.upd ?_ ?_); exact rfl)
    | dsimp only

theorem State.dispatchEntry_keep {s : State} {c : ℕ} {i : ℕ} {e : QEntry} (hk : Keep s0 s) :
    Keep s0 (State.dispatchEntry s c i e) := by
  unfold State.dispatchEntry
  repeat' first
    | with_reducible assumption
    | with_reducible refine State.dispatchLoad_keep ?_
    | with_reducible refine State.dispatchStore_keep ?_
    | with_reducible refine State.setCore_keep ?_
    | with_reducible refine State.dispatchArray_keep ?_
    | with_reducible refine State.dispatchDrain_keep ?_
    | with_reducible refine Keep.foldl (fun _ _ _ => ?_) ?_
    | with_reducible refine Keep.foldl_snd (fun _ _ _ => ?_) ?_
    | split
    | fail_if_no_progress ((with_reducible refine Keep.upd ?_ ?_); exact rfl)
    | dsimp only

theorem State.parityFault_keep {s : State} {c : ℕ} (hk : Keep s0 s) :
    Keep s0 (State.parityFault s c) := by
  unfold State.parityFault
  repeat' first
    | with_reducible assumption
    | with_reducible refine State.accFault_keep ?_

theorem State.rowMoveParity_keep {s : State} {c : ℕ} (hk : Keep s0 s) :
    Keep s0 (State.rowMoveParity s c) := by
  unfold State.rowMoveParity
  repeat' first
    | with_reducible assumption
    | with_reducible refine State.parityFault_keep ?_
    | with_reducible refine State.setCore_keep ?_
    | with_reducible refine Keep.foldl (fun _ _ _ => ?_) ?_
    | with_reducible refine Keep.foldl_snd (fun _ _ _ => ?_) ?_
    | split
    | fail_if_no_progress ((with_reducible refine Keep.upd ?_ ?_); exact rfl)
    | dsimp only

theorem State.storeParity_keep {s : State} {c : ℕ} {i : ℕ} {e : QEntry} (hk : Keep s0 s) :
    Keep s0 (State.storeParity s c i e) := by
  unfold State.storeParity
  repeat' first
    | with_reducible assumption
    | with_reducible refine State.parityFault_keep ?_
    | with_reducible refine State.storeRows_keep ?_
    | with_reducible refine State.setCore_keep ?_
    | with_reducible refine Keep.foldl (fun _ _ _ => ?_) ?_
    | with_reducible refine Keep.foldl_snd (fun _ _ _ => ?_) ?_
    | split
    | fail_if_no_progress ((with_reducible refine Keep.upd ?_ ?_); exact rfl)
    | dsimp only

theorem execBankGate_keep {c : ℕ} {b : ℕ} {s : State} (hk : Keep s0 s) :
    OKeep s0 (execBankGate c b s) := by
  unfold execBankGate
  repeat' first
    | with_reducible assumption
    | with_reducible refine State.setCore_keep ?_
    | with_reducible refine OKeep.next ?_
    | with_reducible exact OKeep.fault
    | with_reducible exact OKeep.refused
    | with_reducible refine Keep.foldl (fun _ _ _ => ?_) ?_
    | with_reducible refine Keep.foldl_snd (fun _ _ _ => ?_) ?_
    | split
    | dsimp only

theorem execBankWakeDone_keep {c : ℕ} {b : ℕ} {s : State} (hk : Keep s0 s) :
    OKeep s0 (execBankWakeDone c b s) := by
  unfold execBankWakeDone
  repeat' first
    | with_reducible assumption
    | with_reducible refine State.livenDrains_keep ?_
    | with_reducible refine State.finishLoads_keep ?_
    | with_reducible refine State.setCore_keep ?_
    | with_reducible refine OKeep.next ?_
    | with_reducible exact OKeep.fault
    | with_reducible exact OKeep.refused
    | with_reducible refine Keep.foldl (fun _ _ _ => ?_) ?_
    | with_reducible refine Keep.foldl_snd (fun _ _ _ => ?_) ?_
    | split
    | dsimp only

theorem State.enqueue_keep {s : State} {c : ℕ} {w : ℕ} {first : ℕ} {vals : List W64} {f : Core → Core} (hk : Keep s0 s) :
    Keep s0 (State.enqueue s c w first vals f) := by
  unfold State.enqueue
  repeat' first
    | with_reducible assumption
    | with_reducible refine State.setCore_keep ?_
    | with_reducible refine Keep.foldl (fun _ _ _ => ?_) ?_
    | with_reducible refine Keep.foldl_snd (fun _ _ _ => ?_) ?_
    | split
    | fail_if_no_progress ((with_reducible refine Keep.upd ?_ ?_); exact rfl)
    | dsimp only

theorem execDcfg_keep {c : ℕ} {b : Body} {s : State} (hk : Keep s0 s) :
    OKeep s0 (execDcfg c b s) := by
  unfold execDcfg
  repeat' first
    | with_reducible assumption
    | with_reducible refine issue_keep (fun _ => ?_) ?_
    | with_reducible refine State.illegal_keep ?_
    | with_reducible refine State.enqueue_keep ?_
    | with_reducible refine OKeep.next ?_
    | with_reducible exact OKeep.fault
    | with_reducible exact OKeep.refused
    | with_reducible refine Keep.foldl (fun _ _ _ => ?_) ?_
    | with_reducible refine Keep.foldl_snd (fun _ _ _ => ?_) ?_
    | split

theorem execDrain_keep {c : ℕ} {b : Body} {s : State} (hk : Keep s0 s) :
    OKeep s0 (execDrain c b s) := by
  unfold execDrain
  repeat' first
    | with_reducible assumption
    | with_reducible refine issue_keep (fun _ => ?_) ?_
    | with_reducible refine State.shapeFault_keep ?_
    | with_reducible refine State.enqueue_keep ?_
    | with_reducible refine OKeep.next ?_
    | with_reducible exact OKeep.fault
    | with_reducible exact OKeep.refused
    | with_reducible refine Keep.foldl (fun _ _ _ => ?_) ?_
    | with_reducible refine Keep.foldl_snd (fun _ _ _ => ?_) ?_
    | split

theorem execDrainComplete_keep {c : ℕ} {s : State} (hk : Keep s0 s) :
    OKeep s0 (execDrainComplete c s) := by
  unfold execDrainComplete
  repeat' first
    | with_reducible assumption
    | with_reducible refine State.setCore_keep ?_
    | with_reducible refine State.completeDrain_keep ?_
    | with_reducible refine OKeep.next ?_
    | with_reducible exact OKeep.fault
    | with_reducible exact OKeep.refused
    | with_reducible refine Keep.foldl (fun _ _ _ => ?_) ?_
    | with_reducible refine Keep.foldl_snd (fun _ _ _ => ?_) ?_
    | split
    | dsimp only

theorem execGroupStart_keep {c : ℕ} {s : State} (hk : Keep s0 s) :
    OKeep s0 (execGroupStart c s) := by
  unfold execGroupStart
  repeat' first
    | with_reducible assumption
    | with_reducible refine State.startGroup_keep ?_
    | with_reducible refine OKeep.next ?_
    | with_reducible exact OKeep.fault
    | with_reducible exact OKeep.refused
    | with_reducible refine Keep.foldl (fun _ _ _ => ?_) ?_
    | with_reducible refine Keep.foldl_snd (fun _ _ _ => ?_) ?_
    | split

theorem State.serveLine_keep {s : State} {c : ℕ} {l : Line} (hk : Keep s0 s) :
    Keep s0 (State.serveLine s c l) := by
  unfold State.serveLine
  repeat' first
    | with_reducible assumption
    | with_reducible refine State.accFault_keep ?_
    | with_reducible refine State.finishLoads_keep ?_
    | with_reducible refine State.setCore_keep ?_
    | with_reducible refine Keep.foldl (fun _ _ _ => ?_) ?_
    | with_reducible refine Keep.foldl_snd (fun _ _ _ => ?_) ?_
    | split
    | fail_if_no_progress ((with_reducible refine Keep.upd ?_ ?_); exact rfl)
    | dsimp only

theorem State.lineArrives_keep {s : State} {c : ℕ} {f : Line} {l : Line} (hk : Keep s0 s) :
    Keep s0 (State.lineArrives s c f l) := by
  unfold State.lineArrives
  repeat' first
    | with_reducible assumption
    | with_reducible refine State.serveLine_keep ?_
    | with_reducible refine State.setCore_keep ?_
    | with_reducible refine Keep.foldl (fun _ _ _ => ?_) ?_
    | with_reducible refine Keep.foldl_snd (fun _ _ _ => ?_) ?_
    | split
    | fail_if_no_progress ((with_reducible refine Keep.upd ?_ ?_); exact rfl)
    | dsimp only

theorem execLineFillArrival_keep {c : ℕ} {i : ℕ} {s : State} (hk : Keep s0 s) :
    OKeep s0 (execLineFillArrival c i s) := by
  unfold execLineFillArrival
  repeat' first
    | with_reducible assumption
    | with_reducible refine State.fillLine_keep ?_
    | with_reducible refine State.fillLine_keep_of (by assumption) ?_
    | with_reducible refine State.lineArrives_keep ?_
    | with_reducible refine OKeep.next ?_
    | with_reducible exact OKeep.fault
    | with_reducible exact OKeep.refused
    | with_reducible refine Keep.foldl (fun _ _ _ => ?_) ?_
    | with_reducible refine Keep.foldl_snd (fun _ _ _ => ?_) ?_
    | split

theorem execMma_keep {c : ℕ} {b : Body} {s : State} (hk : Keep s0 s) :
    OKeep s0 (execMma c b s) := by
  unfold execMma
  repeat' first
    | with_reducible assumption
    | with_reducible refine issue_keep (fun _ => ?_) ?_
    | with_reducible refine State.shapeFault_keep ?_
    | with_reducible refine State.enqueue_keep ?_
    | with_reducible refine OKeep.next ?_
    | with_reducible exact OKeep.fault
    | with_reducible exact OKeep.refused
    | with_reducible refine Keep.foldl (fun _ _ _ => ?_) ?_
    | with_reducible refine Keep.foldl_snd (fun _ _ _ => ?_) ?_
    | split

theorem execMmaComplete_keep {c : ℕ} {s : State} (hk : Keep s0 s) :
    OKeep s0 (execMmaComplete c s) := by
  unfold execMmaComplete
  repeat' first
    | with_reducible assumption
    | with_reducible refine State.instrFault_keep ?_
    | with_reducible refine State.setCore_keep ?_
    | with_reducible refine OKeep.next ?_
    | with_reducible exact OKeep.fault
    | with_reducible exact OKeep.refused
    | with_reducible refine Keep.foldl (fun _ _ _ => ?_) ?_
    | with_reducible refine Keep.foldl_snd (fun _ _ _ => ?_) ?_
    | split
    | dsimp only

theorem State.abandonFrom_keep {x0 : ℕ} {x1 : List (ℕ × ℕ)} {x2 : State} (hk : Keep s0 x2) :
    Keep s0 (State.abandonFrom x0 x1 x2) := by
  induction x0 generalizing x1 x2 with
  | zero =>
    unfold State.abandonFrom
    repeat' first
      | with_reducible assumption
  | succ _ ih =>
    cases x1
    all_goals unfold State.abandonFrom
    all_goals repeat' first
      | with_reducible assumption
      | with_reducible refine ih ?_
      | with_reducible refine State.setCore_keep ?_

theorem execParityError_keep {c : ℕ} {i : ℕ} {s : State} (hk : Keep s0 s) :
    OKeep s0 (execParityError c i s) := by
  unfold execParityError
  repeat' first
    | with_reducible assumption
    | with_reducible refine State.rowMoveParity_keep ?_
    | with_reducible refine State.storeParity_keep ?_
    | with_reducible refine State.parityFault_keep ?_
    | with_reducible refine State.setCore_keep ?_
    | with_reducible refine State.abandonFrom_keep ?_
    | with_reducible refine OKeep.next ?_
    | with_reducible exact OKeep.fault
    | with_reducible exact OKeep.refused
    | with_reducible refine Keep.foldl (fun _ _ _ => ?_) ?_
    | with_reducible refine Keep.foldl_snd (fun _ _ _ => ?_) ?_
    | split

theorem execRunaheadFetchIssue_keep {c : ℕ} {n : ℕ} {s : State} (hk : Keep s0 s) :
    OKeep s0 (execRunaheadFetchIssue c n s) := by
  unfold execRunaheadFetchIssue
  repeat' first
    | with_reducible assumption
    | with_reducible refine State.aheadTurn_keep ?_
    | with_reducible refine OKeep.next ?_
    | with_reducible exact OKeep.fault
    | with_reducible exact OKeep.refused
    | with_reducible refine Keep.foldl (fun _ _ _ => ?_) ?_
    | with_reducible refine Keep.foldl_snd (fun _ _ _ => ?_) ?_
    | split
    | dsimp only

theorem execTileQueueDispatch_keep {c : ℕ} {s : State} (hk : Keep s0 s) :
    OKeep s0 (execTileQueueDispatch c s) := by
  unfold execTileQueueDispatch
  repeat' first
    | with_reducible assumption
    | with_reducible refine State.dispatchArray_keep ?_
    | with_reducible refine State.dispatchEntry_keep ?_
    | with_reducible refine OKeep.next ?_
    | with_reducible exact OKeep.fault
    | with_reducible exact OKeep.refused
    | with_reducible refine Keep.foldl (fun _ _ _ => ?_) ?_
    | with_reducible refine Keep.foldl_snd (fun _ _ _ => ?_) ?_
    | split
    | dsimp only

theorem execTld_keep {c : ℕ} {b : Body} {s : State} (hk : Keep s0 s) :
    OKeep s0 (execTld c b s) := by
  unfold execTld
  repeat' first
    | with_reducible assumption
    | with_reducible refine issue_keep (fun _ => ?_) ?_
    | with_reducible refine State.shapeFault_keep ?_
    | with_reducible refine State.enqueue_keep ?_
    | with_reducible refine OKeep.next ?_
    | with_reducible exact OKeep.fault
    | with_reducible exact OKeep.refused
    | with_reducible refine Keep.foldl (fun _ _ _ => ?_) ?_
    | with_reducible refine Keep.foldl_snd (fun _ _ _ => ?_) ?_
    | split

theorem execTlds_keep {c : ℕ} {b : Body} {s : State} (hk : Keep s0 s) :
    OKeep s0 (execTlds c b s) := by
  unfold execTlds
  repeat' first
    | with_reducible assumption
    | with_reducible refine issue_keep (fun _ => ?_) ?_
    | with_reducible refine State.shapeFault_keep ?_
    | with_reducible refine State.enqueue_keep ?_
    | with_reducible refine OKeep.next ?_
    | with_reducible exact OKeep.fault
    | with_reducible exact OKeep.refused
    | with_reducible refine Keep.foldl (fun _ _ _ => ?_) ?_
    | with_reducible refine Keep.foldl_snd (fun _ _ _ => ?_) ?_
    | split
    | fail_if_no_progress ((with_reducible refine Keep.upd ?_ ?_); exact rfl)
    | dsimp only

theorem execTrel_keep {c : ℕ} {b : Body} {s : State} (hk : Keep s0 s) :
    OKeep s0 (execTrel c b s) := by
  unfold execTrel
  repeat' first
    | with_reducible assumption
    | with_reducible refine issue_keep (fun _ => ?_) ?_
    | with_reducible refine State.enqueue_keep ?_

theorem execTst_keep {c : ℕ} {b : Body} {s : State} (hk : Keep s0 s) :
    OKeep s0 (execTst c b s) := by
  unfold execTst
  repeat' first
    | with_reducible assumption
    | with_reducible refine issue_keep (fun _ => ?_) ?_
    | with_reducible refine State.shapeFault_keep ?_
    | with_reducible refine State.enqueue_keep ?_
    | with_reducible refine OKeep.next ?_
    | with_reducible exact OKeep.fault
    | with_reducible exact OKeep.refused
    | with_reducible refine Keep.foldl (fun _ _ _ => ?_) ?_
    | with_reducible refine Keep.foldl_snd (fun _ _ _ => ?_) ?_
    | split

theorem State.dropRemote_keep {s : State} {c : ℕ} {r : RemoteWait} (hk : Keep s0 s) :
    Keep s0 (State.dropRemote s c r) := by
  unfold State.dropRemote
  repeat' first
    | with_reducible assumption
    | with_reducible refine State.setCore_keep ?_

theorem State.fireSignals_keep {s : State} {c : ℕ} {x2 : List RemoteWait} (hk : Keep s0 s) :
    Keep s0 (State.fireSignals s c x2) := by
  induction x2 generalizing s with
  | nil =>
    rw [State.fireSignals]
    repeat' first
      | with_reducible assumption
  | cons _ _ ih =>
    rw [State.fireSignals]
    repeat' first
      | with_reducible assumption
      | with_reducible refine ih ?_
      | with_reducible refine State.dropRemote_keep ?_
      | with_reducible refine State.setCore_keep ?_
      | with_reducible refine State.signalRemote_keep ?_
      | with_reducible refine Keep.foldl (fun _ _ _ => ?_) ?_
      | with_reducible refine Keep.foldl_snd (fun _ _ _ => ?_) ?_
      | split

theorem State.answered_keep {s : State} {c : ℕ} {xid : ℕ} (hk : Keep s0 s) :
    Keep s0 (State.answered s c xid) := by
  unfold State.answered
  repeat' first
    | with_reducible assumption
    | with_reducible refine State.setCore_keep ?_
    | with_reducible refine State.fireSignals_keep ?_

theorem State.fillArrives_keep {s : State} {c : ℕ} {xid : ℕ} {r : RemoteWait} (hk : Keep s0 s) :
    Keep s0 (State.fillArrives s c xid r) := by
  unfold State.fillArrives
  repeat' first
    | with_reducible assumption
    | with_reducible refine State.lineArrives_keep ?_
    | with_reducible refine Keep.foldl (fun _ _ _ => ?_) ?_
    | with_reducible refine Keep.foldl_snd (fun _ _ _ => ?_) ?_
    | split

theorem State.mergeSend_keep {s : State} {c : ℕ} {old : ℕ} {r : RemoteWait} {pa : ℕ} {bytes : List Byte} (hk : Keep s0 s) :
    Keep s0 (State.mergeSend s c old r pa bytes) := by
  unfold State.mergeSend
  repeat' first
    | with_reducible assumption
    | with_reducible refine State.coreTimeout_keep ?_
    | with_reducible refine State.setCore_keep ?_
    | with_reducible refine State.closeTxn_keep ?_
    | with_reducible refine State.openTxn_keep ?_
    | with_reducible refine State.openTxn_keep_of (by assumption) ?_
    | with_reducible refine State.sendFrame_keep_of (by assumption) ?_
    | with_reducible refine State.addRemote_keep ?_
    | with_reducible refine Keep.foldl (fun _ _ _ => ?_) ?_
    | with_reducible refine Keep.foldl_snd (fun _ _ _ => ?_) ?_
    | split
    | fail_if_no_progress ((with_reducible refine Keep.upd ?_ ?_); exact rfl)
    | dsimp only

theorem State.keepRemoteLines_keep {s : State} {c : ℕ} {r : RemoteWait} (hk : Keep s0 s) :
    Keep s0 (State.keepRemoteLines s c r) := by
  unfold State.keepRemoteLines
  repeat' first
    | with_reducible assumption
    | with_reducible refine State.setCore_keep ?_
    | with_reducible refine Keep.foldl (fun _ _ _ => ?_) ?_
    | with_reducible refine Keep.foldl_snd (fun _ _ _ => ?_) ?_
    | split

theorem State.remoteDone_keep {s : State} {c : ℕ} {old : ℕ} {r : RemoteWait} (hk : Keep s0 s) :
    Keep s0 (State.remoteDone s c old r) := by
  unfold State.remoteDone
  repeat' first
    | with_reducible assumption
    | with_reducible refine State.dropRemote_keep ?_
    | with_reducible refine State.accFault_keep ?_
    | with_reducible refine State.fillArrives_keep ?_
    | with_reducible refine State.mergeSend_keep ?_
    | with_reducible refine State.keepRemoteLines_keep ?_
    | with_reducible refine State.setCore_keep ?_
    | with_reducible refine Keep.foldl (fun _ _ _ => ?_) ?_
    | with_reducible refine Keep.foldl_snd (fun _ _ _ => ?_) ?_
    | split

theorem State.coreReply_keep {s : State} {c : ℕ} {xid : ℕ} {addr : ℕ} {ok : Bool} {bytes : List Byte} {poison : ℕ} (hk : Keep s0 s) :
    Keep s0 (State.coreReply s c xid addr ok bytes poison) := by
  unfold State.coreReply
  repeat' first
    | with_reducible assumption
    | with_reducible refine State.setCore_keep ?_
    | with_reducible refine State.accFault_keep ?_
    | with_reducible refine State.answered_keep ?_
    | with_reducible refine State.remoteDone_keep ?_
    | with_reducible refine Keep.foldl (fun _ _ _ => ?_) ?_
    | with_reducible refine Keep.foldl_snd (fun _ _ _ => ?_) ?_
    | split
    | fail_if_no_progress ((with_reducible refine Keep.upd ?_ ?_); exact rfl)
    | dsimp only

theorem State.engReply_keep {s : State} {n : ℕ} {tag : ℕ} {key : ℕ} {xid : ℕ} {addr : ℕ} {ok : Bool} {bytes : List Byte} {poison : ℕ} (hk : Keep s0 s) :
    Keep s0 (State.engReply s n tag key xid addr ok bytes poison) := by
  unfold State.engReply
  repeat' first
    | with_reducible assumption
    | with_reducible refine State.putXfer_keep ?_
    | with_reducible refine Keep.foldl (fun _ _ _ => ?_) ?_
    | with_reducible refine Keep.foldl_snd (fun _ _ _ => ?_) ?_
    | split

theorem State.mcastReply_keep {s : State} {n : ℕ} {tag : ℕ} {target : ℕ} {status : ℕ} {operand : ℕ} {addr : ℕ} (hk : Keep s0 s) :
    Keep s0 (State.mcastReply s n tag target status operand addr) := by
  unfold State.mcastReply
  repeat' first
    | with_reducible assumption
    | with_reducible refine State.fmcastCheck_keep ?_
    | with_reducible refine State.setMcast_keep ?_
    | with_reducible refine State.setFab_keep ?_
    | with_reducible refine State.fmcastDead_keep ?_
    | with_reducible refine Keep.foldl (fun _ _ _ => ?_) ?_
    | with_reducible refine Keep.foldl_snd (fun _ _ _ => ?_) ?_
    | split

theorem State.takeWrite_keep {s : State} {f : Frame} (hk : Keep s0 s) :
    Keep s0 (State.takeWrite s f) := by
  unfold State.takeWrite
  repeat' first
    | with_reducible assumption
    | with_reducible refine State.physWrite_keep ?_

theorem State.fmcastSend_keep {s : State} {n : ℕ} {tag : ℕ} {t : ℕ} {off : ℕ} {v : View} (hk : Keep s0 s) :
    Keep s0 (State.fmcastSend s n tag t off v) := by
  unfold State.fmcastSend
  repeat' first
    | with_reducible assumption
    | with_reducible refine State.mcastReply_keep ?_
    | with_reducible refine State.physWrite_keep ?_
    | with_reducible refine State.fmcastDead_keep ?_
    | with_reducible refine State.openTxn_keep ?_
    | with_reducible refine State.openTxn_keep_of (by assumption) ?_
    | with_reducible refine State.sendFrame_keep_of (by assumption) ?_
    | with_reducible refine State.closeTxn_keep ?_
    | with_reducible refine State.e2eRecord_keep ?_
    | with_reducible refine Keep.foldl (fun _ _ _ => ?_) ?_
    | with_reducible refine Keep.foldl_snd (fun _ _ _ => ?_) ?_
    | split
    | fail_if_no_progress ((with_reducible refine Keep.upd ?_ ?_); exact rfl)
    | dsimp only

theorem execAck_keep {s : State} (hk : Keep s0 s) :
    OKeep s0 (execAck s) := by
  unfold execAck
  repeat' first
    | with_reducible assumption
    | with_reducible refine State.takeOpc_keep_of (by assumption) ?_
    | with_reducible refine State.countFabStale_keep ?_
    | with_reducible refine State.closeTxn_keep ?_
    | with_reducible refine State.coreReply_keep ?_
    | with_reducible refine State.engReply_keep ?_
    | with_reducible refine State.mcastReply_keep ?_
    | with_reducible refine State.sampleFail_keep ?_
    | with_reducible refine OKeep.next ?_
    | with_reducible exact OKeep.fault
    | with_reducible exact OKeep.refused
    | with_reducible refine Keep.foldl (fun _ _ _ => ?_) ?_
    | with_reducible refine Keep.foldl_snd (fun _ _ _ => ?_) ?_
    | split

theorem execFabMcastDeadline_keep {n : ℕ} {tag : ℕ} {s : State} (hk : Keep s0 s) :
    OKeep s0 (execFabMcastDeadline n tag s) := by
  unfold execFabMcastDeadline
  repeat' first
    | with_reducible assumption
    | with_reducible refine State.settleFab_keep ?_
    | with_reducible refine OKeep.next ?_
    | with_reducible exact OKeep.fault
    | with_reducible exact OKeep.refused
    | with_reducible refine Keep.foldl (fun _ _ _ => ?_) ?_
    | with_reducible refine Keep.foldl_snd (fun _ _ _ => ?_) ?_
    | split

theorem execFabMcastResend_keep {n : ℕ} {tag : ℕ} {s : State} (hk : Keep s0 s) :
    OKeep s0 (execFabMcastResend n tag s) := by
  unfold execFabMcastResend
  repeat' first
    | with_reducible assumption
    | with_reducible refine State.engStep_keep ?_
    | with_reducible refine State.engStep_keep_wait (by assumption) ?_
    | with_reducible refine State.engStep_keep_fault (by assumption) ?_
    | with_reducible refine State.engStep_keep_lost (by assumption) ?_
    | with_reducible refine State.engStep_keep_done (by assumption) ?_
    | with_reducible refine State.meshFault_keep ?_
    | with_reducible refine State.settleFab_keep ?_
    | with_reducible refine State.fmcastSend_keep ?_
    | with_reducible refine State.setFab_keep ?_
    | with_reducible refine OKeep.next ?_
    | with_reducible exact OKeep.fault
    | with_reducible exact OKeep.refused
    | with_reducible refine Keep.foldl (fun _ _ _ => ?_) ?_
    | with_reducible refine Keep.foldl_snd (fun _ _ _ => ?_) ?_
    | split
    | dsimp only

theorem execFmcast_keep {n : ℕ} {tag : ℕ} {s : State} (hk : Keep s0 s) :
    OKeep s0 (execFmcast n tag s) := by
  unfold execFmcast
  repeat' first
    | with_reducible assumption
    | with_reducible refine State.engStep_keep ?_
    | with_reducible refine State.engStep_keep_wait (by assumption) ?_
    | with_reducible refine State.engStep_keep_fault (by assumption) ?_
    | with_reducible refine State.engStep_keep_lost (by assumption) ?_
    | with_reducible refine State.engStep_keep_done (by assumption) ?_
    | with_reducible refine State.meshFault_keep ?_
    | with_reducible refine State.settleFab_keep ?_
    | with_reducible refine State.startJob_keep ?_
    | with_reducible refine State.setMcast_keep ?_
    | with_reducible refine State.fmcastSend_keep ?_
    | with_reducible refine OKeep.next ?_
    | with_reducible exact OKeep.fault
    | with_reducible exact OKeep.refused
    | with_reducible refine Keep.foldl (fun _ _ _ => ?_) ?_
    | with_reducible refine Keep.foldl_snd (fun _ _ _ => ?_) ?_
    | split
    | dsimp only

theorem execMcast_keep {busy : Bool} {s : State} (hk : Keep s0 s) :
    OKeep s0 (execMcast busy s) := by
  unfold execMcast
  repeat' first
    | with_reducible assumption
    | with_reducible refine State.takeOpc_keep_of (by assumption) ?_
    | with_reducible refine State.replyTo_keep ?_
    | with_reducible refine State.takeWrite_keep ?_
    | with_reducible refine OKeep.next ?_
    | with_reducible exact OKeep.fault
    | with_reducible exact OKeep.refused
    | with_reducible refine Keep.foldl (fun _ _ _ => ?_) ?_
    | with_reducible refine Keep.foldl_snd (fun _ _ _ => ?_) ?_
    | split

theorem execReadReq_keep {s : State} (hk : Keep s0 s) :
    OKeep s0 (execReadReq s) := by
  unfold execReadReq
  repeat' first
    | with_reducible assumption
    | with_reducible refine State.takeOpc_keep_of (by assumption) ?_
    | with_reducible refine State.replyTo_keep ?_
    | with_reducible refine State.touchRange_keep ?_
    | with_reducible refine State.countFound_keep ?_
    | with_reducible refine OKeep.next ?_
    | with_reducible exact OKeep.fault
    | with_reducible exact OKeep.refused
    | with_reducible refine Keep.foldl (fun _ _ _ => ?_) ?_
    | with_reducible refine Keep.foldl_snd (fun _ _ _ => ?_) ?_
    | split
    | dsimp only

theorem execReadResp_keep {s : State} (hk : Keep s0 s) :
    OKeep s0 (execReadResp s) := by
  unfold execReadResp
  repeat' first
    | with_reducible assumption
    | with_reducible refine State.takeOpc_keep_of (by assumption) ?_
    | with_reducible refine State.countFabStale_keep ?_
    | with_reducible refine State.closeTxn_keep ?_
    | with_reducible refine State.coreReply_keep ?_
    | with_reducible refine State.engReply_keep ?_
    | with_reducible refine OKeep.next ?_
    | with_reducible exact OKeep.fault
    | with_reducible exact OKeep.refused
    | with_reducible refine Keep.foldl (fun _ _ _ => ?_) ?_
    | with_reducible refine Keep.foldl_snd (fun _ _ _ => ?_) ?_
    | split

theorem execSync_keep {s : State} (hk : Keep s0 s) :
    OKeep s0 (execSync s) := by
  unfold execSync
  repeat' first
    | with_reducible assumption
    | with_reducible refine State.takeOpc_keep_of (by assumption) ?_
    | with_reducible refine State.signalObj_keep ?_
    | with_reducible refine State.signalObj_keep_of (by assumption) ?_
    | with_reducible refine State.setFab_keep ?_
    | with_reducible refine State.replyTo_keep ?_
    | with_reducible refine OKeep.next ?_
    | with_reducible exact OKeep.fault
    | with_reducible exact OKeep.refused
    | with_reducible refine Keep.foldl (fun _ _ _ => ?_) ?_
    | with_reducible refine Keep.foldl_snd (fun _ _ _ => ?_) ?_
    | split

theorem execWrite_keep {s : State} (hk : Keep s0 s) :
    OKeep s0 (execWrite s) := by
  unfold execWrite
  repeat' first
    | with_reducible assumption
    | with_reducible refine State.takeOpc_keep_of (by assumption) ?_
    | with_reducible refine State.replyTo_keep ?_
    | with_reducible refine State.takeWrite_keep ?_
    | with_reducible refine OKeep.next ?_
    | with_reducible exact OKeep.fault
    | with_reducible exact OKeep.refused
    | with_reducible refine Keep.foldl (fun _ _ _ => ?_) ?_
    | with_reducible refine Keep.foldl_snd (fun _ _ _ => ?_) ?_
    | split

theorem execPlog_keep {c : ℕ} {b : Body} {s : State} (hk : Keep s0 s) :
    OKeep s0 (execPlog c b s) := by
  unfold execPlog
  repeat' first
    | with_reducible assumption
    | with_reducible refine issue_keep (fun _ => ?_) ?_
    | with_reducible refine State.retire_keep ?_
    | with_reducible refine State.writeS_keep ?_
    | with_reducible refine State.illegal_keep ?_
    | with_reducible refine OKeep.next ?_
    | with_reducible exact OKeep.fault
    | with_reducible exact OKeep.refused
    | with_reducible refine Keep.foldl (fun _ _ _ => ?_) ?_
    | with_reducible refine Keep.foldl_snd (fun _ _ _ => ?_) ?_
    | split
    | fail_if_no_progress ((with_reducible refine Keep.upd ?_ ?_); exact rfl)
    | dsimp only

theorem execTrowr_keep {c : ℕ} {b : Body} {s : State} (hk : Keep s0 s) :
    OKeep s0 (execTrowr c b s) := by
  unfold execTrowr
  repeat' first
    | with_reducible assumption
    | with_reducible refine issue_keep (fun _ => ?_) ?_
    | with_reducible refine State.shapeFault_keep ?_
    | with_reducible refine State.retire_keep ?_
    | with_reducible refine OKeep.next ?_
    | with_reducible exact OKeep.fault
    | with_reducible exact OKeep.refused
    | with_reducible refine Keep.foldl (fun _ _ _ => ?_) ?_
    | with_reducible refine Keep.foldl_snd (fun _ _ _ => ?_) ?_
    | split
    | fail_if_no_progress ((with_reducible refine Keep.upd ?_ ?_); exact rfl)
    | dsimp only

theorem execTroww_keep {c : ℕ} {b : Body} {s : State} (hk : Keep s0 s) :
    OKeep s0 (execTroww c b s) := by
  unfold execTroww
  repeat' first
    | with_reducible assumption
    | with_reducible refine issue_keep (fun _ => ?_) ?_
    | with_reducible refine State.shapeFault_keep ?_
    | with_reducible refine State.setCore_keep ?_
    | with_reducible refine State.retire_keep ?_
    | with_reducible refine State.livenTile_keep ?_
    | with_reducible refine OKeep.next ?_
    | with_reducible exact OKeep.fault
    | with_reducible exact OKeep.refused
    | with_reducible refine Keep.foldl (fun _ _ _ => ?_) ?_
    | with_reducible refine Keep.foldl_snd (fun _ _ _ => ?_) ?_
    | split
    | fail_if_no_progress ((with_reducible refine Keep.upd ?_ ?_); exact rfl)
    | dsimp only

theorem execVcmp_keep {c : ℕ} {b : Body} {s : State} (hk : Keep s0 s) :
    OKeep s0 (execVcmp c b s) := by
  unfold execVcmp
  repeat' first
    | with_reducible assumption
    | with_reducible refine issue_keep (fun _ => ?_) ?_
    | with_reducible refine State.illegal_keep ?_
    | with_reducible refine State.retire_keep ?_
    | with_reducible refine OKeep.next ?_
    | with_reducible exact OKeep.fault
    | with_reducible exact OKeep.refused
    | with_reducible refine Keep.foldl (fun _ _ _ => ?_) ?_
    | with_reducible refine Keep.foldl_snd (fun _ _ _ => ?_) ?_
    | split

theorem execVld_keep {c : ℕ} {b : Body} {s : State} (hk : Keep s0 s) :
    OKeep s0 (execVld c b s) := by
  unfold execVld
  repeat' first
    | with_reducible assumption
    | with_reducible refine issue_keep (fun _ => ?_) ?_
    | with_reducible refine State.misaligned_keep ?_
    | with_reducible refine State.vaLoad_keep (fun _ _ _ => ?_) ?_
    | with_reducible refine State.retire_keep ?_
    | with_reducible refine OKeep.next ?_
    | with_reducible exact OKeep.fault
    | with_reducible exact OKeep.refused
    | with_reducible refine Keep.foldl (fun _ _ _ => ?_) ?_
    | with_reducible refine Keep.foldl_snd (fun _ _ _ => ?_) ?_
    | split
    | fail_if_no_progress ((with_reducible refine Keep.upd ?_ ?_); exact rfl)
    | dsimp only

theorem execVldl_keep {c : ℕ} {b : Body} {s : State} (hk : Keep s0 s) :
    OKeep s0 (execVldl c b s) := by
  unfold execVldl
  repeat' first
    | with_reducible assumption
    | with_reducible refine issue_keep (fun _ => ?_) ?_
    | with_reducible refine State.misaligned_keep ?_
    | with_reducible refine State.localPoisonAt_keep ?_
    | with_reducible refine State.retire_keep ?_
    | with_reducible refine State.countLocal_keep ?_
    | with_reducible refine OKeep.next ?_
    | with_reducible exact OKeep.fault
    | with_reducible exact OKeep.refused
    | with_reducible refine Keep.foldl (fun _ _ _ => ?_) ?_
    | with_reducible refine Keep.foldl_snd (fun _ _ _ => ?_) ?_
    | split
    | fail_if_no_progress ((with_reducible refine Keep.upd ?_ ?_); exact rfl)
    | dsimp only

theorem execVop_keep {c : ℕ} {b : Body} {s : State} (hk : Keep s0 s) :
    OKeep s0 (execVop c b s) := by
  unfold execVop
  repeat' first
    | with_reducible assumption
    | with_reducible refine issue_keep (fun _ => ?_) ?_
    | with_reducible refine State.illegal_keep ?_
    | with_reducible refine State.retire_keep ?_
    | with_reducible refine OKeep.next ?_
    | with_reducible exact OKeep.fault
    | with_reducible exact OKeep.refused
    | with_reducible refine Keep.foldl (fun _ _ _ => ?_) ?_
    | with_reducible refine Keep.foldl_snd (fun _ _ _ => ?_) ?_
    | split
    | fail_if_no_progress ((with_reducible refine Keep.upd ?_ ?_); exact rfl)
    | dsimp only

theorem execVred_keep {c : ℕ} {b : Body} {s : State} (hk : Keep s0 s) :
    OKeep s0 (execVred c b s) := by
  unfold execVred
  repeat' first
    | with_reducible assumption
    | with_reducible refine issue_keep (fun _ => ?_) ?_
    | with_reducible refine State.illegal_keep ?_
    | with_reducible refine State.writeS_keep ?_
    | with_reducible refine OKeep.next ?_
    | with_reducible exact OKeep.fault
    | with_reducible exact OKeep.refused
    | with_reducible refine Keep.foldl (fun _ _ _ => ?_) ?_
    | with_reducible refine Keep.foldl_snd (fun _ _ _ => ?_) ?_
    | split

theorem execVst_keep {c : ℕ} {b : Body} {s : State} (hk : Keep s0 s) :
    OKeep s0 (execVst c b s) := by
  unfold execVst
  repeat' first
    | with_reducible assumption
    | with_reducible refine issue_keep (fun _ => ?_) ?_
    | with_reducible refine State.misaligned_keep ?_
    | with_reducible refine State.vaStore_keep ?_
    | with_reducible refine OKeep.next ?_
    | with_reducible exact OKeep.fault
    | with_reducible exact OKeep.refused
    | with_reducible refine Keep.foldl (fun _ _ _ => ?_) ?_
    | with_reducible refine Keep.foldl_snd (fun _ _ _ => ?_) ?_
    | split
    | fail_if_no_progress ((with_reducible refine Keep.upd ?_ ?_); exact rfl)
    | dsimp only

theorem execVstl_keep {c : ℕ} {b : Body} {s : State} (hk : Keep s0 s) :
    OKeep s0 (execVstl c b s) := by
  unfold execVstl
  repeat' first
    | with_reducible assumption
    | with_reducible refine issue_keep (fun _ => ?_) ?_
    | with_reducible refine State.misaligned_keep ?_
    | with_reducible refine State.localStore_keep ?_
    | with_reducible refine State.advance_keep ?_
    | with_reducible refine OKeep.next ?_
    | with_reducible exact OKeep.fault
    | with_reducible exact OKeep.refused
    | with_reducible refine Keep.foldl (fun _ _ _ => ?_) ?_
    | with_reducible refine Keep.foldl_snd (fun _ _ _ => ?_) ?_
    | split
    | fail_if_no_progress ((with_reducible refine Keep.upd ?_ ?_); exact rfl)
    | dsimp only

end Sys2Proof.Machine
end

