-- ==== Sys2Proof/Laws/Wire.lean ====
section
/-! SUPPORT. The lengths of frames on the wire, and the number of slots a command writes at its completion. -/

namespace Sys2Proof.Machine

open Sys2Proof

@[simp] theorem natLE_length (n v : Nat) : (natLE n v).length = n := by
  induction n generalizing v with
  | zero => rfl
  | succ n ih => simp [natLE, ih]

@[simp] theorem natBE_length (n v : Nat) : (natBE n v).length = n := by simp [natBE]

@[simp] theorem linkHeader_length (ltype flags lseq lack : Nat) (credit : List Nat) :
    (linkHeader ltype flags lseq lack credit).length = 16 := by
  simp [linkHeader, List.range_succ]

@[simp] theorem ExtHdr.bytes_length (e : ExtHdr) : e.bytes.length = 32 := by simp [ExtHdr.bytes]

@[simp] theorem Frame.header_length (f : Frame) : f.header.length = 32 := by simp [Frame.header]

/-- The bytes of a DATA frame from its transport header on are those whose blocks it consumes (R389, R398). -/
@[simp] theorem Frame.bytes_length (f : Frame) : f.bytes.length = f.size := by
  unfold Frame.bytes Frame.size
  cases f.ext <;> by_cases h : f.poison = 0 <;> simp [h, Frame.mapLen, Frame.len] <;> omega

@[simp] theorem helloBytes_length (node port : Nat) (leaf lane fec ack : Bool) (grant : List Nat) :
    (helloBytes node port leaf lane fec ack grant).length = 20 := by
  simp [helloBytes, List.range_succ]

/-- A frame on the wire has at least 64 bytes with its FCS (R389). -/
theorem WireFrame.bytes_length (w : WireFrame) : w.bytes.length = max 64 (18 + w.frame.bytes.length) := by
  simp [WireFrame.bytes, WireFrame.body]
  omega

/-- A command has made all its writes once it has made as many as it has slots (R526). -/
theorem State.finals_length (s : State) (n : Nat) (c : Cmd) : (s.finals n c).length = c.slots := by
  have slot : ∀ va bs, (slotAt va bs).length = b2n (va != 0) := fun va bs => by
    unfold slotAt b2n
    by_cases h : va = 0 <;> simp [h]
  unfold State.finals Cmd.slots
  cases c.job <;> simp only [slot, List.length_nil, ijResult]
  split <;> simp_all [b2n]

end Sys2Proof.Machine
end

