-- ==== Sys2Proof/WellFormed.lean ====
section
/-! DEFINITION. Which commands are well formed: every index names a unit, port, context, core, vector or register the device has.
Other commands have a meaning too (they change nothing, or are host errors); a claim may assume this predicate. -/

namespace Sys2Proof

/-- A core index (R11). -/
def coreOk (c : Nat) : Bool := decide (c < 576)
/-- A context number (R79). -/
def ctxOk (n : Nat) : Bool := decide (n < 8)
/-- A fabric port (R380). -/
def portOk (p : Nat) : Bool := decide (p < 24)
/-- A Press engine (R280). -/
def pressOk (p : Nat) : Bool := decide (p < 10)
/-- A Crossing, and one of its six ports (R354). -/
def crossingOk (x port : Nat) : Bool := decide (x < 36 ∧ port < 7)
/-- A management binding: I3C, SMBus or PCIe (R542). -/
def bindingOk (b : Nat) : Bool := decide (b < 3)

/-- Whether every index of a command is in range. -/
def Instr.wf : Instr → Bool
  | .nop c _ => coreOk c
  | .endWork c _ => coreOk c
  | .alu c _ => coreOk c
  | .alui c _ => coreOk c
  | .movi c _ => coreOk c
  | .movhi c _ => coreOk c
  | .rdsys c _ => coreOk c
  | .br c _ => coreOk c
  | .brp c _ => coreOk c
  | .jal c _ => coreOk c
  | .jalr c _ => coreOk c
  | .ldl c _ => coreOk c
  | .stl c _ => coreOk c
  | .ld c _ => coreOk c
  | .st c _ => coreOk c
  | .vop c _ => coreOk c
  | .vcmp c _ => coreOk c
  | .vred c _ => coreOk c
  | .plog c _ => coreOk c
  | .vld c _ => coreOk c
  | .vst c _ => coreOk c
  | .vldl c _ => coreOk c
  | .vstl c _ => coreOk c
  | .vlds c _ => coreOk c
  | .trowr c _ => coreOk c
  | .troww c _ => coreOk c
  | .tld c _ => coreOk c
  | .tst c _ => coreOk c
  | .tlds c _ => coreOk c
  | .trel c _ => coreOk c
  | .mma c _ => coreOk c
  | .drain c _ => coreOk c
  | .dcfg c _ => coreOk c
  | .sdecl c _ => coreOk c
  | .sfence c _ => coreOk c
  | .sig c _ => coreOk c
  | .wait c _ => coreOk c
  | .spoll c _ => coreOk c
  | .mfence c _ => coreOk c
  | .tileQueueDispatch c => coreOk c
  | .groupStart c => coreOk c
  | .mmaComplete c => coreOk c
  | .drainComplete c => coreOk c
  | .lineFillArrival c _ => coreOk c
  | .runaheadFetchIssue c n => coreOk c && decide (n < 8)
  | .bankGate c b => coreOk c && decide (b < 4)
  | .bankWakeDone c b => coreOk c && decide (b < 4)
  | .parityError c _ => coreOk c
  | .coreStop c => coreOk c
  | .coreResume c => coreOk c
  | .wakeFlitArrival b => decide (b < 36)
  | .waitDeadline c => coreOk c
  | .coreWatchdog c => coreOk c
  | .doorbellPoll n => ctxOk n
  | .commandDispatch n => ctxOk n
  | .compute n _ => ctxOk n
  | .fillTimeout n _ => ctxOk n
  | .dma n _ => ctxOk n
  | .dmaUnitComplete n _ _ => ctxOk n
  | .flush n _ => ctxOk n
  | .xlateInv n _ => ctxOk n
  | .press n _ => ctxOk n
  | .pressUnitHandout p => pressOk p
  | .pressSpanComplete p => pressOk p
  | .pressParityRestart p => pressOk p.engine
  | .gate n _ => ctxOk n
  | .gateStart n _ => ctxOk n
  | .gateResolve n _ => ctxOk n
  | .gateTimeout n _ => ctxOk n
  | .ingest n _ => ctxOk n
  | .sampleStart share => decide (share < 2)
  | .sampleComplete n _ _ _ => ctxOk n
  | .freeTake n _ => ctxOk n
  | .mreduce n _ _ => ctxOk n
  | .mmcast n _ _ => ctxOk n
  | .gather n _ _ => ctxOk n
  | .scatter n _ _ => ctxOk n
  | .coll n _ => ctxOk n
  | .fmcast n _ => ctxOk n
  | .syncInit n _ => ctxOk n
  | .syncInitHoldEnd n _ => ctxOk n
  | .syncRetire n _ => ctxOk n
  | .syncSignal n _ => ctxOk n
  | .syncWait n _ => ctxOk n
  | .syncDump n _ => ctxOk n
  | .commandComplete n _ => ctxOk n
  | .completionRecordWrite n => ctxOk n
  | .progressWrite n _ => ctxOk n
  | .ctxEnable n => ctxOk n
  | .ctxDisable n => ctxOk n
  | .ctxPreempt n => ctxOk n
  | .ctxResume n => ctxOk n
  | .ctxReset n => ctxOk n
  | .ctxPtRootWrite n _ => ctxOk n
  | .dbgHalt c => coreOk c
  | .dbgResume c => coreOk c
  | .blockReset b => decide (b < 36)
  | .squareSplitApply _ => true
  | .squareSplitComplete => true
  | .squareBankRequest half bank _ _ _ => decide (half < 2) && decide (bank < 128)
  | .cacheFillComplete half _ _ => decide (half < 2)
  | .memoryLineAccess _ _ _ _ _ _ => true
  | .patrolScrubRead half kind _ => decide (half < 2) && decide (kind < 3)
  | .hbmTempSample stack _ => decide (stack < 8)
  | .hbmRefresh stack => decide (stack < 8)
  | .lpddrRefreshRateRead i _ => decide (i < 2)
  | .wckTracking i _ => decide (i < 2)
  | .meshFlitArrival x port _ => crossingOk x port
  | .meshCrcReplay x port _ => (crossingOk x port || decide (x < 38 ∧ port = 5))
  | .reductionPacketArrival x port => crossingOk x port
  | .reductionHoldTimeout x => crossingOk x 0
  | .meshMcastResend n _ => ctxOk n
  | .meshMcastDeadline n _ => ctxOk n
  | .fabricEnable => true
  | .fabricDisable => true
  | .sealApply => true
  | .sealComplete => true
  | .routeDataWrite _ => true
  | .failClear _ => true
  | .helloTimer p => portOk p
  | .hello p _ _ _ _ _ _ _ => portOk p
  | .dataFrameReceive p _ _ _ _ _ => portOk p
  | .control p _ _ => portOk p
  | .replayReq p _ _ => portOk p
  | .fenced p => portOk p
  | .frameTransmit p vc cls => portOk p && decide (vc < 4 ∧ cls < 2)
  | .lackReportTimer p => portOk p
  | .replayTimeout p => portOk p
  | .linkIdleTimer p => portOk p
  | .rxSilenceTimeout p => portOk p
  | .write => true
  | .readReq => true
  | .readResp => true
  | .ack => true
  | .sync => true
  | .mcast _ => true
  | .collFrame => true
  | .heartbeat => true
  | .collAbort => true
  | .gateContrib => true
  | .gateResult => true
  | .rsData => true
  | .rsDone => true
  | .fail => true
  | .e2eTimeout _ => true
  | .heartbeatTimer n _ => ctxOk n
  | .collSilenceTimeout n _ => ctxOk n
  | .fabMcastResend n _ => ctxOk n
  | .fabMcastDeadline n _ => ctxOk n
  | .fencedTimer p => portOk p
  | .deviceReset => true
  | .powerOn => true
  | .perstNAssert _ => true
  | .perstNDeassert _ => true
  | .pwrokRise _ _ => true
  | .pwrokFall => true
  | .pcieHotReset => true
  | .pcieLinkDown => true
  | .railOutOfRange => true
  | .pllLossOfLock => true
  | .memoryTrainingComplete _ _ => true
  | .go => true
  | .verify => true
  | .fwInitComplete _ _ => true
  | .fwTimeout => true
  | .bootReset _ => true
  | .advance => true
  | .advanceFuseBlown => true
  | .fatalError source _ _ _ => decide (1 ≤ source ∧ source ≤ 0x0B)
  | .pmDump _ => true
  | .errSelClear _ => true
  | .errThresholdWindow => true
  | .powerControlTick _ _ _ => true
  | .thermalControlTick half _ _ => decide (half < 2)
  | .fastClamp => true
  | .fastClampRelease => true
  | .thermalTrip => true
  | .clkLimitWrite _ => true
  | .pmuClear _ => true
  | .pmuCountWrite c _ => decide (c < 16)
  | .counterTick u _ => decide (u < 63)
  | .tagRecord index _ _ _ => decide (index < 600)
  | .tapeSnapshot => true
  | .timestampRead part => decide (part < 3)
  | .bar2Access x len _ => decide (x + len ≤ 0x20000000)
  | .registerWrite bar off size _ => decide ((bar = 0 ∨ bar = 4) ∧ off < 0x10000 ∧ (size = 4 ∨ size = 8) ∧ off % size = 0)
  | .setEndpointId b _ => bindingOk b
  | .entdaa _ => true
  | .setdasa _ _ => true
  | .rstdaa => true
  | .enec _ => true
  | .disec _ => true
  | .getpid => true
  | .getbcr => true
  | .getdcr => true
  | .getstatus => true
  | .getmrl => true
  | .setmrl _ => true
  | .getmwl => true
  | .setmwl _ => true
  | .getVersion b => bindingOk b
  | .getCapabilities b => bindingOk b
  | .negotiateAlgorithms b _ => bindingOk b
  | .getDigests b => bindingOk b
  | .getCertificate b _ _ _ => bindingOk b
  | .setCertificate b _ _ _ => bindingOk b
  | .challenge b _ _ => bindingOk b
  | .getMeasurements b _ _ _ => bindingOk b
  | .keyExchange b _ => bindingOk b
  | .finish b _ _ => bindingOk b
  | .keyUpdate b _ => bindingOk b
  | .endSession b _ => bindingOk b
  | .revocationOrder b _ => bindingOk b
  | .getTid b => bindingOk b
  | .setTid b _ => bindingOk b
  | .getPldmVersion b _ => bindingOk b
  | .getPldmTypes b => bindingOk b
  | .getPldmCommands b _ => bindingOk b
  | .getPdrRepositoryInfo b => bindingOk b
  | .getPdr b _ => bindingOk b
  | .getSensorReading b _ => bindingOk b
  | .getStateSensorReadings b _ => bindingOk b
  | .getNumericEffecterValue b _ => bindingOk b
  | .setNumericEffecterValue b _ _ => bindingOk b
  | .getStateEffecterStates b _ => bindingOk b
  | .setStateEffecterStates b _ _ => bindingOk b
  | .setEventReceiver b _ => bindingOk b
  | .sensorSample _ _ => true
  | .stateEventTimer _ => true
  | .extest _ _ => true
  | .samplePreload _ _ => true
  | .extestPulse _ _ => true
  | .extestTrain _ _ => true
  | .syncWaitTimeLimit n _ => ctxOk n
  | .readServiceDeadline _ => true
  | .lpddrRefresh i => decide (i < 2)
  | .zqCalibration i _ => decide (i < 2)
  | .sramInitComplete _ => true
  | .pcieConfigRequest _ => true
  | .msixVectorUnmask v => decide (v < 2048)
  | .portCtrlWrite p _ => portOk p
  | .portTrainingComplete p => portOk p
  | .pcieCompletionTimeout _ => true
  | .tapReset => true
  | .idcode => true
  | .clamp => true
  | .highz => true
  | .bypass => true
  | .railInRange => true
  | .pcieLinkUp => true

end Sys2Proof
end

