-- ==== Sys2Proof/Tests/Slice0.lean ====
section
/-! SUPPORT. The author's tests: the smoke tests of WellFormed, a witness for the hypotheses of each statement, clause by clause, and a
few steps whose results are the spec's. -/

set_option Elab.async false

namespace Sys2Proof.Tests

open Sys2Proof Sys2Proof.Machine

/-! ## Small states -/

/-- Whether a step answered a next state. -/
def done (o : Host.Outcome State Fault Refusal) : Bool := match o with | .next _ => true | _ => false

theorem next_of_done {o : Host.Outcome State Fault Refusal} (h : done o = true) : ∃ t, o = .next t := by
  cases o with
  | next t => exact ⟨t, rfl⟩
  | _ => cases h

/-- Page tables of three pages of 1 GiB: virtual 0 upward is HBM3E, 1 GiB upward is host bus address 0, 2 GiB upward is offset 0 of
node 1; each may be read and written (R80). -/
def tables : Memory :=
  [(0x100000, 0x03), (0x100002, 0x40), (0x100003, 0x10), (0x104000, 0x0D), (0x104008, 0x0D), (0x10400F, 0x40), (0x104010, 0x0D),
   (0x104016, 0x02), (0x104017, 0x80)]

/-- READY, context 0 enabled and running with its rings at 0x10000, its doorbell page at 0x20000, its progress area at 0x30000 and the
page tables above. -/
def ready : State :=
  let s := { State.reset with dev := tables, now := 1000000 }
  ((((((s.setReg 0x84 5).setReg 0x100 0x10000).setReg 0x10C 0x11).setReg 0x110 0x20000).setReg 0x118 0x30000).setReg 0x480 0x100001)

/-- As `ready`, with core 0 as given. -/
def withCore (k : Core) : State := ready.setCore 0 k

/-- A core that runs. -/
def runs : Core := { run := .running, lastDone := 1000000 }

/-- READY with core 0 running. -/
def base : State := withCore runs

/-- A descriptor's eight words from OP and the bodies B0 to B3. -/
def words (op b0 b1 b2 b3 : Nat) : List W64 :=
  [BitVec.ofNat 64 op, 0, 0, 0, BitVec.ofNat 64 b0, BitVec.ofNat 64 b1, BitVec.ofNat 64 b2, BitVec.ofNat 64 b3]

/-- READY, context 0 holding one command. -/
def withCmd (c : Cmd) : State := { ready with ctxs := [(0, { cmds := [c] })] }

/-! ## Witnesses: the queue, reset, invariants -/

theorem witness_StepRunsFrontCommand : { State.reset with pending := [.fabricEnable] }.pending = .fabricEnable :: [] := rfl

theorem witness_IdleStepCountsOneNanosecond :
    State.reset.pending = [] ∧ State.reset.err.units = [] ∧ State.reset.err.hostReads = [] := by decide +kernel

theorem witness_StepKeepsStoresCanonical :
    { base with pending := [.stl 0 0] }.canonical ∧ ∃ t, step { base with pending := [.stl 0 0] } = .next t :=
  ⟨by decide +kernel, next_of_done (by decide +kernel)⟩

/-- A device whose ADVANCE is in progress toward version 1. -/
def advancing : State :=
  { ready.setFlag 0x84 16 true with plat := { ready.plat with boot := { ready.plat.boot with svn := 1, advTarget := 1 } } }

theorem witness_StepNeverUnblowsAFuse :
    ∃ t, step { advancing with pending := [.advanceFuseBlown] } = .next t := next_of_done (by decide +kernel)

theorem witness_OnlyAdvanceRaisesMinVersion :
    Instr.fabricEnable ≠ .advanceFuseBlown ∧ ∃ t, exec .fabricEnable ready = .next t :=
  ⟨by decide, next_of_done (by decide +kernel)⟩

theorem witness_CommandsLeaveTheQueueAlone :
    ∃ t, exec .fabricEnable { ready with pending := [.fabricEnable] } = .next t := next_of_done (by decide +kernel)

/-! ## Witnesses: scalar instructions -/

theorem witness_DivisionNeverFaults :
    (base.issues 0 (0x18#56 <<< 35) 0x04 0x7FFFFFFFF ∧ 0x18 ≤ fnSreg (wordOf 0x04 (0x18#56 <<< 35))) ∧
    (base.issues 0 (0x1B#56 <<< 35) 0x04 0x7FFFFFFFF ∧ fnSreg (wordOf 0x04 (0x1B#56 <<< 35)) ≤ 0x1B) ∧
    ((BitVec.intMin 64).toInt = -2 ^ 63 ∧ (-1 : W64).toInt = -1) ∧ ((7 : W64) ≠ 0 ∧ ¬((7 : W64).toInt = -2 ^ 63 ∧ (7 : W64).toInt = -1)) := by
  decide +kernel

theorem witness_MoviMovhiBuildAnyConstant :
    (base.issues 0 0 0x06 0 ∧ fnSimm (wordOf 0x06 0) = 0) ∧
    (base.issues 0 0xFFFFFF 0x07 0xFFFF000000 ∧ fnSimm (wordOf 0x07 0xFFFFFF) = 0) ∧
    (fnSimm (wordOf 0x06 (1 <<< 40)) ≠ 0 ∧ base.issues 0 (1 <<< 40) 0x06 0 ∧ base.issues 0 (1 <<< 40) 0x07 0xFFFF000000) ∧
    (base.canIssue 0 0x07 (wordOf 0x07 0x1000000) = true ∧ base.isPoisoned (csAddr 0 (base.core 0).pc) = false ∧
      (0x1000000 : Body).toNat &&& 0xFFFF000000 ≠ 0) ∧
    (base.issues 0 (1 <<< 51) 0x06 0 ∧ base.issues 0 ((1 <<< 51) ||| (1 <<< 46)) 0x07 0xFFFF000000 ∧
      fD (wordOf 0x07 ((1 <<< 51) ||| (1 <<< 46))) = 1 ∧ fA (wordOf 0x07 ((1 <<< 51) ||| (1 <<< 46))) = 1) := by
  decide +kernel

theorem witness_ScalarInstructionsWriteOnlySd :
    base.issues 0 0 0x01 0xFFFFFFFFFFFFFF ∧
    (base.issues 0 (0x12#56 <<< 35) 0x04 0x7FFFFFFFF ∧ aluFn (fnSreg (wordOf 0x04 (0x12#56 <<< 35))) 0 0 = some 0) ∧
    (base.issues 0 (0x10#56 <<< 40) 0x05 0 ∧ fnSimm (wordOf 0x05 (0x10#56 <<< 40)) = 0x10 ∧
      aluFn (fnSimm (wordOf 0x05 (0x10#56 <<< 40))) 0 ((BitVec.ofNat 40 (0x10#56 <<< 40).toNat).signExtend 64) = some 0) ∧
    (∀ fn < 5, base.issues 0 (BitVec.ofNat 56 fn <<< 35) 0x08 0x7FFFFFFFF ∧ fnSreg (wordOf 0x08 (BitVec.ofNat 56 fn <<< 35)) = fn) ∧
    (base.core 0).hasDrain = false := by decide +kernel

theorem witness_BranchesReachTheirTargets :
    (∀ cond ≤ 5, base.issues 0 (BitVec.ofNat 56 cond <<< 52) 0x10 0x3FFF00000 ∧ brCond (BitVec.ofNat 56 cond <<< 52).toNat = cond) ∧
    (∀ cond ≤ 3, base.issues 0 (BitVec.ofNat 56 cond <<< 52) 0x11 0x3FFF00000 ∧ brCond (BitVec.ofNat 56 cond <<< 52).toNat = cond) ∧
    base.issues 0 0 0x12 0x3FFF00000 ∧
    (base.issues 0 0 0x13 0x3FFF00000 ∧ ((0 : Nat) : Int) = ((runs.sreg 0).toInt + 8 * 0) % 0x100000 ∧ 0 % 8 = 0) ∧
    ((withCore (runs.setS 1 4)).issues 0 (1 <<< 47) 0x13 0x3FFF00000 ∧ brA (1#56 <<< 47).toNat = 1 ∧
      ((4 : Nat) : Int) = (((runs.setS 1 4).sreg 1).toInt + 8 * 0) % 0x100000 ∧ 4 % 8 ≠ 0) := by decide +kernel

theorem witness_ReservedCodesTakeTheInstructionFault :
    (base.issues 0 (0x0E#56 <<< 35) 0x04 0x7FFFFFFFF ∧ fnSreg (0x0E#56 <<< 35).toNat = 0x0E) ∧
    (base.issues 0 (1#56 <<< 40) 0x05 0 ∧ fnSimm (1#56 <<< 40).toNat = 1) ∧
    (base.issues 0 (5#56 <<< 35) 0x08 0x7FFFFFFFF ∧ 5 ≤ fnSreg (5#56 <<< 35).toNat) ∧
    (base.issues 0 (6#56 <<< 52) 0x10 0x3FFF00000 ∧ 6 ≤ brCond (6#56 <<< 52).toNat) ∧
    (base.issues 0 (4#56 <<< 52) 0x11 0x3FFF00000 ∧ 4 ≤ brCond (4#56 <<< 52).toNat) ∧
    (base.issues 0 (1#56 <<< 52) 0x12 0x3FFF00000 ∧ base.issues 0 (1#56 <<< 52) 0x13 0x3FFF00000 ∧ brCond (1#56 <<< 52).toNat ≠ 0) ∧
    (base.issues 0 (0x0E#56 <<< 27) 0x20 0x3FFFFFF ∧ vrFn (0x0E#56 <<< 27).toNat = 0x0E) ∧
    (base.issues 0 (6#56 <<< 27) 0x21 0xC0000003FFFFFF ∧ vrFn (6#56 <<< 27).toNat = 6) ∧
    (base.issues 0 (4#56 <<< 27) 0x22 0x3FFFFFF ∧ 4 ≤ vrFn (4#56 <<< 27).toNat) ∧
    (base.issues 0 (6#56 <<< 50) 0x59 0xFFFFFFFFF ∧ bitsOf (6#56 <<< 50).toNat 50 6 = 6) ∧
    (base.issues 0 (2#56 <<< 38) 0x59 0xFFFFFFFFF ∧ 2 ≤ bitsOf (2#56 <<< 38).toNat 38 2) ∧
    (base.issues 0 (3#56 <<< 34) 0x70 0x3FFFFFFFF ∧ base.issues 0 (3#56 <<< 34) 0x71 0x3FFFFFFFF ∧ syMode (3#56 <<< 34).toNat = 3) ∧
    (base.issues 0 (1#56 <<< 34) 0x72 0x3FFFFFFFF ∧ syMode (1#56 <<< 34).toNat ≠ 0) ∧
    (base.issues 0 (1#56 <<< 52) 0x12 0x3FFF00000 ∧ base.groupsOf 0 = [] ∧ base.ctxState 0 ≠ 3 ∧ wrapSub 0 0 < 2 ^ base.evtLog 0 ∧
      base.evtBase 0 + 32 ≤ base.doorbell 0 + 0x808) := by and_intros <;> decide +kernel

/-! ## Witnesses: vectors and predicates -/

theorem witness_VectorInstructionsWriteEnabledLanes :
    (base.issues 0 0 0x20 0x3FFFFFF ∧ runs.biasHolds 0 = false ∧ ∀ i < 64, laneFn 0 0 0 0 true i = some 0) ∧
    (base.issues 0 0 0x21 0xC0000003FFFFFF ∧ ∀ i < 64, cmpFn 0 (runs.vlane 0 i) (runs.vlane 0 i) = some true) ∧
    (∀ fn < 4, base.issues 0 (BitVec.ofNat 56 fn <<< 27) 0x22 0x3FFFFFF ∧ vrFn (BitVec.ofNat 56 fn <<< 27).toNat = fn) := by
  decide +kernel

theorem witness_PredicateLogicFollowsItsTable :
    (∀ fn < 64, base.canIssue 0 0x23 (wordOf 0x23 (BitVec.ofNat 56 fn <<< 27)) = true ∧ vrFn (BitVec.ofNat 56 fn <<< 27).toNat = fn ∧
      bitsOf (BitVec.ofNat 56 fn <<< 27).toNat 0 26 = 0 ∧ bitsOf (BitVec.ofNat 56 fn <<< 27).toNat 44 2 = 0) ∧
    base.isPoisoned (csAddr 0 0) = false ∧
    (base.canIssue 0 0x23 (wordOf 0x23 (1 <<< 44)) = true ∧ bitsOf (1#56 <<< 44).toNat 44 2 ≠ 0) := by decide +kernel

/-! ## Witnesses: loads and stores -/

/-- A core with s1 as given. -/
def at1 (x : W64) : Core := runs.setS 1 x

/-- SMEM and VMEM words with SA 1: SIZE 8, SIZE 1 with SX, and the plain vector form. -/
def mem8 : Body := (3 <<< 44) ||| (1 <<< 46)
def mem1x : Body := (1 <<< 43) ||| (1 <<< 46)
def memV : Body := 1 <<< 46

/-- The word at the last 8 bytes of the line at offset 0x100 of core 0's store is poisoned. -/
def poisoned1 (k : Core) : State := { withCore k with poison := [((coreStoreBase + 0x100 + 248) / 8, true)] }

theorem witness_LocalAccessesUseTheCoreStore_loads :
    (let s := withCore (at1 0xFFFF8); s.issues 0 mem8 0x18 0x7FF00000000 ∧ (s.core 0).holdsLocal 0xFFFF8 8 = false ∧
      s.isPoisoned (coreStoreBase + 0xFFFF8) = false ∧ (0 : W64).toNat = Memory.readLE s.dev (coreStoreBase + 0xFFFF8) 8) ∧
    (let s := withCore (at1 0xFFFFF); s.issues 0 mem1x 0x18 0x7FF00000000 ∧ bitOf mem1x.toNat 43 = true ∧
      (0 : W64).toInt = (BitVec.ofNat 8 (Memory.readLE s.dev (coreStoreBase + 0xFFFFF) 1)).toInt) ∧
    (let s := poisoned1 (at1 (0x100 + 248)); s.issues 0 mem8 0x18 0x7FF00000000 ∧ s.isPoisoned (coreStoreBase + 0x100 + 248) = true) ∧
    (let s := withCore (at1 1); s.issues 0 mem8 0x18 0x7FF00000000 ∧ 1 % 8 ≠ 0) ∧
    (let s := withCore (at1 0xFFF00); s.issues 0 memV 0x2A 0xFF00000000 ∧ (s.core 0).biasHolds 0 = false ∧
      ∀ i < 32, s.isPoisoned (coreStoreBase + 0xFFF00 + 8 * i) = false) ∧
    (let s := poisoned1 (at1 0x100); s.issues 0 memV 0x2A 0xFF00000000 ∧ s.isPoisoned (coreStoreBase + 0x100 + 8 * 31) = true ∧
      ((s.core 0).preg (vmPg memV.toNat)).getLsbD (2 * 31) = true ∧ ∀ j < 31, s.isPoisoned (coreStoreBase + 0x100 + 8 * j) = false) ∧
    (let s := withCore (at1 4); s.issues 0 memV 0x2A 0xFF00000000 ∧ 4 % 256 ≠ 0) := by and_intros <;> decide +kernel

theorem witness_LocalAccessesUseTheCoreStore_stores :
    (let s := withCore (at1 0xFFFF8); s.issues 0 mem8 0x19 0x7FF00000000 ∧ (s.core 0).holdsLocal 0xFFFF8 8 = false) ∧
    (withCore (at1 4)).issues 0 mem8 0x19 0x7FF00000000 ∧
    (let s := withCore (at1 0xFFF00); s.issues 0 memV 0x2B 0xFF00000000 ∧ (s.core 0).holdsLocal 0xFFF00 256 = false) ∧
    (withCore (at1 4)).issues 0 memV 0x2B 0xFF00000000 := by and_intros <;> decide +kernel

/-- As `withCore`, with node 1 behind port 0, which is up. -/
def linked (s : State) : State := { s with fab := { s.fab with ports := [(0, { phase := .up })], route := [(1, 0x20)] } }

theorem witness_VirtualAccessesUseTranslatedMemory_loads :
    (let s := withCore (at1 0x3FFFFFF8); s.issues 0 mem8 0x1A 0x7FF00000000 ∧ s.lostFree ∧ (s.core 0).lines = [] ∧
      s.xlateRange 0 0x3FFFFFF8 8 false = .ok [(0x3FFFFFF8, 0x3FFFFFF8, 8)] ∧ s.isRemote 0x3FFFFFF8 = false ∧
      s.hostCheck 0 [(0x3FFFFFF8, 0x3FFFFFF8, 8)] = none ∧ s.holdsWord 0 [(0x3FFFFFF8, 8)] = false ∧
      (∀ i < 8, s.cleanAt (0x3FFFFFF8 + i) = true) ∧ (0 : W64).toNat = leNat (s.bytesAt [(0x3FFFFFF8, 0x3FFFFFF8, 8)])) ∧
    (let s := withCore (at1 0xC0000000); s.issues 0 mem8 0x1A 0x7FF00000000 ∧
      s.xlateRange 0 0xC0000000 8 false = .error { cause := 2, level := 1, va := 0xC0000000 }) ∧
    (let s := { withCore (at1 0x40000000) with hostBad := [(0, true)] }; s.issues 0 mem8 0x1A 0x7FF00000000 ∧
      s.xlateRange 0 0x40000000 8 false = .ok [(0x40000000, 2 ^ 54, 8)] ∧
      s.hostCheck 0 [(0x40000000, 2 ^ 54, 8)] = some (s.hostFault 0 0x40000000, 0)) ∧
    (let s := linked (withCore (at1 0x80000000)); s.issues 0 mem8 0x1A 0x7FF00000000 ∧ (s.core 0).lines = [] ∧
      s.xlateRange 0 0x80000000 8 false = .ok [(0x80000000, 2 ^ 55 + 2 ^ 41, 8)] ∧ s.space (2 ^ 55 + 2 ^ 41) = .remote 1 0 ∧
      s.holdsWord 0 [(2 ^ 55 + 2 ^ 41, 8)] = false ∧ s.nodeFailed 1 = false ∧ (s.route 2 s.node 1).isSome = true) ∧
    (let s := withCore (at1 0x40000000); s.issues 0 memV 0x28 0xFF00000000 ∧ (s.core 0).biasHolds 0 = false ∧ s.lostFree ∧ (s.core 0).lines = [] ∧
      s.xlateRange 0 0x40000000 256 false = .ok [(0x40000000, 2 ^ 54, 256)] ∧ s.hostCheck 0 [(0x40000000, 2 ^ 54, 256)] = none ∧
      ∀ i < 64, s.cleanAt (2 ^ 54 + 4 * i) = true) ∧
    (withCore (at1 4)).issues 0 memV 0x28 0xFF00000000 ∧
    (let s := withCore (at1 0xC0000000); s.issues 0 memV 0x28 0xFF00000000 ∧ (s.core 0).biasHolds 0 = false ∧
      s.xlateRange 0 0xC0000000 256 false = .error { cause := 2, level := 1, va := 0xC0000000 }) := by and_intros <;> decide +kernel

theorem witness_VirtualAccessesUseTranslatedMemory_stores :
    (let s := withCore (at1 0x3FFFFFF8); s.issues 0 mem8 0x1B 0x7FF00000000 ∧ s.lostFree ∧
      s.xlateRange 0 0x3FFFFFF8 8 true = .ok [(0x3FFFFFF8, 0x3FFFFFF8, 8)] ∧ s.isRemote 0x3FFFFFF8 = false ∧
      s.holdsWord 0 [(0x3FFFFFF8, 8)] = false) ∧
    (let s := withCore (at1 0xC0000000); s.issues 0 mem8 0x1B 0x7FF00000000 ∧
      s.xlateRange 0 0xC0000000 8 true = .error { cause := 2, level := 1, va := 0xC0000000 }) ∧
    (let s := withCore (at1 0x3FFFFF00); s.issues 0 memV 0x29 0xFF00000000 ∧ s.lostFree ∧
      s.xlateRange 0 0x3FFFFF00 256 true = .ok [(0x3FFFFF00, 0x3FFFFF00, 256)] ∧ s.space 0x3FFFFF00 = .loc 0x3FFFFF00 ∧
      s.holdsWord 0 [(0x3FFFFF00, 256)] = false) ∧
    (let s := withCore (at1 0x40000000); s.issues 0 memV 0x29 0xFF00000000 ∧ s.lostFree ∧
      s.xlateRange 0 0x40000000 256 true = .ok [(0x40000000, 2 ^ 54, 256)] ∧ s.space (2 ^ 54) = .host 0 ∧
      s.holdsWord 0 [(2 ^ 54, 256)] = false) ∧
    (withCore (at1 4)).issues 0 memV 0x29 0xFF00000000 ∧
    (let s := withCore (at1 0xC0000000); s.issues 0 memV 0x29 0xFF00000000 ∧
      s.xlateRange 0 0xC0000000 256 true = .error { cause := 2, level := 1, va := 0xC0000000 }) := by and_intros <;> decide +kernel

/-! ## Witnesses: row moves, streams, tile instructions -/

/-- VROW: T 15, ROW 63, the quarter given, FP32 (1) or FP4 (7). -/
def rowWord (qtr fmt : Nat) : Body := BitVec.ofNat 56 (15 * 2 ^ 47 + 63 * 2 ^ 41 + qtr * 2 ^ 39 + fmt * 2 ^ 35)

theorem witness_RowMovesConvertOneQuarterRow :
    (vwFmt (rowWord 3 7).toNat < 12 ∧ 64 * vwQtr (rowWord 3 7).toNat < rowCapacity (vwFmt (rowWord 3 7).toNat)) ∧
    (base.issues 0 (rowWord 3 7) 0x2D 0xFFFFFFFF ∧ queueUses 0 15 {} runs.queue = false ∧ runs.biasHolds 0 = false) ∧
    ((withCore { runs with power := [(3, .awake)] }).issues 0 (rowWord 3 7) 0x2E 0xFFFFFFFF ∧
      ({ runs with power := [(3, .awake)] } : Core).bank (vwT (rowWord 3 7).toNat / 4) = .awake) ∧
    (base.issues 0 (rowWord 3 7) 0x2E 0xFFFFFFFF ∧ runs.bank (vwT (rowWord 3 7).toNat / 4) = .gated) := by
  and_intros <;> decide +kernel

/-- READY with core 0 running and a stream descriptor at offset 0x20 of its store. -/
def described (lo stride items runsN depth : Nat) : State :=
  base.devWrite (coreStoreBase + 0x20) (natLE 8 lo ++ natLE 8 stride ++ natLE 4 items ++ natLE 4 runsN ++ natLE 8 depth)

/-- SDECL of stream 7 from offset 0x20. -/
def sdeclWord : Body := BitVec.ofNat 56 (7 * 2 ^ 53 + 0x20)

/-- A stream of one 256-byte item at virtual address 0x1000. -/
def oneItem : Stream := { declared := true, base := 0x1000, runItems := 1, runs := 1, item256 := true }

theorem witness_StreamInstructionsDeclareFenceAndUse :
    (let s := described 0x1000 0x2000 1 1 0x18040; let a := coreStoreBase + 0x20;
      s.issues 0 sdeclWord 0x60 0xFFFFFFFF00000 ∧ stOff sdeclWord.toNat % 32 = 0 ∧ (∀ i < 4, s.isPoisoned (a + 8 * i) = false) ∧
      (s.core 0).holdsLocal 0x20 32 = false ∧ Memory.readLE s.dev a 8 % 256 = 0 ∧ Memory.readLE s.dev (a + 8) 8 % 256 = 0 ∧
      0 < Memory.readLE s.dev (a + 16) 4 ∧ 0 < Memory.readLE s.dev (a + 20) 4 ∧ Memory.readLE s.dev (a + 24) 1 = 64 ∧
      Memory.readLE s.dev (a + 25) 1 = 128 ∧ Memory.readLE s.dev (a + 26) 6 = 1) ∧
    (let s := described 0x1010 0x2000 1 1 0; let a := coreStoreBase + 0x20;
      s.issues 0 sdeclWord 0x60 0xFFFFFFFF00000 ∧ Memory.readLE s.dev a 8 % 128 ≠ 0) ∧
    (let s := described 0x1000 0x2000 1 1 65; let a := coreStoreBase + 0x20;
      s.issues 0 sdeclWord 0x60 0xFFFFFFFF00000 ∧ 64 < Memory.readLE s.dev (a + 24) 1) ∧
    (base.issues 0 4 0x60 0xFFFFFFFF00000 ∧ stOff (4 : Body).toNat % 32 ≠ 0) ∧
    base.issues 0 (1 <<< 52) 0x61 0xFFFFFFFF00000 ∧
    (let s := withCore { runs with streams := [(0, oneItem)] };
      s.issues 0 0 0x2C 0xFF00000000 ∧ oneItem.issued + 1 ≤ oneItem.total ∧ (s.core 0).biasHolds 0 = false ∧
      s.xlateRange 0 (oneItem.item 0) 256 false = .ok [(oneItem.item 0, 0x1000, 256)] ∧ s.space 0x1000 = .loc 0x1000 ∧
      s.lostFree ∧ s.holdsWord 0 [(0x1000, 256)] = false ∧ (s.core 0).heldLine? (some 0) 0x1000 = none ∧
      ∀ i < 64, s.isPoisoned (0x1000 + 4 * i) = false) ∧
    (base.issues 0 0 0x2C 0xFF00000000 ∧ (runs.stream 0).declared = false) ∧
    (let x := { oneItem with issued := 1 }; let s := withCore { runs with streams := [(0, x)] };
      s.issues 0 0 0x2C 0xFF00000000 ∧ (s.core 0).stream 0 = x ∧ x.total ≤ x.issued) := by and_intros <;> decide +kernel

/-- The shape field of 1 row of 32 columns in two formats. -/
def shape (rows cols a b : Nat) : Nat := (rows - 1) * 2 ^ 20 + (cols - 1) * 2 ^ 12 + a * 2 ^ 8 + b * 2 ^ 4

/-- A core whose tile queue holds eight entries. -/
def fullQueue : Core := { runs with queue := List.replicate 8 {} }

theorem witness_TileInstructionsEnterTheQueue :
    (let b := BitVec.ofNat 56 (shape 64 128 8 0); runs.queue.length < (8 : Nat) ∧ tmemShapeBad false b.toNat = false ∧
      base.issues 0 b 0x40 0x3FFC0000F0 ∧ base.issues 0 b 0x41 0x3FFC0000F0) ∧
    (let b := BitVec.ofNat 56 (shape 64 128 8 0); let x := ({ declared := true, runItems := 64, runs := 1 } : Stream); let s := withCore { runs with streams := [(0, x)] };
      s.issues 0 b 0x42 0x3FFC000000 ∧ tmemShapeBad true b.toNat = false ∧
      x.issued + shRows b.toNat ≤ x.total ∧ base.issues 0 b 0x42 0x3FFC000000 ∧ (runs.stream (tmStream b.toNat)).declared = false) ∧
    base.issues 0 0xFFFF 0x43 0x9FFFFFFFFF0000 ∧
    (let b := BitVec.ofNat 56 (shape 64 128 8 8); base.issues 0 b 0x50 0x1FFC000000 ∧ mmaShapeBad b.toNat = false ∧
      base.stitchBad (shStitch b.toNat) 0 = false) ∧
    (let b := BitVec.ofNat 56 (shape 64 64 2 0); base.issues 0 b 0x58 0 ∧ drainShapeBad b.toNat = false) ∧
    (base.issues 0 0 0x59 0xFFFFFFFFF ∧ dcfgIllegal 0 = false) ∧
    (let b := BitVec.ofNat 56 (shape 1 32 0 0); let s := withCore fullQueue; 8 ≤ fullQueue.queue.length ∧ s.issues 0 b 0x40 0x3FFC0000F0 ∧
      tmemShapeBad false b.toNat = false ∧ s.issues 0 0 0x43 0x9FFFFFFFFF0000) ∧
    (let b := BitVec.ofNat 56 (shape 1 129 8 8); tmemShapeBad false b.toNat = true ∧ tmemShapeBad true b.toNat = true ∧
      mmaShapeBad b.toNat = true ∧ drainShapeBad b.toNat = true ∧ base.issues 0 b 0x58 0) ∧
    (let b := BitVec.ofNat 56 (shape 1 129 8 0); base.issues 0 b 0x40 0x3FFC0000F0 ∧ base.issues 0 b 0x41 0x3FFC0000F0 ∧ base.issues 0 b 0x42 0x3FFC000000 ∧
      base.issues 0 b 0x50 0x1FFC000000) := by and_intros <;> decide +kernel

/-- A queue entry of a word. -/
def entry (op fields : Nat) (vals : List W64) (st : QState) : QEntry := { word := BitVec.ofNat 64 (op * 2 ^ 56 + fields), vals, st }

/-- A core with one entry in its queue. -/
def queued (e : QEntry) : Core := { runs with queue := [e] }

/-- A stitched MMA of INT8, code 1: both cores of the placement. -/
def pairMma : QEntry := entry 0x50 (shape 1 1 8 8 + 1) [] .arrived

/-- A core with two stitched or plain array instructions in its queue: the first waits at its rendezvous, the second is queued. -/
def behindPair : Core := { runs with queue := [pairMma, entry 0x50 (2 ^ 55 + shape 1 1 8 8) [] .queued] }

/-- A stitched MMA of code 1 that has started. -/
def pairStarted : QEntry := { pairMma with st := .started }

/-- A drain of 64 rows of 64 FP16 columns to the core store at an offset. -/
def storeDrain (off : Nat) (st : QState) : QEntry := entry 0x58 (shape 64 64 2 0 + 2 ^ 54) [BitVec.ofNat 64 off, 0, 0] st

theorem witness_TileUnitsDoTheirWork_dispatch :
    (let k := queued (entry 0x43 0xFFFF [] .queued); k.queue.findIdx? (fun e => e.st == .queued) = some 0 ∧
      k.hazardFree 0 0 (k.queue.getD 0 {}) = true ∧ k.firstOf 0 = some 0 ∧ ∀ f ∈ k.queue, f.st ≠ .behind) ∧
    (let k := queued (entry 0x59 0 [] .queued); k.queue.findIdx? (fun e => e.st == .queued) = some 0 ∧
      k.hazardFree 0 0 (k.queue.getD 0 {}) = true ∧ k.firstOf 2 = some 0) ∧
    (let e := entry 0x50 (shape 1 1 8 8) [] .queued; let k := queued e; k.queue.findIdx? (fun e => e.st == .queued) = some 0 ∧
      k.hazardFree 0 0 e = true ∧ e.op = 0x50 ∧ e.stitch = 0) ∧
    (let k := behindPair; let e := entry 0x50 (2 ^ 55 + shape 1 1 8 8) [] .queued; k.queue.findIdx? (fun e => e.st == .queued) = some 1 ∧
      k.queue.getD 1 {} = e ∧ k.hazardFree 0 1 e = true ∧ (∀ f ∈ k.queue, f.st ≠ .behind) ∧ ∃ f ∈ k.queue.take 1, f.st = .arrived) ∧
    (let e := entry 0x58 (shape 64 64 2 0) [0, 0, 0] .queued; let k := queued e; k.queue.findIdx? (fun e => e.st == .queued) = some 0 ∧
      k.hazardFree 0 0 e = true ∧ e.op = 0x58 ∧ drainUnitBad k.dcfg e.word.toNat 0 = false ∧ tdDest e.word.toNat = false) ∧
    (let e := storeDrain 0x100 .queued; let k := queued e; k.queue.findIdx? (fun e => e.st == .queued) = some 0 ∧ k.hazardFree 0 0 e = true ∧
      drainUnitBad k.dcfg e.word.toNat 0 = false ∧ tdDest e.word.toNat = true ∧ (e.vals.getD 0 0).toNat % 16 = 0) ∧
    (let e := entry 0x40 (shape 1 128 8 0) [0x1000, 0x80] .queued; let k := queued e; let s := withCore k;
      k.queue.findIdx? (fun e => e.st == .queued) = some 0 ∧ k.hazardFree 0 0 e = true ∧ tmemShapeBad false e.word.toNat = false ∧
      rowMisaligned e = none ∧ s.xlateRows 0 128 false 0 (k.rowAddrs e) = .ok [(0, 0x1000, [(0x1000, 0x1000, 128)])] ∧
      s.hostCheck 0 [(0x1000, 0x1000, 128)] = none ∧ s.isRemote 0x1000 = false ∧ k.remote = [] ∧ k.lines = [] ∧ k.fills = [] ∧
      ∀ f ∈ k.queue, f.st = .started → f.isLoad = false) ∧
    (let e := entry 0x41 (shape 1 128 8 0) [0x1000, 0x80] .queued; let k := queued e; let s := withCore k;
      k.queue.findIdx? (fun e => e.st == .queued) = some 0 ∧ k.hazardFree 0 0 e = true ∧ k.firstOf 0 = some 0 ∧ rowMisaligned e = none ∧
      s.xlateRows 0 128 true 0 (k.rowAddrs e) = .ok [(0, 0x1000, [(0x1000, 0x1000, 128)])] ∧ s.isRemote 0x1000 = false ∧ k.remote = [] ∧
      s.lostFree ∧ overlaps [[(s.norm 0x1000, 128)]] = false) := by and_intros <;> first | decide +kernel | rfl

theorem witness_TileUnitsDoTheirWork_complete :
    (let s := (ready.setCore 0 (queued pairMma)).setCore 1 (queued pairMma);
      (s.core 0).queue.find? (fun e => e.st == .arrived) = some pairMma ∧ s.allArrived pairMma.stitch 0 = true ∧
      s.groupAgrees pairMma.stitch 0 = true ∧ stitchMembers pairMma.stitch 0 = [0, 1] ∧ (s.core 1).arrivedAt pairMma.stitch = some 0) ∧
    (let e := entry 0x50 (shape 64 128 8 8) [] .started; let s := withCore (queued e); let w := e.word.toNat;
      (s.core 0).arrayHead = some (0, e) ∧ stitchLead e.stitch 0 = 0 ∧ stitchMembers e.stitch 0 = [0] ∧
      skewOf w (tagStart (s.core 0) w) (s.feeders 0 0).1 (s.feeders 0 0).2 = none ∧ shA w = 8 ∧ shB w = 8 ∧ taScl w = false) ∧
    (let s := (ready.setCore 0 (queued pairStarted)).setCore 1 (queued pairStarted); let e := pairStarted; let w := e.word.toNat;
      (s.core 0).arrayHead = some (0, e) ∧ stitchLead e.stitch 0 = 0 ∧ stitchMembers e.stitch 0 = [0, 1] ∧
      (∀ m ∈ stitchMembers e.stitch 0, (s.core m).arrayHead.map (fun x => x.2.stitch) = some e.stitch) ∧
      skewOf w (tagStart (s.core 0) w) (s.feeders e.stitch 0).1 (s.feeders e.stitch 0).2 = none) ∧
    (let e := entry 0x58 (shape 64 64 2 0) [0, 0, 0] .started; let k := { queued e with power := [(0, .awake)] };
      k.firstOf 2 = some 0 ∧ k.biasAwaited e.cfg = false ∧ drainUnitBad e.cfg e.word.toNat 0 = false ∧ tdDest e.word.toNat = false ∧
      8 * rowBytes e.word.toNat 2 ≤ 1024 ∧ (drainDests e.cfg e.word.toNat (e.vals.getD 1 0)).all k.bankReady = true) ∧
    (let e := storeDrain (2 ^ 20 - 64 * 128) .started; let k := queued e; let n := rowBytes e.word.toNat (shA e.word.toNat);
      k.firstOf 2 = some 0 ∧ k.biasAwaited e.cfg = false ∧ drainUnitBad e.cfg e.word.toNat 0 = false ∧ tdDest e.word.toNat = true ∧
      (e.vals.getD 0 0).toNat + shRows e.word.toNat * 128 ≤ 2 ^ 20 ∧ n ≤ 128 ∧ (drainDests e.cfg e.word.toNat 0).all k.bankReady = true) := by
  and_intros <;> decide +kernel

/-- A stream of two lines of 128-byte items at a virtual address, run-ahead depth 1. -/
def aheadOf (va : W64) : Stream := { declared := true, base := va, runItems := 4, runs := 1, depth := 1 }

theorem witness_BanksLinesAndParity :
    (let k := { runs with power := [(3, BankPower.awake)], live := 0x0FFF }; k.bank 3 = .awake ∧ k.live &&& BitVec.ofNat 16 (0xF * 2 ^ 12) = 0) ∧
    ¬(runs.bank 0 = .awake ∧ runs.live &&& BitVec.ofNat 16 0xF = 0) ∧
    (let k := { runs with power := [(3, BankPower.waking)] }; k.bank 3 = .waking ∧ ∀ e ∈ k.queue, e.st = .started → e.op = 0x50) ∧
    (let k := { runs with fills := [{ pa := 0x1000 }] }; let s := withCore k;
      k.fills[0]? = some { pa := 0x1000 } ∧ s.space 0x1000 = .loc 0x1000 ∧ s.lostFree ∧ ∀ e ∈ k.queue, e.st = .started → ∀ p ∈ e.parts, p.pa - p.pa % 256 ≠ 0x1000) ∧
    (let k := { runs with streams := [(7, aheadOf 0xC0000000)] }; let s := withCore k;
      k.run = .running ∧ k.halted = false ∧ k.stopping = false ∧ s.aheadWants 0 7 = some 2 ∧ k.aheadRoom = true ∧ k.aheadWait = [] ∧
      lineAddr ((k.stream 7).item 2) = 0xC0000100 ∧ s.translate 0 0xC0000100 false = .fault { cause := 2, level := 1, va := 0xC0000100 }) ∧
    (let k := { runs with streams := [(7, aheadOf 0x1000)], aheadWait := [7] }; let s := withCore k;
      s.aheadWants 0 7 = some 2 ∧ (k.aheadWait.filter (fun m => (s.aheadWants 0 m).isSome)).head? = some 7 ∧
      s.translate 0 (lineAddr ((k.stream 7).item 2)) false = .ok 0x1100 false false ∧ k.aheadRoom = true ∧
      s.isRemote 0x1100 = false ∧ k.lines ++ k.fills = []) ∧
    (let k := { runs with streams := [(7, aheadOf 0x1000), (3, aheadOf 0x3000)], aheadWait := [3] }; let s := withCore k;
      s.aheadWants 0 7 = some 2 ∧ k.aheadWait.filter (fun m => (s.aheadWants 0 m).isSome) = [3]) ∧
    (let k := { runs with streams := [(7, aheadOf 0x1000)], lines := (List.range 120).map (fun i => { pa := 0x10000 + 256 * i, owner := 7 }) };
      k.aheadRoom = false) ∧
    (let e := { entry 0x50 (shape 1 1 8 8) [] .started with retries := 1 }; let k := queued e;
      k.queue[0]? = some e ∧ e.op = 0x50 ∧ e.stitch = 0 ∧ e.retries < 2) ∧
    (let e := { entry 0x58 (shape 1 1 2 0) [] .started with retries := 2 }; (queued e).queue[0]? = some e ∧ e.op = 0x58 ∧ 2 ≤ e.retries) ∧
    (let k := { runs with pc := 0x40, rowRetries := 2 }; let s := (withCore k).devWrite (coreStoreBase + 0x40) (natLE 8 (0x2D * 2 ^ 56));
      k.queue[0]? = none ∧ s.runs 0 = true ∧ bitsOf (s.csRead 0 k.pc 8) 56 8 = 0x2D ∧ s.isPoisoned (csAddr 0 k.pc) = false ∧
      queueUses 0 (vwT (s.csRead 0 k.pc 8)) k.dcfg k.queue = false ∧ 2 ≤ k.rowRetries ∧ ¬2 ≤ runs.rowRetries) := by
  and_intros <;> decide +kernel

/-! ## Witnesses: sync instructions, fences, core control -/

/-- READY with core 0 as given and object 0 of the table as given. -/
def withObj (k : Core) (e : SyncEntry) : State := { withCore k with sync := { table := [(0, e)] } }

/-- SYNC words with SB 2 and SC 3, in a mode; SA is s0, the handle of object 0 of generation 0. -/
def syWord (mode : Nat) : Body := BitVec.ofNat 56 (2 * 2 ^ 41 + 3 * 2 ^ 36 + mode * 2 ^ 34)

/-- s2 as given. -/
def thr2 (x : W64) : Core := runs.setS 2 x

theorem witness_SignalsChangeOneObject :
    (∀ m < 3, base.issues 0 (syWord m) 0x70 0x3FFFFFFFF ∧ syMode (syWord m).toNat = m) ∧
    ((runs.sreg 0).toNat < 2 ^ 39 ∧ base.hRemote 0 = false ∧ runs.hasMem = false ∧ base.objPoisoned 0 = false) ∧
    (let e := (withObj (thr2 1) { kind := 0, counter := 2 ^ 48 - 1 }).obj 0; bitsOf 0 16 8 = e.gen ∧ e.abandoned = false ∧ e.kind = 0) ∧
    (let e := (withObj (thr2 1) { kind := 2 }).obj 0; bitsOf 0 16 8 = e.gen ∧ e.abandoned = false ∧ e.kind = 2) ∧
    (let e := (withObj (thr2 0) { kind := 1, participants := 2 }).obj 0; e.kind = 1 ∧ ((thr2 0).sreg 2).toNat % 2 ^ 48 = e.counter ∧
      e.even + 1 < e.participants) ∧
    (let e := (withObj (thr2 0) { kind := 1, participants := 1 }).obj 0; e.kind = 1 ∧ e.even + 1 = e.participants ∧ e.odd < e.participants) ∧
    (let e := (withObj (thr2 2) { kind := 1, participants := 1 }).obj 0; 1 < (((thr2 2).sreg 2).toNat % 2 ^ 48 + 2 ^ 48 - e.counter) % 2 ^ 48) ∧
    (base.obj 0).kind = 3 ∧
    (let e := (withObj runs { kind := 0, gen := 1 }).obj 0; sigModeOk 0 e.kind = true ∧ bitsOf 0 16 8 ≠ e.gen) ∧
    (let e := (withObj runs { kind := 1, participants := 1 }).obj 0; e.kind ≠ 3 ∧ sigModeOk 0 e.kind = false) := by
  and_intros <;> decide +kernel

/-- Core 0 asleep in a WAIT on object 0 until its counter reaches 1. -/
def sleeper (timed : Bool) : Core := { runs with run := .asleep, wait := { valid := true, thr := 1, timed, deadline := 1000000 } }

/-- The flit that carries object 0 with its counter at 1. -/
def flit1 : WakeFlit := { block := 0, index := 0, snap := ({ kind := 0, counter := 1 } : SyncEntry).word0 }

/-- READY with the sleeping core and the flit on its way. -/
def woken : State := { withCore (sleeper false) with sync := { flits := [flit1] } }

theorem witness_WaitsReturnOrSleep :
    (∀ m < 3, base.issues 0 (syWord m) 0x71 0x3FFFFFFFF ∧ syMode (syWord m).toNat = m) ∧
    (let e := (withObj (thr2 5) { kind := 0, counter := 5 }).obj 0; e.kind = 0 ∧ ((thr2 5).sreg 2).toNat % 2 ^ 48 ≤ e.counter ∧ e.counter < 2 ^ 48) ∧
    (let e := (withObj (thr2 0) { kind := 1, participants := 1, counter := 1 }).obj 0; e.kind = 1 ∧ roundReleased e.counter 0 = true) ∧
    (let e := (withObj (thr2 6) { kind := 2, counter := 5 }).obj 0; e.kind = 2 ∧ e.counter < ((thr2 6).sreg 2).toNat % 2 ^ 48 ∧
      ((thr2 6).sreg 3).toNat = 0) ∧
    (base.issues 0 (syWord 0) 0x72 0x3FFFFFFFF ∧ base.hRemote 0 = false ∧ base.objPoisoned 0 = false) ∧
    (let s := woken; let k := s.core 0;
      s.sync.flits.find? (fun x => x.block == 0 / 16) = some flit1 ∧ k.run = .asleep ∧ k.wait.valid = true ∧ k.wait.index = flit1.index ∧
      bitsOf flit1.snap 48 8 = k.wait.gen ∧ bitsOf flit1.snap 56 2 ≠ 3 ∧ bitOf flit1.snap 58 = false ∧ k.wait.mode = 0 ∧
      k.wait.thr ≤ bitsOf flit1.snap 0 48) ∧
    (∀ d, d ≠ 0 → (woken.core d).run ≠ .asleep) ∧
    (let s := withObj (sleeper true) { kind := 0 }; let k := s.core 0; k.run = .asleep ∧ k.wait.timed = true ∧ k.wait.deadline ≤ s.now ∧
      hIndex k.wait.handle = k.wait.index ∧ hGen k.wait.handle = k.wait.gen ∧ s.objPoisoned k.wait.index = false ∧
      (s.obj k.wait.index).kind = 0 ∧ (s.obj k.wait.index).gen = k.wait.gen ∧ (s.obj k.wait.index).counter < k.wait.thr) := by
  and_intros <;> first
    | decide +kernel
    | (intro d hd
       have h : woken.cores = [(0, sleeper false)] := by decide +kernel
       simp [State.core, h, Store.get, Ne.symm hd])

theorem witness_FencesAndTheEndOfWork :
    (base.issues 0 (1 <<< 53) 0x78 0x9FFFFFFFFF0000 ∧ runs.hasMem = false ∧ runs.remote = []) ∧
    (base.issues 0 0 0x02 0x9FFFFFFFFF0000 ∧ runs.queue = [] ∧ base.groupsOf 0 = [] ∧ runs.works = []) ∧
    (let k := { runs with works := [{ pc := 0x40, args := [1, 2, 3, 4, 5, 6, 7] }] }; let s := withCore k; s.issues 0 0 0x02 0x9FFFFFFFFF0000 ∧
      s.groupsOf 0 = [] ∧ s.ctxPreempt 0 = false) := by and_intros <;> decide +kernel

theorem witness_CoresStopResumeAndAreWatched :
    (let s := ready.setCore 575 { runs with stop := true, queue := [entry 0x43 0 [] .queued] }; let k := s.core 575;
      k.run = .running ∧ k.stop = true ∧ k.stopping = false ∧ k.killed = false ∧ k.remote = [] ∧ s.groupsOf 575 = [] ∧ k.replay = []) ∧
    (let k := { runs with stop := true, live := 3, queue := [entry 0x43 1 [] .queued, entry 0x59 0 [] .queued, entry 0x58 0 [] .queued] };
      let s := withCore k; k.stop = true ∧ k.remote = [] ∧ s.groupsOf 0 = [] ∧ k.replay = [] ∧
      (k.queue.takeWhile (fun e => e.op == 0x43 || e.op == 0x59)).length = 2 ∧ (k.queue.dropWhile (fun e => e.op == 0x43 || e.op == 0x59)).length = 1) ∧
    (let s := withCore { runs with run := .stopped, replay := [{ word := 0x43 <<< 56 }] };
      s.mayResume 0 = true ∧ (s.replayClosure 16 [0]).all s.mayResume = true) ∧
    (let p := { runs with run := .stopped, replay := [{ word := BitVec.ofNat 64 (0x50 * 2 ^ 56 + 1) }] }; let s := (ready.setCore 0 p).setCore 1 p;
      s.replayClosure 16 [0] = [0, 1] ∧ (s.replayClosure 16 [0]).all s.mayResume = true) ∧
    (let s := withCore runs; (s.replayClosure 16 [0]).all s.mayResume = false) ∧
    (let s := { withCore { runs with lastDone := 0 } with now := 1000000000 }; let k := s.core 0; k.run = .running ∧
      s.fld (0x880 + 4 * k.ctx) 0 16 = 1000 ∧ k.lastDone + s.fld (0x880 + 4 * k.ctx) 0 16 * 1000000 ≤ s.now ∧ s.groupsOf 0 = [] ∧ k.works = []) ∧
    (let s := base.setReg 0x880 0; s.fld 0x880 0 16 = 0 ∧ (s.core 0).run = .running) := by and_intros <;> decide +kernel

theorem witness_DebugControlHaltsAndResets :
    (let s := ready.setCore 575 runs; s.ready = true ∧ s.flag 0x390 19 = false ∧ s.coreGood 575 = true ∧ s.active 575 = true) ∧
    ((withCore { runs with run := .stopped, halted := true }).core 0).halted = true ∧
    (35 < 36 ∧ 575 / 16 = 35 ∧ (ready.setCore 575 runs).active 575 = true) ∧
    (∀ m, m / 16 = 35 → ready.active m = false ∧ (ready.core m).works = []) := by
  and_intros <;> first | decide +kernel | exact fun m _ => ⟨rfl, rfl⟩

/-! ## Witnesses: Town Hall, compute and copies -/

/-- READY, context 0 with what Town Hall holds as given and the host words as given, one descriptor of an OP in its ring. -/
def polled (x : Ctx) (ctail atail op : Nat) : State :=
  { ready with
    ctxs := [(0, x)]
    host := Memory.setBytes (Memory.setBytes [] 0x10000 (natLE 8 op)) 0x20000 (natLE 4 ctail ++ natLE 8 0 ++ natLE 4 atail) }

/-- The page as `polled` leaves it. -/
def pageOf (ctail atail : Nat) : Nat := ctail + atail * 2 ^ 96

theorem witness_PollsReadWordsDescriptorsAndAborts :
    (let s := polled {} 0 0 0; s.ready = true ∧ s.ctxEnabled 0 = true ∧ s.ctxState 0 ≠ 3 ∧ s.pollDue 0 = true ∧
      (s.markPolled 0).hallRead 0 (s.doorbell 0) 0x90 = .ok (pageOf 0 0) ∧ ({} : Ctx).wordsBad (s.cmdLog 0) 0 0 0 0 = false) ∧
    (let s := polled {} 1 0 3; let v := s.hostRead (s.headSlot 0) 64; let c : Cmd := { tag := 0, desc := descWords v };
      s.pollDue 0 = true ∧ (s.markPolled 0).hallRead 0 (s.doorbell 0) 0x90 = .ok (pageOf 1 0) ∧ pageWord (pageOf 1 0) 0 = 1 ∧
      ({} : Ctx).wordsBad (s.cmdLog 0) 1 0 0 0 = false ∧ s.hostRangeFails (s.headSlot 0) 64 = false ∧ poisonIn s.hostEp (s.headSlot 0) 64 = none ∧
      bitsOf v 32 32 = 0 ∧ c.reservedSet = false ∧ c.op = 3 ∧ c.contributes = false) ∧
    (let c : Cmd := { desc := words 3 0 0 0 0 }; let s := polled { cmdHead := 1, cmdTail := 1, cmds := [c] } 1 1 3;
      s.pollDue 0 = true ∧ (s.markPolled 0).hallRead 0 (s.doorbell 0) 0x90 = .ok (pageOf 1 1) ∧
      (s.ctx 0).wordsBad (s.cmdLog 0) 1 0 0 1 = false ∧ bitsOf (pageOf 1 1) (8 * 0x10) 32 = c.tag ∧ s.holds 0 c 3 .read ∧ c.gateAbort = false ∧
      c.pre = .none ∧ s.fab.xfers = [] ∧ wrapSub 1 0 = 1) := by and_intros <;> decide +kernel

/-- A command of context 0 with tag 0. -/
def cmdOf (op b0 b1 b2 b3 : Nat) (phase : CmdPhase) (job : Job) : Cmd := { desc := words op b0 b1 b2 b3, phase, job }

/-- A FLUSH with PREWAIT in mode 1 on object 0, threshold 1. -/
def waitsFirst : Cmd := { desc := [3, 1#64 <<< 39, 1, 0, 0, 0, 0, 0] }

/-- READY, context 0 with one command and object 0 of the table as given. -/
def cmdObj (c : Cmd) (e : SyncEntry) : State := { withCmd c with sync := { table := [(0, e)] } }

theorem witness_CommandsAreDispatchedInRingOrder :
    (let c := cmdOf 3 0 0 0 0 .read .none; let d := { cmdOf 2 0 0 0 0 .running .none with tag := 1 };
      let s := { ready with ctxs := [(0, { cmds := [d, c] })] }; s.ready = true ∧ s.ctxState 0 = 1 ∧ s.ctxPreempt 0 = false ∧ s.hasTurn 0 = true ∧
      (s.ctx 0).nextCmd = some (c, false) ∧ s.holds 0 c c.op .read ∧ c.op = 3) ∧
    (let c := cmdOf 0x15 0 0 0 0 .read .none; let s := withCmd c; s.hasTurn 0 = true ∧ (s.ctx 0).nextCmd = some (c, true) ∧ s.holds 0 c c.op .read ∧ c.illegal = true) ∧
    (let c := cmdOf 3 0 0 0 0 .read .none; let s := withCmd c; s.hasTurn 0 = true ∧ (s.ctx 0).nextCmd = some (c, true) ∧ c.illegal = false ∧ c.pwMode = 0 ∧
      s.gateHolds 0 c = false) ∧
    (let c := cmdOf 5 0 0 0 0 .read .none; let s := withCmd c; s.hasTurn 0 = true ∧ (s.ctx 0).nextCmd = some (c, true) ∧ s.holds 0 c 5 .read ∧ c.illegal = false ∧ c.jrec = none) ∧
    (let c := { cmdOf 7 0 0 0 0 .read .none with jrec := some 0 }; let s := withCmd c; s.hasTurn 0 = true ∧ (s.ctx 0).nextCmd = some (c, true) ∧ s.holds 0 c 7 .read ∧
      c.illegal = false ∧ c.jrec.isSome = true ∧ c.pwMode = 0 ∧ s.gateHolds 0 c = false) ∧
    (let c := waitsFirst; let s := cmdObj c { kind := 0, counter := 1 }; s.hasTurn 0 = true ∧ (s.ctx 0).nextCmd = some (c, true) ∧ s.holds 0 c c.op .read ∧
      c.illegal = false ∧ c.pwMode = 1 ∧ c.pre = .none ∧ s.hRemote c.prewait = false ∧ s.objPoisoned (hIndex c.prewait) = false ∧
      hGen c.prewait = (s.obj 0).gen ∧ c.contributes = false ∧ c.pwThr = 1) ∧
    (let s := cmdObj waitsFirst { kind := 2 }; s.hasTurn 0 = true ∧ (s.obj 0).kind = 2 ∧ (s.obj 0).counter < waitsFirst.pwThr) ∧
    (let s := cmdObj waitsFirst { kind := 1, participants := 1 }; s.hasTurn 0 = true ∧ (s.obj (hIndex waitsFirst.prewait)).kind = 1 ∧ waitsFirst.op ≠ 6) ∧
    (let c := cmdOf 3 0 0 0 0 .read .none; let s := { withCmd c with ctxs := [(0, { cmds := [c], served := 1 }), (1, { cmds := [c] })] };
      let t := (s.setFlag (ctxCtrl 1) 0 true).setFld (ctxCtrl 1) 4 2 1; t.hasTurn 0 = false ∧ t.hasTurn 1 = true) := by
  and_intros <;> decide +kernel

/-- A settled FLUSH with SIGNAL on object 0 of generation 1, which is no null handle. -/
def signals : Cmd := { desc := [3, 0, 0, 1#64 <<< 16, 0, 0, 0, 0], phase := .settled }

theorem witness_CommandsCompleteWithTheirRecords :
    (let c := cmdOf 3 0 0 0 0 .settled .none; let s := withCmd c; s.ctxRuns 0 ∧ s.holds 0 c c.op .settled ∧ c.job = .none ∧
      c.contributes = false ∧ c.signal = 0) ∧
    (let s := cmdObj signals { kind := 2, gen := 1 }; let h := signals.signal; s.ctxRuns 0 ∧ s.holds 0 signals 3 .settled ∧ h ≠ 0 ∧
      signals.status ≠ 8 ∧ s.hRemote h = false ∧ s.objPoisoned (hIndex h) = false ∧ (s.obj (hIndex h)).kind = 2 ∧
      hGen h = (s.obj (hIndex h)).gen ∧ (s.obj (hIndex h)).abandoned = false) ∧
    (let s := { ready with ctxs := [(0, { held := [{}] })] }; s.ctxRuns 0 ∧ (s.ctx 0).held = {} :: [] ∧ s.cplRoom 0 = true) ∧
    (let c := cmdOf 2 0 0x100000 0x20000 0 .running (.dma { total := 2, next := 2, done := 1 }); let s := withCmd c; s.ctxRuns 0 ∧
      s.holds 0 c c.op .running ∧ c.progress = some (1, 2, 131072)) := by and_intros <;> decide +kernel

/-- READY with the error ring on at host address 0x40000. -/
def errRing : State := ready.setReg64 0x860 0x40001

theorem witness_FailedHostReadsAreRecorded :
    (let s := errRing; s.ready = true ∧ (Store.get {} s.err.hostReads 7 : HostReadErr) = {} ∧ s.flag 0x860 0 = true ∧
      wrapSub (s.reg 0x870) (s.reg 0x86C) < 2 ^ s.fld 0x868 0 4) ∧
    (let s := { errRing with err := { hostReads := [(7, { lastRecord := 1000000 })] } }; (Store.get {} s.err.hostReads 7 : HostReadErr).lastRecord ≠ 0 ∧
      s.now < (Store.get {} s.err.hostReads 7 : HostReadErr).lastRecord - 1 + 1000000) ∧
    (let j : DmaJob := { total := 1, next := 1, flying := [0] }; let c := cmdOf 2 0x40000000 0 16 0 .running (.dma j); let s := withCmd c;
      s.holds 0 c 2 .running ∧ c.job = .dma j ∧ s.hostBus 0 (c.body 0) = some 0) := by and_intros <;> decide +kernel

/-- READY with a launch record at 0x1000 that names core 575 alone, BATCH 0x2000, and a command. -/
def launched (cores : Nat) (c : Cmd) : State :=
  (withCmd c).devWrite 0x1000 (natLE 256 (0x40 + cores * 2 ^ (8 * 0x48) + 0x2000 * 2 ^ (8 * 0x90)))

theorem witness_ComputeStartsTheNamedCores :
    (let c := cmdOf 1 0x1000 0 0 0 .dispatched .none; let s := launched (2 ^ 575) c; let r := Memory.readLE s.dev 0x1000 256;
      s.ready = true ∧ s.ctxPreempt 0 = false ∧ s.ctxState 0 ≠ 3 ∧ s.holds 0 c 1 .dispatched ∧ c.body 0 % 256 = 0 ∧ c.body 1 / 2 ^ 23 = 0 ∧
      s.lostFree ∧ s.localAt 0 0x1000 256 0x1000 false ∧ lrReserved r = false ∧ bitsOf (c.body 1) 16 7 = 0 ∧ s.maskBad (lrCores r) = false ∧
      (s.core 575).run = .idle ∧ lrCores r = 2 ^ 575) ∧
    (let c := cmdOf 1 0x1000 0 0 0 .dispatched .none; let s := launched 0 c; s.holds 0 c 1 .dispatched ∧
      s.maskBad (lrCores (Memory.readLE s.dev 0x1000 256)) = true) ∧
    (let c := cmdOf 1 0x1000 (63 * 2 ^ 16) 0 0 .dispatched .none; let s := launched 1 c; let r := Memory.readLE s.dev 0x1000 256;
      s.holds 0 c 1 .dispatched ∧ bitsOf (c.body 1) 16 7 = 63 ∧ lrBatch r % 256 = 0 ∧ 0 < s.fillUs 0 ∧ s.fillUs 0 ≤ 10000 ∧
      s.heldFills 0 0 = []) ∧
    (let r := Memory.readLE (launched 1 {}).dev 0x1000 256; let j : FillJob := { rows := 64, lrec := r };
      let c := cmdOf 1 0x1000 (64 * 2 ^ 16) 0 0 .running (.fill j); let s := withCmd c;
      s.heldFills 0 0 = [c] ∧ s.holds 0 c 1 .running ∧ j.since + 1000 * s.fillUs 0 ≤ s.now ∧ j.rows ≤ 64 ∧ c.tag < 2 ^ 32 ∧
      s.maskBad (lrCores r) = false ∧ lrCores r = 1 ∧ (s.core 0).run = .idle ∧ s.localAt 0 (lrBatch r) 16 0x2000 true) := by
  and_intros <;> decide +kernel

/-- A copy of 0x10001 bytes from 0 to 0x200000. -/
def copyOf (phase : CmdPhase) (job : Job) : Cmd := cmdOf 2 0 0x200000 0x10001 0 phase job

theorem witness_CopiesMoveWholeUnits :
    (let c := copyOf .dispatched .none; (withCmd c).holds 0 c 2 .dispatched ∧ 0 < c.body 2 ∧ c.body 2 < 2 ^ 40 ∧
      ¬(c.body 0 < c.body 1 + c.body 2 ∧ c.body 1 < c.body 0 + c.body 2)) ∧
    (let c := cmdOf 2 0 0 0 0 .dispatched .none; (withCmd c).holds 0 c 2 .dispatched ∧ c.body 2 = 0 ∧
      ¬(c.body 0 < c.body 1 + c.body 2 ∧ c.body 1 < c.body 0 + c.body 2)) ∧
    (let j : DmaJob := { total := 2, next := 2, flying := [1], done := 1 }; let c := copyOf .running (.dma j); let s := withCmd c;
      s.holds 0 c 2 .running ∧ 1 ∈ j.flying ∧ min 65536 (c.body 2 % 2 ^ 40 - 65536 * 1) = 1 ∧ j.flying.erase 1 = [] ∧ j.total ≤ j.next ∧
      s.engXlate 0 (c.body 0 + 65536) 1 false = .ok [(0x10000, 0x10000, 1)] ∧
      s.engXlate 0 (c.body 1 + 65536) 1 true = .ok [(0x210000, 0x210000, 1)] ∧ s.engHostCheck 0 [(0x10000, 0x10000, 1)] = none ∧
      s.isRemote 0x10000 = false ∧ s.isRemote 0x210000 = false ∧ s.xfer? 0 0 1 = none ∧ s.lostFree ∧ j.poisoned = 0 ∧
      s.cleanAt 0x10000 = true) ∧
    (let j : DmaJob := { total := 17, next := 16, flying := List.range 16 }; j.stopped = false ∧ j.next < j.total ∧ (j.flying.erase 0).length < 16) ∧
    (let j : DmaJob := { total := 1, next := 1, flying := [0] }; let c := cmdOf 2 0xC0000000 0 16 0 .running (.dma j); let s := withCmd c;
      s.holds 0 c 2 .running ∧ s.engXlate 0 0xC0000000 16 false = .error { cause := 2, level := 1, va := 0xC0000000 } ∧ j.flying.erase 0 = []) := by
  and_intros <;> decide +kernel

theorem witness_FlushAndInvalidateKeepEveryByte :
    (let c := cmdOf 3 1 0 0 0 .dispatched .none; (withCmd c).holds 0 c 3 .dispatched ∧ c.body 0 = 1 ∧ (withCmd c).lostFree) ∧
    (let c := cmdOf 3 0 0 0 0 .dispatched .none; (withCmd c).holds 0 c 3 .dispatched ∧ c.body 0 = 0) ∧
    (let c := cmdOf 4 0 0 0 0 .dispatched .none; (withCmd c).holds 0 c 4 .dispatched ∧ (withCmd c).inFlight 0 = {}) ∧
    (let c := cmdOf 4 0 0 0 0 .dispatched .none; let s := (withCmd c).setCore 0 { runs with queue := [{ st := .started, parts := [{ row := 0, off := 0, va := 0, pa := 0, len := 16 }] }] };
      s.holds 0 c 4 .dispatched ∧ s.inFlight 0 ≠ {}) ∧
    (let j : XlateJob := {}; let c := cmdOf 4 0 0 0 0 .running (.xlate j); (withCmd c).holds 0 c 4 .running ∧ (withCmd c).stillFlying j = {}) := by and_intros <;> decide +kernel

/-! ## Witnesses: the Press, gates, the Cutting Room -/

/-- A value at a byte offset of a record. -/
def fieldAt (off v : Nat) : Nat := v * 2 ^ (8 * off)

/-- A Press job of one element in slot 0 (FP32, STATE, USED, based at 0x10000): load it to register 0, store register 0. -/
def pressRec : Nat :=
  fieldAt 0 2 + fieldAt 0x18 1 + fieldAt 0x1C 1 + fieldAt 0x80 (2 ^ 26) + fieldAt 0x84 (2 ^ 27) + fieldAt 0x100 0x10000 + fieldAt 0x110 0xA0

/-- READY with a record of 512 bytes at 0x1000 and a command. -/
def recorded (r : Nat) (c : Cmd) : State := (withCmd c).devWrite 0x1000 (natLE 512 r)

theorem witness_PressCommandsAreCheckedAndPlaced :
    (let c := cmdOf 5 0x1000 0 0 0 .read .none; let s := (recorded 0 c); let x := s.ctx 0;
      s.ready = true ∧ s.ctxEnabled 0 = true ∧ s.ctxState 0 ≠ 3 ∧ s.pollDue 0 = true ∧ s.lostFree ∧
      (s.markPolled 0).hallRead 0 (s.doorbell 0) 0x90 = .ok 0 ∧
      x.wordsBad (s.cmdLog 0) (pageWord 0 0) (pageWord 0 1) (pageWord 0 2)
        (pageWord 0 3) = false ∧ pageWord 0 0 = x.cmdHead ∧
      pageWord 0 3 = x.abtHead ∧ s.holds 0 c 5 .read ∧ c.illegal = false ∧ c.jrec = none ∧ c.aborted = false ∧
      x.cmds = [c] ∧ s.xfer? 0 0 (hallKey 0) = none ∧ s.localAt 0 (c.body 0) 512 0x1000 false ∧
      pjCheck (Memory.readLE s.dev 0x1000 512) 0x1000 = 7) ∧
    (let c := cmdOf 5 0x1000 0 0 0 .read .none; let s := (recorded pressRec c); let r := Memory.readLE s.dev 0x1000 512;
      r = pressRec ∧ s.localAt 0 (c.body 0) 512 0x1000 false ∧ pjCheck r 0x1000 = 0 ∧ pjReserved r = false ∧
      s.translate 0 (slBase r 0) (pjLoads r 0 == 0) = .ok 0x10000 false false ∧ s.space 0x10000 = .loc 0x10000) ∧
    (let c := { cmdOf 5 0x1000 0 0 0 .dispatched .none with jrec := some pressRec, home := (0, [0, 1, 2, 3]) }; let s := withCmd c;
      s.holds 0 c 5 .dispatched ∧ c.jrec = some pressRec ∧ (s.ctx 0).gateDone = []) ∧
    (let c := { cmdOf 5 0x1000 0 0 0 .dispatched .none with jrec := some pressRec }; let g : GateRes := { step := 0, outcome := 5, clip := 0 };
      let s := { withCmd c with ctxs := [(0, { cmds := [c], gateDone := [g] })] }; s.holds 0 c 5 .dispatched ∧
      (s.ctx 0).gateDone.find? (fun g => g.step == c.gateStep) = some g ∧ g.outcome ≠ 0) := by
  and_intros <;> decide +kernel

/-- A Press command of one unit that runs, its unit handed out (`next` 1) or not (`next` 0). -/
def pressJob (next : Nat) : PressJob := { jrec := pressRec, phase := .running, engines := [0, 1, 2, 3], total := 1, next, t := 1 }
def pressCmd (next : Nat) : Cmd := cmdOf 5 0x1000 0 0 0 .running (.press (pressJob next))

/-- Engine P3 working on unit 0 of the command. -/
def engine3 (retries : Nat) : State :=
  { withCmd (pressCmd 1) with press := [(3, { busy := true, ctx := 0, tag := 0, unit := 0, retries })] }

theorem witness_PressEnginesRunTheirUnits :
    (let s := withCmd (pressCmd 0); s.holds 0 (pressCmd 0) 5 .running ∧ (pressJob 0).phase = .running ∧ (s.pressEng 3).busy = false ∧
      s.pressCand 0 0 3 = some 0 ∧ ∀ m < 8, m ≠ 0 → s.pressCand m 0 3 = none) ∧
    (let s := engine3 0; let r := pressRec; let j := pressJob 1; let e := s.pressEng 3; s.holds 0 (pressCmd 1) 5 .running ∧
      s.lostFree ∧ (e.busy = true ∧ e.ctx = 0 ∧ e.tag = 0) ∧ (∀ q < 10, q ≠ 3 → ¬((s.pressEng q).busy = true ∧ (s.pressEng q).ctx = 0 ∧ (s.pressEng q).tag = 0)) ∧
      e.span = 0 ∧ e.bad = false ∧ pjPrecond r = false ∧ pjFactored r = false ∧ pjSlots r = [0] ∧ slKind r 0 = .none ∧ pjLoads r 0 ≠ 0 ∧
      pjStores r 0 ≠ 0 ∧ j.stop = false ∧ j.faultUnit = 0 ∧ j.total ≤ j.next ∧ s.xfer? 0 0 1003 = none ∧
      ceilDiv (pjSpanLen r e.unit * slBits r 0) 8 = 4 ∧ slBase r 0 + 4096 * e.unit * slBits r 0 / 8 = 0x10000 ∧
      s.localAt 0 0x10000 4 0x10000 false ∧ s.localAt 0 0x10000 4 0x10000 true) ∧
    ((engine3 1).pressEng 3).retries < 2 ∧ 2 ≤ ((engine3 2).pressEng 3).retries ∧
    (let r := pressRec + 2 ^ 8; let k := { pressJob 1 with jrec := r }; let c := cmdOf 5 0x1000 0 0 0 .running (.press k);
      let s := { withCmd c with press := [(3, { busy := true, ctx := 0, tag := 0, unit := 0, arrayRetries := 1 })] };
      let t := { s with press := [(3, { busy := true, ctx := 0, tag := 0, unit := 0, arrayRetries := 2 })] };
      s.holds 0 c 5 .running ∧ k.phase = .running ∧ pjPrecond r = true ∧ (s.pressEng 3).span = 0 ∧ (s.pressEng 3).arrayRetries < 2 ∧
      t.holds 0 c 5 .running ∧ 2 ≤ (t.pressEng 3).arrayRetries ∧ k.faultUnit = 0 ∧ k.timeout = false) := by and_intros <;> decide +kernel

/-- A gate command of step 0 with its slot at 0x2000 and 1 ms. -/
def gateCmd (phase : CmdPhase) (job : Job) : Cmd := cmdOf 6 0x2000 0x10000 0 0 phase job

/-- READY, context 0 at gate step 0 with its even bank and its commands as given. -/
def gated (b : GateBank) (cmds : List Cmd) : State := { ready with ctxs := [(0, { cmds, bankEven := b, gateNext := some 0 })] }

theorem witness_GatesResolveInStepOrder :
    (let c := gateCmd .dispatched .none; let s := gated {} [c]; s.holds 0 c 6 .dispatched ∧ c.group = 0 ∧ c.body 0 % 32 = 0) ∧
    (let c := gateCmd .running (.gate {}); let s := gated {} [c]; s.holds 0 c 6 .running ∧ (s.ctx 0).gateNext = some c.gateStep) ∧
    (let j : GateJob := { start := 1 }; let c := gateCmd .running (.gate j); let s := gated {} [c]; s.holds 0 c 6 .running ∧ j.start ≠ 0 ∧
      j.out = none ∧ s.lostFree ∧ c.signalled = false ∧ c.signal = 0 ∧ s.xfer? 0 0 (hallKey 0) = none ∧
      c.gateAbort = false ∧ c.abortRec = false ∧ c.gateMs = 1 ∧ s.localAt 0 (c.body 0) 32 0x2000 true ∧ s.contribsDone 0 c = true ∧
      (∀ d ∈ (s.ctx 0).cmds, ¬(d.op = 5 ∧ d.gateStep = c.gateStep)) ∧ j.start - 1 + c.gateMs * 1000000 ≤ s.now) ∧
    (let j : GateJob := { start := 1 }; let c := { gateCmd .running (.gate j) with tag := 1 }; let k := { pressJob 0 with phase := .gate };
      let d := cmdOf 5 0x1000 0 0 0 .running (.press k); let s := gated { nf := 1 } [d, c]; s.holds 0 c 6 .running ∧ s.holds 0 d 5 .running ∧
      d.gateStep = c.gateStep ∧ k.phase = .gate ∧ (s.ctx 0).bankEven.nf ≠ 0 ∧ s.contribsDone 0 c = true ∧ s.localAt 0 (c.body 0) 32 0x2000 true) ∧
    (let d := gateCmd .running (.gate { start := 1 }); let c := { d with desc := d.desc.set 3 1 }; let s := { gated {} [c] with sync := { table := [(1, { kind := 0 })] } };
      s.holds 0 c 6 .running ∧ c.signalled = false ∧ c.signal = 1 ∧ s.hRemote 1 = false ∧ s.objPoisoned (hIndex 1) = false ∧ (s.obj (hIndex 1)).kind = 0 ∧
      hGen 1 = (s.obj (hIndex 1)).gen ∧ (s.obj (hIndex 1)).abandoned = false ∧ (s.obj (hIndex 1)).hsig = false) := by
  and_intros <;> decide +kernel

/-- The state with this node numbered 1, and a group 1 of nodes 0 and 1: table at 0x7000, list at 0x8000; this node is rank 1. -/
def grouped (s : State) : State :=
  let t := (s.setReg 0x600 1).setReg64 0x618 0x7001
  let u := { t with fab := { t.fab with ports := [(0, { phase := .up })], route := [(0, 0x20)] } }
  (u.devWrite 0x7040 (natLE 2 2 ++ natLE 2 1 ++ natLE 4 0 ++ natLE 8 0x8000)).devWrite 0x8000 (natLE 2 0 ++ natLE 2 1)

/-- A gate of group 1 that has started, its contribution sent or not. -/
def groupGate (sent : Bool) : Cmd := cmdOf 6 0x2000 0x10001 0 0 .running (.gate { start := 1, sent })

/-- The extension header of a frame of group 1 and COLL_SEQ 0. -/
def ext1 (s : State) (kind shard : Nat) : ExtHdr := { group := 1, kind, shard, cfgSeal := s.seal64 }

theorem witness_GroupGatesExchangeFrames :
    (let c := groupGate false; let s := grouped (gated {} [c]); let e : GroupEntry := { p := 2, rank := 1, members := [0, 1], early := 0 };
      s.holds 0 c 6 .running ∧ c.group = 1 ∧ s.group? 1 = some e ∧ s.failedMember e = none ∧ e.root ≠ s.node ∧ c.gateAbort = false ∧
      c.gateMs ≠ 0 ∧ s.contribsDone 0 c = true ∧ c.job = .gate { start := 1 } ∧ s.route 0 s.node e.root = some (0, false)) ∧
    (let s1 := grouped ready; let f : Frame := { opc := 0x13, ext := some (ext1 s1 4 0) }; let s := { s1 with fab := { s1.fab with inbox := [f] } };
      s.takeOpc 0x13 = some (f, { s with fab := { s.fab with inbox := [] } }) ∧ (s.group? 1).map (·.members) = some [0, 1] ∧ f.src ∈ [0, 1] ∧
      s.fab.orphans = [] ∧ (0 + 65536 - s.seqBase 1) % 65536 < 32768 ∧ (ext1 s1 4 0).cfgSeal = s.seal64) ∧
    (let c := groupGate true; let s1 := grouped (gated {} [c]); let f : Frame := { opc := 0x14, ext := some (ext1 s1 4 0) };
      let s := { s1 with fab := { s1.fab with inbox := [f] } }; (s.takeOpc 0x14).map (·.1) = some f ∧ s.holds 0 c 6 .running ∧ c.group = 1 ∧ c.seq = 0 ∧
      (∀ q ∈ s.ctxs, ∀ d ∈ q.2.cmds, d.op = 6 → d.group = 1 → d.seq = 0 → d.phase = .running → q.1 = 0 ∧ d = c) ∧ c.gateMs ≠ 0 ∧
      c.abortRec = false ∧ c.signal = 0 ∧ s.lostFree ∧ s.xfer? 0 0 (hallKey 0) = none ∧ s.localAt 0 (c.body 0) 32 0x2000 true ∧ ∀ d ∈ (s.ctx 0).cmds, ¬(d.op = 5 ∧ d.gateStep = c.gateStep)) := by
  and_intros <;> decide +kernel

/-- An ingest job of one sample: table 0x3000, FETCH 0x4000000, POOL 0x10000, EMIT 0x20000, STATE 0x30000, FREE object 0; records of 448
bytes in slots of 512, 80 slots, a window of 2, BF16 pictures of one 8 by 8 patch, West. -/
def ingestRec (count : Nat) : Nat :=
  fieldAt 0 2 + fieldAt 6 1 + fieldAt 0x10 0x3000 + fieldAt 0x1C count + fieldAt 0x28 0x4000000 + fieldAt 0x30 0x10000 + fieldAt 0x38 0x20000 +
    fieldAt 0x40 0x30000 + fieldAt 0x60 512 + fieldAt 0x64 80 + fieldAt 0x66 2 + fieldAt 0x68 4 + fieldAt 0x78 8 + fieldAt 0x7A 8 +
    fieldAt 0x7C 8 + fieldAt 0x7D 8 + fieldAt 0x7E 1 + fieldAt 0x80 1 + fieldAt 0x82 1 + fieldAt 0x84 (2 ^ 4 + 2 ^ 11 + 2 ^ 15) + fieldAt 0xA2 1 +
    fieldAt 0xA3 1

/-- A table entry: LENGTH 64, CLIPS 1, KIND, VSEL 1. -/
def tableEntry (kind : Nat) : Nat := fieldAt 0x10 64 + fieldAt 0x14 (kind * 2 ^ 14) + fieldAt 0x1A 1 + fieldAt 0x1C 1

/-- An ingest command that runs. -/
def ingestCmd (j : IngestJob) : Cmd := cmdOf 7 0x1000 0 0 0 .running (.ingest j)

/-- A poll that finds an INGEST: its record passes every check, or fails one. -/
theorem witness_PollsReadWordsDescriptorsAndAborts_ingest :
    (let s0 := polled {} 1 0 7; let s := ({ s0 with host := Memory.setBytes s0.host 0x10020 (natLE 8 0x1000) }).devWrite 0x1000 (natLE 256 (ingestRec 1));
      let v := s.hostRead (s.headSlot 0) 64; let c : Cmd := { tag := 0, desc := descWords v }; c.op = 7 ∧ c.illegal = false ∧ c.body 0 = 0x1000 ∧
      c.reservedSet = false ∧ s.pollDue 0 = true ∧ (s.markPolled 0).hallRead 0 (s.doorbell 0) 0x90 = .ok (pageOf 1 0) ∧
      s.localAt 0 (c.body 0) 256 0x1000 false ∧ Memory.readLE s.dev 0x1000 256 = ingestRec 1 ∧ ijReserved (ingestRec 1) = false ∧
      ijCheck (ingestRec 1) 0x1000 = 0) ∧
    (ijReserved 0 = false ∧ ijCheck 0 0x1000 ≠ 0) := by and_intros <;> decide +kernel

/-- The sample at position 0 whose engines decode it. -/
def decoding (kind : Nat) (reqs : List RsReq) : RoomSample := { share := 0, pos := 0, index := 0, entry := tableEntry kind, slots := [5], reqs }

/-- A transport stream packet that starts a payload, its PID and first payload bytes given. -/
def tsPacket (pid : Nat) (l : List Nat) : List Byte :=
  (([0x47, 0x40 + pid / 256, pid % 256, 0x10] ++ l).map (BitVec.ofNat 8)) ++ List.replicate (184 - l.length) 0

/-- A stream of PAT, PMT and one PES packet: program 1 with its PMT on PID 0x100, H.264 video (stream_type 0x1B) on PID 0x101, a PES
packet with PTS 0. -/
def tsBytes : List Byte :=
  tsPacket 0 [0, 0, 0xB0, 13, 0, 1, 0xC1, 0, 0, 0, 1, 0xE1, 0, 0, 0, 0, 0, 0xFF] ++
    tsPacket 0x100 [0, 2, 0xB0, 18, 0, 1, 0xC1, 0, 0, 0xE1, 1, 0xF0, 0, 0x1B, 0xE1, 1, 0xF0, 0, 0, 0, 0, 0, 0xFF] ++
    tsPacket 0x101 [0, 0, 1, 0xE0, 0, 0, 0x80, 0x80, 5, 0x21, 0, 1, 0, 1, 7]

/-- The entry of the stream: LENGTH 564, KIND 1, CLIPS 1, VSEL 0x101. -/
def tsEntry : Nat := fieldAt 0x10 564 + fieldAt 0x14 (2 ^ 14) + fieldAt 0x1A 1 + fieldAt 0x1C 0x101

/-- Its video stream. -/
def tsVideo : EsStream := { codec := 2, units := [{ data := [7] ++ List.replicate 169 0, pts := some 0 }] }

/-- The demultiplexer finds the stream's codec in the PMT, its PES packet and its time (R317, R319). -/
theorem test_demux_ts : demuxTs (teSelect tsEntry) tsBytes = .streams tsVideo none := by decide +kernel

/-- A range whose sync bytes stand at no packet spacing, a set transport_error_indicator, a scrambled packet, a selected PID that no PMT
names (R319, R342). -/
theorem test_demux_ts_drops : demuxTs (teSelect tsEntry) (List.replicate 564 0) = .drop dropContainer ∧
    demuxTs (teSelect tsEntry) (tsBytes.set 1 0xC0) = .drop dropContainer ∧ demuxTs (teSelect tsEntry) (tsBytes.set 379 0x90) = .drop dropProtected ∧
    demuxTs (teSelect tsEntry) (tsBytes.drop 376) = .drop dropContainer := by decide +kernel

/-- An ISO file with no moov box (R319, R342). -/
theorem test_demux_iso_drops : demuxIso (teSelect (tsEntry + fieldAt 0x14 (2 ^ 16))) (natBE 4 8 ++ [0x66, 0x72, 0x65, 0x65]) = .drop dropContainer := by
  decide +kernel

/-- One decoded picture of 8 by 8, no chroma. -/
def onePicture : CodedPic := { idr := true, profile := .h264High, level := 30, chroma := 0, w := 8, h := 8, y := List.replicate 64 16 }

/-- Whether a cut sample is one record of a length. -/
def oneRecord (n : Nat) (x : CutRes) : Bool := match x with | .records [l] => l.length == n | _ => false

/-- The stream of one picture is cut to one record, whatever the free values, where the decoder finds that picture in its units. -/
theorem cut_one_record (h : Config.videoPics tsVideo.codec tsVideo.config tsVideo.units = [onePicture]) :
    ∃ rec1, cutSample (ingestRec 1) tsEntry 0 0 tsBytes = .records [rec1] ∧ rec1.length = 448 := by
  have h1 : oneRecord 448 (cutStreams (ingestRec 1) tsEntry 0 0 tsVideo none) = true := by
    unfold cutStreams
    rw [h]
    decide +kernel
  have h2 : cutSample (ingestRec 1) tsEntry 0 0 tsBytes = cutStreams (ingestRec 1) tsEntry 0 0 tsVideo none := by
    have hd : (if teIso tsEntry then demuxIso (teSelect tsEntry) tsBytes else demuxTs (teSelect tsEntry) tsBytes) = .streams tsVideo none := by
      rw [show teIso tsEntry = false by decide +kernel, test_demux_ts]; rfl
    rw [cutSample, hd]
  rw [h2]
  revert h1
  cases cutStreams (ingestRec 1) tsEntry 0 0 tsVideo none with
  | drops r => intro h1; cases h1
  | records l => match l with
    | [] => intro h1; cases h1
    | [x] => intro h1; exact ⟨x, rfl, by simpa [oneRecord] using h1⟩
    | _ :: _ :: _ => intro h1; cases h1

theorem witness_SamplesEnterTheWindowInOrder :
    (let c := { cmdOf 7 0x1000 0 0 0 .dispatched .none with jrec := some (ingestRec 1) }; let s := withCmd c; let r := ingestRec 1; s.lostFree ∧
      s.holds 0 c 7 .dispatched ∧ ijReserved r = false ∧ ijCheck r (c.body 0) = 0 ∧
      s.localAt 0 (ijState r) (64 + 4 * ijSlots r) 0x30000 false ∧ s.localAt 0 (ijEmit r) (8 * 2 ^ ijEmitLog r) 0x20000 false ∧
      s.xfer? 0 0 0 = none ∧ Memory.readLE s.dev 0x30000 8 = 0) ∧
    (let j : IngestJob := { jrec := ingestRec 1 }; let c := ingestCmd j; let s := (withCmd c).devWrite 0x3000 (natLE 32 (tableEntry 0) ++ natLE 32 (tableEntry 0));
      let idx := samplePi (ijSeed j.jrec) (ijN j.jrec) (j.next * ijReplicas j.jrec + ijReplica j.jrec); let a := 0x3000 + 32 * idx;
      s.holds 0 c 7 .running ∧ j.ending = none ∧ j.pend = [] ∧ j.win.length + 1 < ijWindow j.jrec ∧ j.count < ijCount j.jrec ∧
      s.enginesBusy 0 < 16 ∧ s.roomCmds 0 = [0] ∧ j.samples = [] ∧ s.localAt 0 (ijTable j.jrec + 32 * idx) 32 a false ∧
      s.xfer? 0 0 3 = none ∧ teBad j.jrec (Memory.readLE s.dev a 32) = false ∧ teKind (Memory.readLE s.dev a 32) = 0 ∧ s.lostFree ∧
      s.freeEngines 0 ≠ [] ∧ teClips (Memory.readLE s.dev a 32) ≤ j.freeSlots.length) ∧
    (let j : IngestJob := { jrec := ingestRec 1, out := List.range 80 }; let c := ingestCmd j;
      let s := (withCmd c).devWrite 0x3000 (natLE 32 (tableEntry 0) ++ natLE 32 (tableEntry 0)); s.holds 0 c 7 .running ∧ s.roomCmds 0 = [0] ∧
      teClips (Memory.readLE s.dev 0x3000 32) = 1 ∧ teClips (Memory.readLE s.dev 0x3020 32) = 1 ∧ j.freeSlots.length < 1) ∧
    (let x := { decoding 1 [] with entry := tsEntry, src := Memory.setBytes [] 0 tsBytes };
      let j : IngestJob := { jrec := ingestRec 1, next := 1, samples := [x] }; let c := ingestCmd j; let s := withCmd c; s.lostFree ∧
      s.holds 0 c 7 .running ∧ x.how = .running ∧ x.poisoned = false ∧ (∀ q ∈ x.reqs, q.done = true) ∧ teReserved x.entry = false ∧
      teKind x.entry = 1 ∧ j.next < ijPositions j.jrec ∧ s.xfer? 0 0 1000 = none ∧ s.xfer? 0 0 1001 = none ∧
      Memory.bytes x.src 0 (teLength x.entry) = tsBytes ∧ x.slots = [5] ∧
      s.localAt 0 (ijPool j.jrec + 5 * ijSlotBytes j.jrec) 448 0x10A00 true) ∧
    (let x := { decoding 1 [] with entry := tsEntry }; teReserved x.entry = false ∧
      cutSample (ingestRec 1) x.entry 0 0 (Memory.bytes x.src 0 (teLength x.entry)) = .drops [dropContainer]) ∧
    (let x := decoding 0 []; let j : IngestJob := { jrec := ingestRec 1, next := 1, samples := [x] }; let s := withCmd (ingestCmd j);
      teKind x.entry = 0 ∧ s.localAt 0 (recField x.entry 0 8) (teLength x.entry) 0 false ∧ s.lostFree ∧
      cutSample j.jrec x.entry 0 0 (Memory.bytes s.dev 0 (teLength x.entry)) = .drops [dropContainer]) ∧
    (Config.videoPics tsVideo.codec tsVideo.config tsVideo.units = [onePicture] →
      ∃ rec1, cutSample (ingestRec 1) tsEntry 0 0 tsBytes = .records [rec1] ∧ rec1.length = 448) := by
  refine ⟨?_, ?_, ?_, ?_, ?_, ?_, cut_one_record⟩ <;> decide +kernel

/-- READY with an ingest command, one sample of it under way by a read-service request for object bytes 0 to 64, transaction 0 of
generation 0, and object 0 of the table as given. -/
def fetching (q : RsReq) (j : IngestJob) (f : Frame) (e : SyncEntry) : State :=
  { withCmd (ingestCmd { j with jrec := ingestRec 1, next := 1, samples := [decoding 1 [q]] }) with
    sync := { table := [(0, e)] }
    fab := { inbox := [f], txns := [(0, { active := true, owner := .rs 0 0 0 0 })] } }

/-- RS_DATA of 64 bytes, RS_DONE with a status. -/
def rsData : Frame := { opc := 0x21, payload := List.replicate 64 1 }
def rsDone (status : Nat) : Frame := { opc := 0x22, status }

theorem witness_ReleasesAndReadServiceFrames :
    (let j : IngestJob := { jrec := ingestRec 1, next := 1, samples := [decoding 1 []], out := [7] ++ List.range 4 ++ List.range' 8 12 };
      let j := { j with out := List.range 80, wants := 1 };
      let c := ingestCmd j; let s := cmdObj c { kind := 0, counter := 1 }; s.holds 0 c 7 .running ∧ j.win.length < ijWindow j.jrec ∧
      j.count < ijCount j.jrec ∧ (decoding 1 []).how = .running ∧ j.needsFree = true ∧ Store.get 0 s.roomWait 0 = 0 ∧ ijFree j.jrec = 0 ∧
      s.hRemote 0 = false ∧ s.objPoisoned 0 = false ∧ (s.obj 0).kind = 0 ∧ hGen 0 = (s.obj 0).gen ∧ 1 ≤ (s.obj 0).counter) ∧
    (let q : RsReq := { off := 0, len := 64, sent := true }; let s := fetching q {} rsData { kind := 0 }; let y := decoding 1 [q];
      (s.takeOpc 0x21).map (·.1) = some rsData ∧ (s.txn? 0).map (·.owner) = some (.rs 0 0 0 0) ∧ y.reqs[0]? = some q ∧ q.off ≤ rsData.addr ∧
      rsData.addr + rsData.len ≤ q.off + q.len ∧ 0 < rsData.len ∧ rsData.operand = recField y.entry 8 8 ∧ q.got = [] ∧ rsData.poison = 0 ∧
      s.xfer? 0 0 1000 = none ∧ s.lostFree ∧ (y.fetch + (rsData.addr - recField y.entry 0 8)) % 0x4000000 = 0 ∧
      s.localAt 0 (fetchBase (ingestRec 1) 0 + 0) 64 0x4000000 true) ∧
    (let q : RsReq := { off := 0, len := 64, sent := true, got := [(0, 64)] }; let s := fetching q {} (rsDone 0) { kind := 0 };
      (s.takeOpc 0x22).map (·.1) = some (rsDone 0) ∧ (q.got.map (fun g => g.2 - g.1)).sum = q.len ∧ q.sent = true) ∧
    (let q : RsReq := { off := 0, len := 64, sent := true }; let s := fetching q {} (rsDone 1) { kind := 0 };
      (s.takeOpc 0x22).map (·.1) = some (rsDone 1) ∧ (rsDone 1).status ≠ 0 ∧ 1 < ijPositions (ingestRec 1) ∧
      (s.txn? 0).map (fun x => decide (x.sentAt + 20000 ≤ s.now)) = some true) ∧
    (cmdObj (ingestCmd {}) { kind := 0 }).obj 0 = { kind := 0, counter := 0 } := by and_intros <;> decide +kernel

/-! ## Witnesses: the mesh, its commands, collectives, fabric multicast -/

/-- A reduction flit of command 0 of context 0 toward Crossing 35, chunk 0, with one contribution of `total`. -/
def redFlit (total : Nat) : Flit := { vc := 3, dst := 35, kind := .reduce 0 0 0 1 total (List.replicate 128 0) [] }

/-- READY with the mesh as given. -/
def meshed (m : Mesh) : State := { ready with mesh := m }

theorem witness_CrossingsCarryFlitsAndAddPackets :
    (let p : MeshPkt := { vc := 3, dst := 35, port := 5, payload := List.replicate 512 7 }; 35 < 36 ∧ p.vc < 4 ∧ p.payload.length ≤ 512 ∧
      ready.meshLink 0 4 = [] ∧ ∀ q < 7, ready.meshBuf 0 q = []) ∧
    ((35 ≠ 17 ∧ meshOut 17 35 = 5) ∧ (∀ y q, ready.meshBuf y q = []) ∧
      ∀ d, Store.get [] ready.mem.seamReqs d = [] ∧ Store.get [] ready.mem.seamDone d = []) ∧
    (let s := meshed { links := [(0 * 8 + 1, [redFlit 2])] }; s.meshLink 0 1 ≠ [] ∧ s.ready = true ∧ s.fld 0x830 16 16 = 256 ∧
      (s.unitErr 7 0).window + 1 ≤ s.fld 0x830 16 16 ∧ s.meshLink 0 1 = redFlit 2 :: [] ∧ s.mesh.held = []) ∧
    (let h : HeldPkt := { crossing := 0, since := 0, flit := redFlit 3 }; let s := meshed { links := [(1, [redFlit 3])], held := [h] };
      s.mesh.held = [h] ∧ h.crossing = 0 ∧ h.flit.kind = .reduce 0 0 0 1 3 (List.replicate 128 0) [] ∧ 1 + 1 < 3 ∧ s.meshLink 0 1 = redFlit 3 :: []) ∧
    (let h : HeldPkt := { crossing := 0, since := 0, flit := redFlit 2 }; let s := meshed { links := [(1, [redFlit 2])], held := [h] };
      s.mesh.held = [h] ∧ h.flit.kind = .reduce 0 0 0 1 2 (List.replicate 128 0) [] ∧ 2 ≤ 1 + 1) ∧
    (let h : HeldPkt := { crossing := 0, since := 999981, flit := redFlit 2 }; let s := meshed { held := [h] };
      s.mesh.held.find? (fun h => h.crossing == 0) = some h ∧ h.since + s.meshNs (0 / 18) 32 ≤ s.now) := by
  and_intros <;> first | decide +kernel | exact fun _ => ⟨rfl, rfl⟩ | exact fun _ _ => rfl

/-- MREDUCE of two sources, 128 FP32 elements, to engine 35: list at 0x1000, destination 0x20000. -/
def redCmd (phase : CmdPhase) (job : Job) : Cmd := cmdOf 8 0x1000 0x20000 (2 + 35 * 2 ^ 10 + 128 * 2 ^ 32) 0 phase job

theorem witness_MeshReducesSumTheirSources :
    (let c := redCmd .dispatched .none; let s := (withCmd c).devWrite 0x1000 (natLE 8 0x3000 ++ natLE 8 0 ++ natLE 8 0x4000 ++ natLE 8 35);
      s.holds 0 c 8 .dispatched ∧ c.redCount = 2 ∧ c.redLen = 128 ∧ sumFmts c.redIn c.redOut = true ∧ c.redEngine = 35 ∧ bitOf (c.body 2) 9 = false ∧
      bitsOf (c.body 2) 25 7 = 0 ∧ s.localAt 0 (c.body 0) 32 0x1000 false ∧ s.xfer? 0 0 0 = none ∧
      ∀ i < 2, Memory.readLE s.dev (0x1000 + 16 * i + 8) 8 < 36) ∧
    (let j : ReduceJob := { srcs := [(0x3000, 0), (0x4000, 35)], sent := [1, 0], total := 1 }; let c := redCmd .running (.reduce j); let s := withCmd c;
      s.holds 0 c 8 .running ∧ 1 < c.redCount ∧ j.sent.getD 1 j.total < j.total ∧ s.xfer? 0 0 1 = none ∧
      s.localAt 0 ((j.srcs.getD 1 (0, 0)).1 + 128 * sumBytes c.redIn * 0) (128 * sumBytes c.redIn) 0x4000 false) ∧
    (let j : ReduceJob := { srcs := [(0x3000, 0), (0x4000, 35)], sent := [1, 1], total := 1, chunks := [(0, { count := 2, words := List.replicate 128 1 })] };
      let c := redCmd .running (.reduce j); let s := withCmd c; let x := (Store.get {} j.chunks 0 : ChunkAcc);
      s.holds 0 c 8 .running ∧ 0 < j.total ∧ Store.get false j.written 0 = false ∧ c.redCount + b2n c.redAcc ≤ x.count ∧ c.redAcc = false ∧ x.bad = [] ∧
      x.words.length = 128 ∧ s.xfer? 0 0 1000 = none ∧ s.localAt 0 (c.body 1 + 0) (128 * sumBytes c.redOut) 0x20000 true) := by
  and_intros <;> decide +kernel

/-- MMCAST of 513 bytes from 0x3000 at engine 35 to one target: list at 0x1000. -/
def mcCmd (phase : CmdPhase) (job : Job) : Cmd := cmdOf 9 0x3000 0x1000 (513 + 35 * 2 ^ 25 + 2 ^ 32) 0 phase job

/-- The job of such a command with its next packet as given. -/
def mcJob (next firstAt : Nat) : McastJob := { targets := [(0x20000, 0)], total := 2, next, counts := [0], firstAt }

theorem witness_MeshMulticastsReachEveryTarget :
    (let c := mcCmd .dispatched .none; let s := (withCmd c).devWrite 0x1000 (natLE 8 0x20000 ++ natLE 8 0); s.holds 0 c 9 .dispatched ∧
      c.mcTargets = 1 ∧ c.mcLen = 513 ∧ c.mcEngine = 35 ∧ bitOf (c.body 2) 31 = false ∧ c.body 2 < 2 ^ 39 ∧
      s.localAt 0 (c.body 1) (16 * 1) 0x1000 false ∧ s.xfer? 0 0 0 = none ∧ ∀ i < 1, Memory.readLE s.dev (0x1000 + 16 * i + 8) 8 < 36) ∧
    (let j := mcJob 1 1; let c := mcCmd .running (.mcast j); let s := withCmd c; s.holds 0 c 9 .running ∧ j.next < j.total ∧ s.xfer? 0 0 j.next = none ∧
      s.localAt 0 (c.body 0 + 512 * j.next) (min 512 (c.mcLen - 512 * j.next)) 0x3200 false) ∧
    (let j := mcJob 1 1; let c := mcCmd .running (.mcast j);
      let b : McastBuf := { engine := 0, ctx := 0, tag := 0, target := 0, packet := 0, bytes := List.replicate 512 1, bad := [] };
      let s := { withCmd c with mesh := { recv := [b] } }; s.holds 0 c 9 .running ∧
      s.mesh.recv.find? (fun b => b.ctx == 0 && b.tag == c.tag && b.target == 0) = some b ∧ b.bad = [] ∧ s.xfer? 0 0 1000000 = none ∧
      s.localAt 0 ((j.targets.getD 0 (0, 0)).1 + 512 * b.packet) b.bytes.length 0x20000 true) ∧
    (let j := mcJob 2 1; let c := mcCmd .running (.mcast j); let r : McastResend := { ctx := 0, tag := 0, target := 0, packet := 1, since := 0 };
      let s := { withCmd c with mesh := { resends := [r] } }; s.holds 0 c 9 .running ∧
      s.mesh.resends.find? (fun r => r.ctx == 0 && r.tag == c.tag) = some r ∧ r.since + s.meshNs (c.mcEngine / 18) 256 ≤ s.now ∧
      s.xfer? 0 0 1 = none ∧ s.localAt 0 (c.body 0 + 512) 1 0x3200 false) ∧
    (let j := mcJob 2 980001; j.firstAt ≠ 0 ∧ j.firstAt - 1 + 20000 ≤ ready.now) := by and_intros <;> decide +kernel

/-- GATHER or SCATTER of one row of 4 bytes: indices at 0x1000, table at 0x3000, data at 0x20000, row stride 4. -/
def gaCmd (op add : Nat) (phase : CmdPhase) (job : Job) : Cmd :=
  { desc := [BitVec.ofNat 64 op, 0, 4#64 <<< 32, 0, 0x1000, 0x3000, 0x20000, BitVec.ofNat 64 (4 + add * 2 ^ 23 + 2 ^ 32)], phase, job }

theorem witness_GathersAndScattersMoveRows :
    (let c := gaCmd 0x0A 0 .dispatched .none; (withCmd c).holds 0 c 0x0A .dispatched ∧ c.gaOk = true ∧ c.gaCount = 1) ∧
    (let c := gaCmd 0x0B 1 .dispatched .none; (withCmd c).holds 0 c 0x0B .dispatched ∧ c.gaOk = true) ∧
    (let j : GatherJob := { total := 1 }; let c := gaCmd 0x0A 0 .running (.gather j); let s := withCmd c; s.holds 0 c 0x0A .running ∧ 0 < j.total ∧
      Store.get false j.finished 0 = false ∧ Store.get 0 j.index 0 = 0 ∧ s.xfer? 0 0 0 = none ∧ s.xfer? 0 0 1 = none ∧ c.gaOk = true ∧
      s.localAt 0 (c.body 0) 4 0x1000 false ∧ s.localAt 0 (c.body 1 + Memory.readLE s.dev 0x1000 4 * c.gateStep) c.gaBytes 0x3000 false ∧
      s.localAt 0 (c.body 2) c.gaBytes 0x20000 true) ∧
    (let j : GatherJob := { total := 1 }; let c := gaCmd 0x0B 1 .running (.gather j); let s := withCmd c; s.holds 0 c 0x0B .running ∧ c.gaAdd = true ∧
      s.localAt 0 (c.body 1) c.gaBytes 0x3000 false ∧ s.localAt 0 (c.body 1) c.gaBytes 0x3000 true ∧ s.localAt 0 (c.body 2) c.gaBytes 0x20000 false) ∧
    (let j : GatherJob := { total := 1 }; let c := gaCmd 0x0B 0 .running (.gather j); (withCmd c).holds 0 c 0x0B .running ∧ c.gaAdd = false) := by
  and_intros <;> decide +kernel

/-- A collective of group 1, FP32 throughout, of 2,048 elements from 0x100000 + 0x100000 to 0x400000. -/
def collCmd (kind : Nat) (phase : CmdPhase) (job : Job) : Cmd :=
  cmdOf 0x0C 0x200000 0x400000 (kind + 2 ^ 2 + 2048 * 2 ^ 32) 0 phase job

/-- The job of a collective on the member of rank 1. -/
def collJob : CollJob := { p := 2, rank := 1, members := [0, 1] }

theorem witness_CollectivesRunTheRing :
    (let c := collCmd 1 .dispatched .none; let s := grouped (withCmd c); let e : GroupEntry := { p := 2, rank := 1, members := [0, 1], early := 0 };
      s.holds 0 c 0x0C .dispatched ∧ s.group? c.group = some e ∧ c.collKind ≠ 0 ∧ bitsOf (c.body 2) 26 6 = 0 ∧ c.collOk e.p = true ∧ 0 < c.collLen ∧
      (∀ m ∈ e.members, s.nodeFailed m = false) ∧ s.fab.early = [] ∧ s.fab.withheld = []) ∧
    (let c := cmdOf 0x0C 0x200000 0x400000 (1 + 2 ^ 2 + 2047 * 2 ^ 32) 0 .dispatched .none; (grouped (withCmd c)).holds 0 c 0x0C .dispatched ∧
      c.collOk 2 = false) ∧
    (let c := collCmd 3 .running (.coll collJob); let s := grouped (withCmd c); let j := collJob; s.holds 0 c 0x0C .running ∧ j.done ≠ c.collChunks j ∧
      c.collKind = 3 ∧ j.own < j.chunksOf c ∧ s.xfer? 0 0 0 = none ∧ s.engXlate 0 (j.srcAt c 0 j.own) (chunkBytes c.collIn) false = .ok [(0x200000, 0x200000, 4096)] ∧
      s.poison = [] ∧ s.route 3 s.node j.next = some (0, false)) ∧
    (let c := collCmd 1 .running (.coll collJob); let s1 := grouped (withCmd c); let j := collJob; let x := ext1 s1 1 1;
      let f : Frame := { opc := 0x10, ext := some x, payload := List.replicate 4096 0 }; let s := { s1 with fab := { s1.fab with inbox := [f] } };
      (s.takeOpc 0x10).map (·.1) = some f ∧ s.collAt x.group x.seq = some (0, c, true) ∧ c.collKind = 1 ∧ x.phase = 0 ∧ 2 ≤ j.p ∧
      j.dist x.shard = j.p - 1 ∧ x.shard < j.p ∧ x.chunk < j.chunksOf c ∧ f.poison = 0 ∧ f.payload.length = chunkBytes x.wire ∧
      sumFmts c.collIn c.collOut = true ∧ sumFmts c.collIn x.wire = true ∧ c.gateSq = false ∧ s.xfer? 0 0 (j.chunkKey c 0 x.shard x.chunk) = none ∧
      s.engXlate 0 (j.srcAt c x.shard x.chunk) (chunkBytes c.collIn) false = .ok [(0x201000, 0x201000, 4096)] ∧
      s.engXlate 0 (j.dstAt c x.shard x.chunk) (chunkBytes c.collOut) true = .ok [(0x400000, 0x400000, 4096)]) := by 
  and_intros <;> first | decide +kernel | rfl

theorem witness_CollectivesLiveAndEndTogether :
    (let c := collCmd 1 .running (.coll collJob); let s1 := grouped (withCmd c); let x := ext1 s1 1 0; let f : Frame := { opc := 0x11, ext := some x };
      let s := { s1 with fab := { s1.fab with inbox := [f] } }; s.holds 0 c 0x0C .running ∧ (s.takeOpc 0x11).map (·.1) = some f ∧
      s.collAt x.group x.seq = some (0, c, true) ∧ x.cfgSeal = s.seal64) ∧
    (let c := collCmd 1 .running (.coll collJob); let s1 := grouped (withCmd c); let x := ext1 s1 1 0;
      let f : Frame := { opc := 0x12, src := 0, operand := 1, ext := some x }; let s := { s1 with fab := { s1.fab with inbox := [f] } };
      (s.takeOpc 0x12).map (·.1) = some f ∧ (s.group? x.group).map (fun e => (e.prev, e.next, e.members.getD x.rank 0)) = some (0, 0, 0) ∧ x.kind ≠ 4) ∧
    (let c := collCmd 1 .running (.coll collJob); let s1 := grouped (withCmd c); let x := { ext1 s1 1 0 with rank := 1 };
      let f : Frame := { opc := 0x12, src := 0, operand := 3, ext := some x }; let s := { s1 with fab := { s1.fab with inbox := [f] } };
      (s.group? x.group).map (fun e => decide (e.next = e.members.getD x.rank 0)) = some false ∧ s.route 0 s.node 0 = some (0, false)) ∧
    (let j := { collJob with sentPrev := 1000000 }; let s := grouped ready; j.sentNext + 25000 ≤ s.now ∧ s.now < j.sentPrev + 25000 ∧
      s.route 0 s.node j.next = some (0, false)) ∧ collJob.heardNext + 100000 ≤ (grouped ready).now := by and_intros <;> decide +kernel

/-- FMCAST of 4,104 bytes from 0x3000 to offset 0x5000 of node 1: list at 0x1000. -/
def fmCmd (phase : CmdPhase) (job : Job) : Cmd := cmdOf 0x0D 0x3000 0x1000 (4104 + 2 ^ 32) 0 phase job

/-- Its job. -/
def fmJob (next firstAt : Nat) : McastJob := { targets := [(0x5000, 1)], total := 2, next, counts := [0], firstAt }

theorem witness_FabricMulticastsSendToEachTarget :
    (let c := fmCmd .dispatched .none; let s := linked ((withCmd c).devWrite 0x1000 (natLE 8 0x5000 ++ natLE 8 1)); s.holds 0 c 0x0D .dispatched ∧
      c.mcTargets = 1 ∧ c.mcLen = 4104 ∧ c.mcLen % 8 = 0 ∧ bitsOf (c.body 2) 25 7 = 0 ∧ c.body 2 < 2 ^ 39 ∧
      s.localAt 0 (c.body 1) (16 * 1) 0x1000 false ∧ s.xfer? 0 0 0 = none ∧ ∀ i < 1, Memory.readLE s.dev (0x1000 + 16 * i) 8 % 8 = 0 ∧
        Memory.readLE s.dev (0x1000 + 16 * i) 8 < 2 ^ 41 ∧ Memory.readLE s.dev (0x1000 + 16 * i + 8) 8 < 2 ^ 14) ∧
    (let j := fmJob 1 1; let c := fmCmd .running (.mcast j); let s := linked (withCmd c); s.holds 0 c 0x0D .running ∧ j.targets = [(0x5000, 1)] ∧
      j.dead = [] ∧ 1 ≠ s.node ∧ s.nodeFailed 1 = false ∧ s.route 3 s.node 1 = some (0, false) ∧ j.next < j.total ∧ s.xfer? 0 0 j.next = none ∧
      s.localAt 0 (c.body 0 + 4096 * j.next) (min 4096 (c.mcLen - 4096 * j.next)) 0x4000 false) ∧
    (let j := fmJob 2 1; let c := fmCmd .running (.mcast j); let r : FabResend := { ctx := 0, tag := 0, target := 0, frame := { addr := 0x5000 + 4096 }, due := 0 };
      let s1 := linked (withCmd c); let s := { s1 with fab := { s1.fab with resends := [r] } };
      s.fab.resends.find? (fun r => r.ctx == 0 && r.tag == c.tag) = some r ∧ r.due ≤ s.now ∧ s.xfer? 0 0 1004096 = none ∧
      s.localAt 0 (c.body 0 + 4096) (min 4096 (c.mcLen - 4096)) 0x4000 false) ∧
    (fmJob 2 980001).firstAt - 1 + 20000 ≤ ready.now := by and_intros <;> decide +kernel

/-! ## Witnesses: the host's sync commands, contexts, the Square, upkeep -/

/-- A free entry of generation 0. -/
def freeObj : SyncEntry := {}

theorem witness_HostSyncCommandsActOnTheTable :
    (let c := cmdOf 0x10 (1 <<< 32 + 1 <<< 16 + 65535) (2 ^ 48 - 1) (2 ^ 13 - 1) 0 .dispatched .none; let s := withCmd c; s.holds 0 c 0x10 .dispatched ∧
      bitsOf (c.body 0) 18 14 = 0 ∧ c.body 0 < 2 ^ 48 ∧ c.body 1 < 2 ^ 48 ∧ c.body 2 < 2 ^ 13 ∧ bitsOf (c.body 0) 16 2 ≠ 3 ∧
      ¬(bitsOf (c.body 0) 16 2 = 1 ∧ bitsOf (c.body 0) 32 16 = 0) ∧ s.objPoisoned 65535 = false ∧ (s.obj 65535).kind = 3 ∧ s.initHeld 65535 = false) ∧
    (let c := cmdOf 0x10 0 0 0 0 .dispatched .none; let s := { withCmd c with sync := { retired := [(0, 1000000)] } };
      s.holds 0 c 0x10 .dispatched ∧ (s.obj 0).kind = 3 ∧ s.initHeld 0 = true) ∧
    (let c := cmdOf 0x10 0 0 0 0 .running .none; let s := { withCmd c with sync := { retired := [(0, 900001)] } };
      s.holds 0 c 0x10 .running ∧ (s.obj 0).kind = 3 ∧ s.initHeld 0 = false) ∧
    (let c := cmdOf 0x11 0 0 0 0 .dispatched .none; let s := cmdObj c { kind := 2, gen := 1 }; s.holds 0 c 0x11 .dispatched ∧ s.hRemote 0 = false ∧
      s.objPoisoned 0 = false ∧ hGen 0 ≠ (s.obj 0).gen) ∧
    (let c := cmdOf 0x11 (255 <<< 16) 0 0 0 .dispatched .none; let s := cmdObj c { kind := 2, gen := 255 }; s.holds 0 c 0x11 .dispatched ∧
      255 <<< 16 < 2 ^ 39 ∧ s.hRemote (255 <<< 16) = false ∧ (s.obj 0).kind ≠ 3 ∧ hGen (255 <<< 16) = (s.obj 0).gen) ∧
    (let c := cmdOf 0x12 0 1 0 0 .dispatched .none; let s := cmdObj c { kind := 1, participants := 1, counter := 1 }; s.holds 0 c 0x12 .dispatched ∧
      s.hRemote 0 = false ∧ (s.signalObj 0 1 0).1 = .wrongKind ∧ (s.signalObj 0 1 2).1 = .applied 1) ∧
    ((ready.signalObj 0 1 0).1 = .stale ∧ ((cmdObj {} { kind := 0, abandoned := true }).signalObj 0 1 0).1 = .abandoned ∧
      ((cmdObj {} { kind := 1, participants := 1 }).signalObj 0 3 2).1 = .overrun ∧
      (({ ready with sync := { poison := [(0, true)] } } : State).signalObj 0 1 0).1 = .poisoned) ∧
    (let c := cmdOf 0x13 0 5 0 0 .dispatched .none; let s := cmdObj c { kind := 0, counter := 5 }; s.holds 0 c 0x13 .dispatched ∧ s.hRemote 0 = false ∧
      s.objPoisoned 0 = false ∧ (s.obj 0).kind = 0 ∧ hGen 0 = (s.obj 0).gen ∧ (s.obj 0).abandoned = false ∧ waitModeOk 0 0 = true ∧
      bitsOf (c.body 1) 48 2 = 0 ∧ 5 ≤ (s.obj 0).counter) ∧
    (let c := cmdOf 0x13 0 (2 ^ 48 + 5) 0 0 .dispatched .none; c.body 1 < 2 ^ 50 ∧ bitsOf (c.body 1) 48 2 = 1 ∧ c.body 1 % 2 ^ 48 = 5 ∧
      (cmdObj c { kind := 0, counter := 4 }).holds 0 c 0x13 .dispatched) ∧
    (let c := cmdOf 0x13 0 (2 ^ 49) 0 0 .dispatched .none; bitsOf (c.body 1) 48 2 = 2 ∧ waitModeOk 2 1 = true ∧
      (cmdObj c { kind := 1, participants := 1 }).holds 0 c 0x13 .dispatched ∧ roundReleased 1 0 = true ∧ roundReleased 0 0 = false) ∧
    (let j : WaitJob := { deadline := 1000001 }; let c := cmdOf 0x13 0 5 0 0 .running (.wait j); let s := cmdObj c { kind := 0, frozen := true };
      s.holds 0 c 0x13 .running ∧ j.deadline ≠ 0 ∧ j.deadline ≤ s.now + 1 ∧ (s.obj j.index).frozen = true) ∧
    (let c := cmdOf 0x14 0x1000 (65535 + 1 <<< 16) 0 0 .dispatched .none; let s := withCmd c; s.holds 0 c 0x14 .dispatched ∧ c.body 0 % 256 = 0 ∧
      c.body 1 < 2 ^ 34 ∧ 0 < bitsOf (c.body 1) 16 17 ∧ bitsOf (c.body 1) 0 16 + bitsOf (c.body 1) 16 17 ≤ 65536) ∧
    (let j : DumpJob := { total := 1, first := 65535, next := 65535 }; let c := cmdOf 0x14 0x1000 (65535 + 1 <<< 16) 0 0 .running (.dump j);
      let s := withCmd c; s.holds 0 c 0x14 .running ∧ j.next < j.first + j.total ∧ s.localAt 0 (c.body 0 + 64 + 0) 32 0x1040 true ∧
      s.objPoisoned j.next = false) ∧
    (let j : DumpJob := { total := 1, first := 65535, next := 65536 }; let c := cmdOf 0x14 0x1000 (65535 + 1 <<< 16) 0 0 .running (.dump j);
      let s := withCmd c; s.holds 0 c 0x14 .running ∧ j.first + j.total ≤ j.next ∧ j.waiters = false ∧ s.localAt 0 (c.body 0) 64 0x1000 true) := by
  and_intros <;> decide +kernel

/-- READY with the registers of context 0 as at reset. -/
def shutCtx : State := State.reset.setReg 0x84 5

/-- READY, context 0 pre-empted: its state, its cores as given. -/
def paused (st : Nat) (k : Core) : State := (withCore k).setReg 0x10C (1 + 2 + 16 * st)

theorem witness_ContextsAreEnabledPreemptedAndReset :
    (let s := shutCtx; s.ready = true ∧ s.ctxEnabled 7 = false ∧ s.ctxState 7 = 0 ∧ s.ctxPreempt 7 = false ∧ s.anyFrozen 7 = false ∧
      s.ringSizesOk 7 = true ∧ s.hostDirty (s.doorbell 7) 4096 = false ∧ s.hostDirty (s.cplBase 7) (32 * 2 ^ s.cplLog 7) = false) ∧
    (let s := ready; s.ctxEnabled 0 = true ∧ s.ctxState 0 = 1 ∧ s.ctxPreempt 0 = false ∧ s.anyFrozen 0 = false ∧ (s.ctx 0).cmds = [] ∧ (s.ctx 0).held = []) ∧
    ((withCmd {}).ctx 0).cmds ≠ [] ∧
    ((∀ c ∈ ready.ctxCores 0, ready.active c = false) ∧ (base.core 0).ctx = 0 ∧ base.active 0 = true) ∧
    (let s := paused 1 { runs with run := .stopped, stop := true }; s.ctxEnabled 0 = true ∧ s.ctxPreempt 0 = true ∧ (s.core 0).ctx = 0 ∧
      (s.core 0).run = .stopped ∧ (s.core 0).halted = false ∧ s.ctxState 0 ≠ 3) ∧
    (let s := paused 2 {}; s.ctxEnabled 0 = true ∧ s.ctxPreempt 0 = true ∧ s.ctxState 0 = 2 ∧ s.ctxCores 0 = []) ∧
    (ready.ctxState 0 ≠ 3 ∧ ready.ctxCores 0 = []) ∧
    (let v : W64 := 0xFFFFFFFFFFC001; bitsOf v.toNat 1 13 = 0 ∧ bitsOf v.toNat 56 8 = 0) := by and_intros <;> decide +kernel

/-- READY with the cache region of West all of its Square, or with set 0 as given. -/
def cached (x : CacheSet) : State := { ready.setReg 0x400 0 with mem := { sets := [(0, x)] } }

/-- A full read and a full write of a line. -/
def rd (line : Nat) : SqReq := { port := 7, addr := line }
def wr (line : Nat) : SqReq := { port := 7, addr := line, write := true, mask := 2 ^ 256 - 1, data := 1 }

theorem witness_SquareAndControllersServeLines :
    (let v : W32 := 0x20001000; ready.ready = true ∧ bitsOf v.toNat 0 5 ≤ 16 ∧ bitsOf v.toNat 8 5 ≤ 16 ∧ bitOf v.toNat 29 = true ∧
      ready.anyOutstanding = false) ∧
    (let s0 := ready.setReg 0x400 0x50100800; let s := { s0 with mem := { s0.mem with split := (16, 3) } };
      s.ready = true ∧ s.flag 0x400 30 = true ∧ s.mem.split.1 ≤ 16 ∧ s.mem.split.2 ≤ 16 ∧ s.lostFree) ∧
    (let r := wr squareBase; ready.reqFits 0 0 r = true ∧ Store.get [] ready.mem.banks 0 = [] ∧ Store.get [] ready.mem.seamIn 0 = [] ∧
      Store.get 0 ready.mem.clock 0 < 1 ∧ ready.lostFree ∧ ready.bankServes 0 0 r.addr = true ∧ ready.isStaging r.addr = true ∧ r.write = true) ∧
    (let r := rd squareBase; ready.reqFits 0 0 r = true ∧ ready.isStaging r.addr = true ∧ r.write = false ∧ ready.bankServes 0 0 r.addr = true ∧
      ready.reqFits 1 0 r = true ∧ ready.bankServes 1 0 r.addr = false) ∧
    (let s := cached { ways := [(0, { valid := true, line := 0 })] }; let r := rd 0; s.reqFits 0 0 r = true ∧ s.bankServes 0 0 0 = true ∧
      Store.get [] s.mem.banks 0 = [] ∧ s.isStaging 0 = false ∧ (s.cacheSet 0 (setIndex 0)).find 0 (s.wayCount 0) = some 0 ∧ s.lostFree) ∧
    (let s := cached {}; let r := rd 0; s.reqFits 0 0 r = true ∧ s.isStaging 0 = false ∧ r.whole = false ∧ r.demand = true ∧ 0 < s.wayCount 0 ∧
      (s.cacheSet 0 (setIndex 0)).find 0 (s.wayCount 0) = none ∧ ((s.cacheSet 0 (setIndex 0)).victim (s.wayCount 0)).isSome = true) ∧
    (let y : Way := { filling := true, line := 0 }; let s := { cached { ways := [(0, y)] } with mem := { sets := [(0, { ways := [(0, y)] })], waits := [⟨0, 0, rd 0⟩] } };
      setIndex 0 = 0 ∧ y.filling = true ∧ y.drop = false ∧ (rd 0).origin = none ∧ (s.cacheSet 0 0).find 0 (s.wayCount 0) = some 0 ∧
      s.mem.waits.filter (fun w => w.half == 0 && w.set == 0) = [⟨0, 0, rd 0⟩]) ∧
    (isHbm 0 = true ∧ isTier2 0x10000000000 = true ∧ 0x10000000000 % 256 = 0 ∧ ready.isCached 0 = false ∧ ready.isCached 0x10000000000 = false) ∧
    (let s := ready; s.fld 0x408 (8 * 2) 8 ≠ 0 ∧ s.fld 0x408 (8 * 1) 8 ≠ 0 ∧ Store.get 0 s.mem.patrol 3 + 1 ≠ patrolLength 1 ∧
      let t := { ready with mem := { patrol := [(3, patrolLength 1 - 1)] } }; Store.get 0 t.mem.patrol 3 + 1 = patrolLength 1) := by
  and_intros <;> decide +kernel

/-- FAILED: boot code 7 with a dump at hand. -/
def fallen : State := (State.reset.setReg 0x84 7).setReg 0x804 (2 ^ 18)

/-- READY with the power controller as given. -/
def powered (p : Power) : State := { ready with plat := { power := p } }

theorem witness_UpkeepErrorsAndPowerAreHandled :
    (7 < 8 ∧ 2 ≤ ready.boot ∧ 1 < 2) ∧
    (let p : Power := { wckBad := [(1, 3)], zqBad := [(1, 3)] }; (powered p).ready = true ∧ 3 ≤ Store.get 0 p.wckBad 1 ∧ 3 ≤ Store.get 0 p.zqBad 1 ∧
      Store.get 0 p.wckBad 0 < 3) ∧
    (ready.ready = true ∧ 1 ≤ 0x0B ∧ fallen.boot = 7) ∧
    (fallen.flag 0x804 18 = true ∧ fallen.flag 0x804 19 = false ∧ bitOf (0x101 : W64).toNat 0 = true) ∧
    (bitOf (0x80000004 : W32).toNat 31 = true ∧ bitsOf (0x80000004 : W32).toNat 0 8 ≤ 4) ∧
    (let s := { ready with now := 3600000000000 }; s.fld 0x834 0 16 = 3600 ∧ s.now % (s.fld 0x834 0 16 * 1000000000) = 0) ∧
    (State.reset.ready = false ∧ ready.limitW = 1600 ∧ 1600 < 1601 ∧ 95 * 1600 ≤ 100 * 1520 ∧ 100 * 1519 < 95 * 1600 ∧
      (powered { low := 9, ladder := 5 }).plat.power.low < 10) ∧
    ((400 ≤ (400 : Int) ∧ (388 : Int) < 400 ∧ (387 : Int) < 388) ∧ (powered { thermE := 19, coolE := 9 }).ready = true) ∧
    ({ ready with plat := { boot := { running := true } } } : State).plat.boot.running = true := by and_intros <;> decide +kernel
/-! ## Witnesses: the fabric's links and requests -/

/-- READY with the fabric enabled, port 0 enabled and as given, its peer node 1. -/
def ported (x : Port) : State := let s := (ready.setReg 0x600 0x8000).setReg 0x640 (1 + 2 ^ 12); { s with fab := { ports := [(0, x)] } }

/-- A WRITE frame of 8 bytes. -/
def wrFrame : Frame := { src := 1, opc := 1, addr := 0x100, payload := List.replicate 8 1 }

theorem witness_LinksCarryFramesInSequence :
    ((ready.ready = true ∧ ready.flag 0x600 15 = false ∧ (ported {}).flag 0x600 15 = true ∧ ready.groupWork = false) ∧
      (ready.setReg 0x600 0x20000).flag 0x600 17 = true) ∧
    (0 < ready.portCount ∧ ready.flag (portCtrl 0) 0 = false ∧ bitOf (1 : W32).toNat 0 = true ∧
      (let s := (ported {}).setReg 0x640 0; s.ready = true ∧ s.flag 0x600 17 = false ∧ s.flag (portCtrl 0) 0 = false ∧ s.flag 0x600 15 = true ∧ (s.port 0).phase = .down)) ∧
    (let s := ported { phase := .up }; s.flag (portCtrl 0) 0 = true ∧ bitOf (0 : W32).toNat 0 = false ∧ (s.port 0).phase = .up ∧
      (s.port 0).heardAt + 10000 ≤ s.now ∧ s.fab.fenced = false ∧ (s.port 0).sentAt + 1000 ≤ s.now) ∧
    (((ported { phase := .training }).port 0).phase = .training ∧ (ported { phase := .training }).fab.fenced = false) ∧
    (let s := ported { phase := .hello }; s.fab.fenced = false ∧ (s.port 0).phase = .hello ∧ (s.port 0).sentAt + 1000 ≤ s.now ∧ s.flag 0x600 14 = false ∧
      s.flag (portCtrl 0) 1 = false ∧ 1 % 2 ^ 14 ≠ s.node ∧ s.nodeFailed (1 % 2 ^ 14) = false) ∧
    (let s0 := ported { phase := .up }; let s := { s0 with fab := { s0.fab with fenced := true } }; s.fab.fenced = true ∧ (s.port 0).phase = .up) ∧
    (let x : Port := { phase := .up, lackDue := 1, uncovered := [(0, wrFrame)] }; let s := ported x; x.lackDue ≠ 0 ∧ x.uncovered ≠ [] ∧
      x.progressAt + 2000 ≤ s.now ∧ x.resends < 4 ∧ x.uncovered.filter (fun q => !covers 0xFFFF q.1) ≠ []) ∧
    (let x : Port := { phase := .up, uncovered := [(0, wrFrame)], resends := 4 }; 4 ≤ x.resends) ∧
    (let s := ported { phase := .up }; let x := s.port 0; 0 % 65536 = (x.lastSeq + 1) % 65536 ∧ covers x.lastSeq 0xFFFE = true ∧ covers x.lastSeq 1 = false ∧
      wrFrame.opc ≠ 0x30 ∧ knownOpc wrFrame.opc = true ∧ wrFrame.opc ≠ 6 ∧ s.nodeFailed wrFrame.src = false ∧ wrFrame.age < 1000 ∧ wrFrame.dst = s.node ∧
      s.anyEarlyFull = false) ∧
    (let e : EthHdr := { dst := 0x024652000000 }; ready.node = 0 ∧ e.fcs = true ∧ e.etherType = 0x88B5 ∧ e.ver = 1 ∧ e.dst = 0x024652000000 + ready.node * 2 ^ 8 + 0 ∧
      ¬({ dst := 0x024652000001 } : EthHdr).dst = 0x024652000000 ∧ ({ dst := 0, fcs := false } : EthHdr).fcs = false) ∧
    (let q : Nat × Frame := (999900, wrFrame); let s := ported { phase := .up, grant := [18, 0, 0, 0], queue := [q] }; let x := s.port 0;
      x.queue.find? (fun q => q.2.vc == 0 && q.2.cls == 0) = some q ∧ s.mayTransmit 0 q.2 = true ∧ q.2.age + ceilDiv (s.now - q.1) 100 + 1 < 1000) ∧
    (let q : Nat × Frame := (0, wrFrame); q.2.age + ceilDiv (1000000 - q.1) 100 + 1 ≥ 1000) ∧
    (let s := ported { phase := .up }; s.peerNode 0 = 1 ∧ s.peerNode 0 ≠ s.node ∧ s.nodeFailed (s.peerNode 0) = false ∧ s.portUp 0 = true) ∧
    (let f : Frame := { opc := 0x30, src := 2 }; let s0 := ported { phase := .up }; let s := { s0 with fab := { s0.fab with inbox := [f] } };
      s.fab.inbox = f :: [] ∧ f.src ≠ s.node ∧ s.nodeFailed f.src = false ∧ s.peerNode 0 ≠ f.src ∧ 0 + 1 ≠ Store.get 0 s.fab.failFrom f.src) := by
  and_intros <;> decide +kernel

/-- READY with a route to node 1, one frame in the inbox, and transaction 0 with its owner and OPC as given. -/
def asked (f : Frame) (opc : Nat) (owner : TxnOwner) : State :=
  let s := linked ready
  { s with fab := { s.fab with
      inbox := [f], txns := [(0, { active := true, opc, owner, node := 1 })], xfers := [{ ctx := 0, tag := 0, key := 5, xids := [0] }] } }

theorem witness_RequestsAreServedAndAnswered :
    (let s := asked wrFrame 1 (.core 0); s.fab.inbox = wrFrame :: [] ∧ wrFrame.poison = 0 ∧ s.lostFree ∧ s.admits wrFrame.addr wrFrame.len = true ∧
      s.route 1 s.node wrFrame.src = some (0, false)) ∧
    (let f := { wrFrame with addr := 4 }; (asked f 1 (.core 0)).admits f.addr f.len = false) ∧
    (let f : Frame := { opc := 2, operand := 4096 }; (asked f 1 (.core 0)).admits f.addr (bitsOf f.operand 0 13) = true ∧ (asked f 1 (.core 0)).lostFree) ∧
    (let f : Frame := { opc := 2 }; (asked f 1 (.core 0)).admits f.addr (bitsOf f.operand 0 13) = false) ∧
    (let f := { wrFrame with opc := 6 }; let s := asked f 1 (.core 0); s.fab.inbox = f :: [] ∧ s.lostFree ∧ s.admits f.addr f.len = true) ∧
    (let f := { wrFrame with opc := 6, addr := 4 }; (asked f 1 (.core 0)).admits f.addr f.len = false) ∧
    (let f : Frame := { opc := 5, src := 1 }; let s := asked f 1 (.core 0); s.fab.inbox = f :: [] ∧ (s.signalObj f.addr 0 0).1 = .stale) ∧
    ((asked { opc := 3, xid := 1 } 2 (.core 0)).txn? 1 = none ∧ (asked { opc := 4, xid := 256 } 2 (.core 0)).txn? 256 = none) ∧
    (let f : Frame := { opc := 3, payload := [1] }; let s := asked f 2 (.eng 0 0 5); (s.txn? f.xid).map (fun x => (x.owner, x.opc)) = some (.eng 0 0 5, 2) ∧
      s.xfer? 0 0 5 = some { ctx := 0, tag := 0, key := 5, xids := [0] } ∧ f.status = 0 ∧ f.poison = 0) ∧
    (let f : Frame := { opc := 4, status := 1 }; let s := asked f 1 (.eng 0 0 5); s.fab.inbox = f :: [] ∧ (s.txn? f.xid).map (·.owner) = some (.eng 0 0 5)) ∧
    (let f : Frame := { opc := 4 }; (asked f 5 (.sync 0 0)).txn? f.xid = some { active := true, opc := 5, owner := .sync 0 0, node := 1 }) ∧
    (let s := asked wrFrame 5 (.sync 0 0); (s.txn? 0).map (fun x => decide (x.sentAt + 20000 ≤ s.now)) = some true) := by
  and_intros <;> decide +kernel

/-! ## Witnesses: boot -/

/-- The public key of scalar 5. -/
def bootKey : Nat :=
  10437415405147113233536079612645262032932124453265883446326516767157901678216983644431909052576920417361323164587387647073380273774022054434439239466640512

/-- A header with payload of 256 zero bytes, SVN 3, signed with the key of scalar 5 for the random value 12346; its key and signature. -/
def bootHeader : List Byte :=
  natLE 4 0x57465253 ++ natLE 4 1 ++ natLE 4 3 ++ natLE 4 0 ++ natLE 4 256 ++ natLE 4 0 ++ natLE 4 0x21 ++ natLE 4 0 ++
  natBE 32 87207288747368819870269717869079341175179808547884219940853953710902550258422 ++ natBE 64 bootKey ++ List.replicate 128 0

/-- The image. -/
def bootImage : List Byte :=
  bootHeader ++ natBE 32 25389969552477325062602635081760472735192430825701383835869728009061945770932 ++
    natBE 32 17439055109720978699971252503206570309360182220234761659389829777879524874922 ++ List.replicate 448 0

/-- Fuses with the key of scalar 5 in slot 0. -/
def keyed : Fuses := { keyDigest := [(0, 8552283958836622336483086846437227490459925936165656956881502662876276766237)] }

/-- A device in a boot STATE and CODE, with the boot unit and fuses as given. -/
def booting (st code : Nat) (boot : Boot) : State :=
  let s := (State.reset.setReg 0x84 st).setReg 0x88 code
  { s with plat := { s.plat with boot, fuses := keyed } }

/-- The image in the window at offset 1. -/
def imageMem : Memory := Memory.setBytes [] 0x18000010000 bootImage

/-- VERIFY with the image in the window at offset 1. -/
def verifying : State :=
  { booting 3 6 { running := true, goOffset := 1, goLength := 768 } with dev := imageMem }

theorem bootImage_length : bootImage.length = 768 := by decide +kernel

theorem verifying_image : verifying.image = bootImage := by
  have e : verifying.image = Memory.bytes verifying.dev verifying.window verifying.plat.boot.goLength := rfl
  have d : verifying.dev = imageMem := by simp only [verifying]
  have w : verifying.window = 0x18000010000 := by decide +kernel
  have l : verifying.plat.boot.goLength = 768 := by decide +kernel
  rw [e, d, w, l, imageMem, ← bootImage_length]
  exact Memory.bytes_setBytes [] 0x18000010000 bootImage

theorem bootImage_passes : keyed.imageFault 0x21 bootImage = none := by decide +kernel

theorem witness_BootFollowsItsSteps_start :
    (Store.wf (0 : W32) ready.regs = true ∧ Store.wf (0 : W32) State.reset.regs = true ∧ State.reset.plat.boot.resetAt ≤ 0 + 1) ∧
    (let s := State.reset; s.boot = 1 ∧ s.plat.boot.running = false ∧ s.plat.pins.powered = true ∧ s.plat.pins.pwrok = true ∧
      s.plat.pins.railsOk = true ∧ s.plat.tap.holds = 0) ∧
    (ready.plat.pins.pwrok = true ∧ ready.boot = 5 ∧ State.reset.boot ≠ 5 ∧ State.reset.boot ≠ 7 ∧ ready.ready = true) ∧
    (let s := booting 1 1 { running := true }; s.boot = 1 ∧ s.plat.boot.running = true ∧ s.plat.pins.thermtrip = false) ∧
    ((booting 2 5 {}).boot = 2 ∧ 0xFF % 256 ≠ 0 ∧ (0x300 % 256 = 0 ∧ 0x300 % 1024 ≠ 0) ∧ 0x400 % 1024 = 0) ∧
    (let s := booting 6 6 { running := true }; let t := s.setReg 0x84 (6 + 0x0E * 2 ^ 8); t.boot = 6 ∧ 5 ≤ t.fld 0x84 8 8 ∧ t.fld 0x84 8 8 ≤ 0x0E) ∧
    ((booting 2 (5 + 0x3FF * 2 ^ 16) {}).trained = 0x3FF ∧ (booting 2 5 {}).trained ≠ 0x3FF) ∧
    ((booting 4 0x80 {}).boot = 4 ∧ ready.flag 0x84 16 = false ∧ (0 : Nat) ≤ keyed.minVersion ∧ keyed.minVersion < 3 ∧
      (ready.setReg 0x84 (5 + 2 ^ 16)).flag 0x84 16 = true) := by and_intros <;> decide +kernel

theorem witness_BootFollowsItsSteps_verify :
    (let b : Boot := { goOffset := 0, goLength := 767 }; (booting 3 6 b).boot = 3 ∧ b.windowOk = false) ∧
    (let b : Boot := { goOffset := 0x1000, goLength := 268435456 }; let s := { booting 3 6 b with poison := [(0x18010000000 / 8, true)] };
      b.windowOk = true ∧ s.windowPoisoned = true) ∧
    (let b : Boot := { goOffset := 0, goLength := 768 }; let s := booting 3 6 b; b.windowOk = true ∧ s.windowPoisoned = false ∧
      s.plat.fuses.imageFault (s.fld 0x8 0 8) s.image = some (6, 6, 0)) := by
  and_intros <;> decide +kernel

theorem verifying_passes : verifying.plat.fuses.imageFault (verifying.fld 0x8 0 8) verifying.image = none := by
  have h : verifying.fld 0x8 0 8 = 0x21 := by decide +kernel
  have k : verifying.plat.fuses = keyed := rfl
  have e : verifying.plat.fuses.imageFault (verifying.fld 0x8 0 8) verifying.image = keyed.imageFault 0x21 bootImage := by
    rw [verifying_image, h, k]
  exact e.trans bootImage_passes

theorem witness_BootFollowsItsSteps_verified :
    let s := verifying
    s.boot = 3 ∧ s.plat.boot.windowOk = true ∧ s.windowPoisoned = false ∧
      s.plat.fuses.imageFault (s.fld 0x8 0 8) s.image = none ∧ s.space s.window = .loc s.window :=
  ⟨by decide +kernel, by decide +kernel, by decide +kernel, verifying_passes, by decide +kernel⟩
/-! ## Witnesses: counters, host accesses, management, JTAG -/

/-- READY with the host interface answering. -/
def online : State := ready.setReg 0x88 0xFF

/-- READY with a ring of 256 tag records on at host address 0x40000. -/
def tagging : State := (online.setReg 0x1440 0x40001).setReg 0x1448 8

theorem witness_CountersAndHostAccessesAct_counters :
    (ready.ready = true ∧ bitOf (2 : W32).toNat 1 = true ∧ bitOf (1 : W32).toNat 1 = false ∧ ready.fld 0x1000 0 6 ≠ 63 ∧ 62 < 63 ∧
      ready.flag 0x1008 0 = false) ∧
    (let x : PmuCtr := { value := 2 ^ 48 - 1, sel := 0x04000000 }; x.event % 64 = 0 → 2 ^ 48 ≤ x.value + 1) ∧
    (let s := tagging; let i : CoreTag := { pc := 0x40, word := 0, ctx := 0, tag := 0, t0 := 0 }; let t := s.setCore 575 { runs with tagItem := some i };
      t.boot ≠ 7 ∧ t.flag 0x1440 0 = true ∧ wrapSub (t.reg 0x1450) (t.reg 0x144C) < 2 ^ t.fld 0x1448 0 4 ∧ (t.core 575).tagItem = some i) ∧
    (let i : FrameTag := { dst := 1, opc := 1, vc := 0, xid := 0, len := 8, t0 := 0, tag := 0 };
      let s := { tagging with plat := { pmu := { portTag := [(23, some i)] } } }; s.flag 0x1440 0 = true ∧ Store.get none s.plat.pmu.portTag 23 = some i) ∧
    (let s0 := online.setReg 0x1400 0x80001; let s := { s0 with plat := { pmu := { snapDue := 1 } } }; s.ready = true ∧ s.flag 0x1400 0 = true ∧
      s.plat.pmu.snapDue ≠ 0 ∧ s.plat.pmu.snapDue ≤ s.now + 1 ∧ wrapSub (s.reg 0x1424) (s.reg 0x1420) < 2 ^ s.fld 0x1408 0 4 ∧
      let t := s.setReg 0x1424 256; 2 ^ t.fld 0x1408 0 4 ≤ wrapSub (t.reg 0x1424) (t.reg 0x1420)) := by and_intros <;> decide +kernel

theorem witness_CountersAndHostAccessesAct_host :
    (let s := online; s.answers = true ∧ 2 ≠ 4 ∧ 2 ≠ 8 ∧ s.takesWrite 0x408 = true ∧ isWide 0x408 = false ∧ isWide 0x404 = false ∧
      regRow 0x408 = some ⟨0xFFFFFF, 0x7000000, 0⟩ ∧ reservedValue 0x408 0x07FFFFFF = false ∧ s.writeBarred 0x408 0x07FFFFFF = false ∧
      0x07FFFFFF &&& (0xFFFFFFFF ^^^ (0xFFFFFF ||| 0x7000000 ||| 0)) = 0) ∧
    (let s := online; s.takesWrite 0x614 = true ∧ s.takesWrite 0x620 = true ∧ s.takesWrite 0x1008 = true ∧ s.takesWrite 0x2010 = true ∧
      (∀ o ∈ [0x614, 0x620, 0x1008, 0x2010], isWide o = false ∧ isWide (o - 4) = false)) ∧
    (online.takesWrite 0x480 = true ∧ isWide 0x480 = true ∧ online.takesWrite 0x4B8 = true ∧ 0x7FF8 / 4 % 4 = 2) ∧
    (let s := online; s.plat.boot.goHeld = false ∧ s.boot ≠ 3 ∧ s.boot ≠ 4 ∧ s.boot ≠ 7) ∧
    ((booting 3 6 {}).answers = true ∧ (booting 3 6 {}).boot = 3 ∧ (booting 7 4 {}).answers = true ∧ (booting 7 4 {}).boot = 7) ∧
    (let s := { online with msixEnable := true, msixPending := [(2047, true)] }; s.answers = true ∧ s.msixMask = false ∧
      Store.get false s.msixPending 2047 = true) ∧
    (State.reset.answers = false ∧ online.msixPending = []) := by and_intros <;> decide +kernel

/-- READY with the I3C binding up and the endpoint as given. -/
def managed (m : Mgmt) : State :=
  let s := online
  { s with plat := { s.plat with boot := { running := true }, mgmt := { m with i3c := true }, fuses := keyed } }

/-- An order that revokes slot 1, signed with the key of scalar 5 for the random value 778. -/
def revokes1 : List Byte :=
  natLE 4 0x4B565252 ++ [1, 0] ++ List.replicate 10 0 ++ natBE 64 bootKey ++
    natBE 32 83193755642933011436094127946880457589457056885974059757842848449938245282984 ++
    natBE 32 46463959507912072559675238591620511441514076319979361436308102314678234643566

theorem witness_ManagementCommandsAnswer :
    ((managed {}).plat.boot.running = true ∧ (managed {}).plat.mgmt.i3c = true ∧ (managed {}).bindingUp 0 = true ∧ (managed {}).ready = true) ∧
    (let s := (managed {}).setReg 0x84 2; s.bindingUp 0 = true ∧ s.ready = false) ∧
    (let m : Mgmt := { conn := [(0, 3)], chain := [1, 2], certLen := [(0, 3)], sessions := [{ id := 0 }] }; Store.get 0 m.conn 0 = 3 ∧ 1 < m.chain.length ∧
      Store.get 0 m.certLen 0 = m.chain.length + 1 ∧ m.sessions.length < 4 ∧
      m.sessions.find? (fun y => y.id == 0) = some { id := 0 } ∧ m.pubKey ≠ 1) ∧
    (let m : Mgmt := { sessions := (List.range 4).map (fun i => { id := i, established := true }) }; 4 ≤ m.sessions.length ∧
      m.sessions.find? (fun y => y.id == 3) = some { id := 3, established := true }) ∧
    ((booting 1 1 { running := true }).boot = 1 ∧ keyed.orderStatus [] = 2) ∧
    (let s := managed {}; s.boot ≠ 1 ∧ s.boot ≠ 3 ∧ s.boot ≠ 4 ∧ s.plat.fuses.orderStatus revokes1 = 0) ∧
    (let s := (managed { stateSent := [(34, 1)] }).setReg 0x800 2; s.stateSensor 34 ≠ Store.get 0 s.plat.mgmt.stateSent 34 ∧
      Store.get 0 s.plat.mgmt.stateAt 34 = 0) ∧
    (let s := managed { stateSent := [(32, 5)] }; s.stateSensor 32 = Store.get 0 s.plat.mgmt.stateSent 32) ∧
    (crosses 1 0 1100 = true ∧ (managed { receiver := 1 }).plat.mgmt.receiver ≠ 0) := by and_intros <;> decide +kernel

theorem witness_JtagInstructionsSelectRegisters :
    State.reset.plat.pins.pwrok = true ∧ State.reset.plat.pins.perstN = false ∧
      ({ pwrok := true, perstN := true } : Pins).pwrok = true := by and_intros <;> decide +kernel

/-! ## WellFormed refuses an ill-formed command, one for each check -/

theorem test_wf_core : (Instr.nop 576 0).wf = false ∧ (Instr.mmaComplete 576).wf = false ∧ (Instr.coreStop 575).wf = true := by decide
theorem test_wf_context : (Instr.compute 8 0).wf = false ∧ (Instr.heartbeatTimer 8 0).wf = false ∧ (Instr.ctxReset 7).wf = true := by decide
theorem test_wf_port : (Instr.helloTimer 24).wf = false ∧ (Instr.fencedTimer 23).wf = true := by decide
theorem test_wf_press : (Instr.pressSpanComplete 10).wf = false ∧ (Instr.pressUnitHandout 9).wf = true := by decide
theorem test_wf_crossing : (Instr.reductionHoldTimeout 36).wf = false ∧ (Instr.reductionPacketArrival 0 7).wf = false := by decide
theorem test_wf_binding : (Instr.getTid 3).wf = false ∧ (Instr.getTid 2).wf = true := by decide
theorem test_wf_stream : (Instr.runaheadFetchIssue 0 8).wf = false := by decide
theorem test_wf_tile_bank : (Instr.bankGate 0 4).wf = false ∧ (Instr.bankWakeDone 0 4).wf = false := by decide
theorem test_wf_block : (Instr.wakeFlitArrival 36).wf = false ∧ (Instr.blockReset 36).wf = false := by decide
theorem test_wf_share : (Instr.sampleStart 2).wf = false := by decide
theorem test_wf_square : (Instr.squareBankRequest 2 0 0 [] []).wf = false ∧ (Instr.squareBankRequest 0 128 0 [] []).wf = false ∧
    (Instr.cacheFillComplete 2 0 0).wf = false := by decide
theorem test_wf_patrol : (Instr.patrolScrubRead 2 0 0).wf = false ∧ (Instr.patrolScrubRead 0 3 0).wf = false := by decide
theorem test_wf_stack : (Instr.hbmTempSample 8 0).wf = false ∧ (Instr.hbmRefresh 8).wf = false := by decide
theorem test_wf_interface : (Instr.wckTracking 2 true).wf = false ∧ (Instr.lpddrRefresh 2).wf = false ∧ (Instr.zqCalibration 2 true).wf = false := by decide
theorem test_wf_channel : (Instr.frameTransmit 0 4 0).wf = false ∧ (Instr.frameTransmit 0 0 2).wf = false := by decide
theorem test_wf_source : (Instr.fatalError 0 0 0 0).wf = false ∧ (Instr.fatalError 0xC 0 0 0).wf = false := by decide
theorem test_wf_half : (Instr.thermalControlTick 2 0 0).wf = false := by decide
theorem test_wf_counter : (Instr.pmuCountWrite 16 0).wf = false ∧ (Instr.counterTick 63 []).wf = false := by decide
theorem test_wf_tag : (Instr.tagRecord 600 false false []).wf = false := by decide
theorem test_wf_time : (Instr.timestampRead 3).wf = false := by decide
theorem test_wf_window : (Instr.bar2Access 0x1FFFFFFF 2 none).wf = false := by decide
theorem test_wf_register : (Instr.registerWrite 2 0 4 0).wf = false ∧ (Instr.registerWrite 0 0x10000 4 0).wf = false ∧
    (Instr.registerWrite 0 0 2 0).wf = false ∧ (Instr.registerWrite 4 4 8 0).wf = false := by decide
theorem test_wf_vector : (Instr.msixVectorUnmask 2048).wf = false := by decide

/-! ## Values written out by hand -/

/-- The example value of SM3 for the message "abc" (GB/T 32905, R537). -/
theorem test_sm3_abc : sm3 [0x61, 0x62, 0x63] = 0x66c7f0f462eeedd9d1f2d46bdc10e4e24167c4875cf2f7a2297da02b8f4ba8e0 := by decide +kernel

/-- The check value of CRC-32, that of the digits "123456789" (IEEE 802.3). -/
theorem test_crc32_check : crc32 [0x31, 0x32, 0x33, 0x34, 0x35, 0x36, 0x37, 0x38, 0x39] = 0xCBF43926 := by decide +kernel

/-- A HELLO of node 0x0102, port 3, with FEC: the bytes of R382, R391 and R397 up to its grants. -/
theorem test_hello_bytes :
    (({ dst := macBroadcast, src := macOf 0x0102 3, frame := .hello 0x0102 3 false false true false s1Grant } : WireFrame).body.take 42) =
      [0xFF, 0xFF, 0xFF, 0xFF, 0xFF, 0xFF, 0x02, 0x46, 0x52, 0x01, 0x02, 0x03, 0x88, 0xB5, 0x12, 0, 0, 0, 0xFF, 0xFF, 0, 0, 0, 0, 0, 0, 0, 0, 0, 0,
       0x01, 0x02, 0x03, 0x04, 0, 0, 0, 32, 0, 0, 2, 0] := by decide +kernel

/-- A one-word WRITE of node 1 to node 2 on VC2: its link and transport headers as R391 and R392 lay them out. -/
theorem test_write_bytes :
    (LinkFrame.data 5 4 [1, 2, 3, 4]
      { vc := 2, src := 1, dst := 2, opc := 1, xid := 0x0A0B0C0D, addr := 0x1000, payload := List.replicate 8 0xEE, poison := 1 }).bytes =
      [0x10, 2, 0, 5, 0, 4, 0, 0, 0, 1, 0, 2, 0, 3, 0, 4, 0, 1, 0, 2, 1, 2, 0, 8, 0x0A, 0x0B, 0x0C, 0x0D, 0, 0, 0, 0, 0, 0, 0, 0, 0, 0, 0x10, 0,
       0, 0, 0, 0, 0, 0, 0, 0, 0xEE, 0xEE, 0xEE, 0xEE, 0xEE, 0xEE, 0xEE, 0xEE, 1, 0, 0, 0, 0, 0, 0, 0] := by decide +kernel

/-- Reads of BAR0 (R386, R472, R477): a context's ring sizes, a port register beyond the ports of mode 0, and an unlisted offset. -/
theorem test_bar0_reads : ready.bar0Read 0x108 = 0x00080908 ∧ ready.bar0Read 0x640 = 4 ∧ ready.bar0Read 0x670 = 0 ∧ ready.bar0Read 0x2FF0 = 0 := by
  decide +kernel

end Sys2Proof.Tests
end

section
/-! SUPPORT. Fields of instruction words: a field of a word is that of its body, a mask of reserved bits reads as fields that are
zero, a sign-extended field reads as a signed number (R181, R182). -/

namespace Sys2Proof.Machine

open Sys2Proof

theorem bitOf_eq_testBit (x i : Nat) : bitOf x i = x.testBit i := by
  rw [Nat.testBit_eq_decide_div_mod_eq]
  rfl

theorem testBit_bitsOf (x lo n i : Nat) : (bitsOf x lo n).testBit i = (decide (i < n) && x.testBit (lo + i)) := by
  rw [bitsOf, Nat.testBit_mod_two_pow, Nat.testBit_div_two_pow, Nat.add_comm]

theorem bitsOf_mod_two_pow (x lo : Nat) {m n : Nat} (h : m ≤ n) : bitsOf x lo n % 2 ^ m = bitsOf x lo m :=
  Nat.mod_mod_of_dvd _ (Nat.pow_dvd_pow 2 h)

/-- The major opcode lies above every other field (R178). -/
@[simp] theorem bitsOf_wordOf (op : Nat) (b : Body) {lo n : Nat} (h : lo + n ≤ 56) :
    bitsOf (wordOf op b) lo n = bitsOf b.toNat lo n := by
  refine Nat.eq_of_testBit_eq fun i => ?_
  rw [testBit_bitsOf, testBit_bitsOf, wordOf, Nat.mul_comm, Nat.testBit_two_pow_mul_add _ b.isLt]
  by_cases hi : i < n
  · rw [if_pos (by omega)]
  · simp [hi]

@[simp] theorem fD_wordOf (op : Nat) (b : Body) : fD (wordOf op b) = fD b.toNat := bitsOf_wordOf op b (by decide)
@[simp] theorem fA_wordOf (op : Nat) (b : Body) : fA (wordOf op b) = fA b.toNat := bitsOf_wordOf op b (by decide)
@[simp] theorem fB_wordOf (op : Nat) (b : Body) : fB (wordOf op b) = fB b.toNat := bitsOf_wordOf op b (by decide)
@[simp] theorem fnSimm_wordOf (op : Nat) (b : Body) : fnSimm (wordOf op b) = fnSimm b.toNat := bitsOf_wordOf op b (by decide)
@[simp] theorem brCond_wordOf (op : Nat) (b : Body) : brCond (wordOf op b) = brCond b.toNat := bitsOf_wordOf op b (by decide)
@[simp] theorem brA_wordOf (op : Nat) (b : Body) : brA (wordOf op b) = brA b.toNat := bitsOf_wordOf op b (by decide)
@[simp] theorem brB_wordOf (op : Nat) (b : Body) : brB (wordOf op b) = brB b.toNat := bitsOf_wordOf op b (by decide)
@[simp] theorem brP_wordOf (op : Nat) (b : Body) : brP (wordOf op b) = brP b.toNat := bitsOf_wordOf op b (by decide)
@[simp] theorem brD_wordOf (op : Nat) (b : Body) : brD (wordOf op b) = brD b.toNat := bitsOf_wordOf op b (by decide)
@[simp] theorem vrFn_wordOf (op : Nat) (b : Body) : vrFn (wordOf op b) = vrFn b.toNat := bitsOf_wordOf op b (by decide)

/-- A word under the mask of one field is that field in its place. -/
theorem and_fieldMask (x lo n : Nat) : x &&& (2 ^ lo * (2 ^ n - 1)) = 2 ^ lo * bitsOf x lo n := by
  refine Nat.eq_of_testBit_eq fun j => ?_
  rw [Nat.testBit_and, Nat.testBit_two_pow_mul, Nat.testBit_two_pow_mul, Nat.testBit_two_pow_sub_one, testBit_bitsOf]
  by_cases hj : lo ≤ j
  · simp [hj, Bool.and_comm]
  · simp [hj]

/-- The bits of one field are zero under its mask exactly when the field is. -/
theorem and_fieldMask_eq_zero (x lo n : Nat) : x &&& (2 ^ lo * (2 ^ n - 1)) = 0 ↔ bitsOf x lo n = 0 := by
  simp [and_fieldMask]

/-- The two readings of a sign-extended field agree. -/
theorem sext_eq_signExtend {n : Nat} (h0 : 0 < n) (h64 : n ≤ 64) (x : Nat) : sext n x = (BitVec.ofNat n x).signExtend 64 := by
  have hp : 2 ^ n ≤ 2 ^ 64 := Nat.pow_le_pow_right (by decide) h64
  have hx : x % 2 ^ n < 2 ^ n := Nat.mod_lt _ (Nat.two_pow_pos n)
  have hsign : (BitVec.ofNat n x).msb = x.testBit (n - 1) := by
    rw [BitVec.msb_eq_getLsbD_last, BitVec.getLsbD_ofNat]
    simp [h0]
  refine BitVec.eq_of_toNat_eq ?_
  rw [BitVec.toNat_signExtend, hsign, sext, bitOf_eq_testBit, BitVec.toNat_setWidth, BitVec.toNat_ofNat,
    Nat.mod_eq_of_lt (lt_of_lt_of_le hx hp)]
  cases x.testBit (n - 1) with
  | true =>
    simp only [if_true, BitVec.toNat_ofNat]
    omega
  | false =>
    simp only [Bool.false_eq_true, if_false, BitVec.toNat_ofNat]
    omega

/-- A word cut to its low field is the field. -/
theorem ofNat_bitsOf_zero (n x : Nat) : BitVec.ofNat n (bitsOf x 0 n) = BitVec.ofNat n x := by
  refine BitVec.eq_of_toNat_eq ?_
  simp [bitsOf]

/-- IMM of SIMM is the low 40 bits, sign-extended (R182). -/
theorem immSimm_wordOf (op : Nat) (b : Body) : immSimm (wordOf op b) = (BitVec.ofNat 40 b.toNat).signExtend 64 := by
  rw [immSimm, sext_eq_signExtend (by decide) (by decide), bitsOf_wordOf op b (by decide), ofNat_bitsOf_zero]

/-- OFF of BRANCH counts words of 8 bytes (R190). -/
theorem toInt_brOff_wordOf (op : Nat) (b : Body) : (brOff (wordOf op b)).toInt = 8 * (BitVec.ofNat 20 b.toNat).toInt := by
  have hlo := BitVec.le_two_mul_toInt (x := BitVec.ofNat 20 b.toNat)
  have hhi := BitVec.two_mul_toInt_lt (x := BitVec.ofNat 20 b.toNat)
  have h8 : (8 : W64).toInt = 8 := rfl
  rw [brOff, sext_eq_signExtend (by decide) (by decide), bitsOf_wordOf op b (by decide), ofNat_bitsOf_zero, BitVec.toInt_mul,
    BitVec.toInt_signExtend_of_le (by decide), h8, Int.mul_comm]
  exact Int.bmod_eq_of_le (by omega) (by omega)

end Sys2Proof.Machine
end

section
/-! SUPPORT. What a core instruction answers, from what its effect is: the three outcomes an issuing word of the statements has. -/

namespace Sys2Proof.Machine

open Sys2Proof

/-- A word that could issue but for a reserved bit is unpredictable (R16, assumption 11). -/
theorem issue_reserved {s : State} {c op reserved : Nat} {b : Body} (hc : s.canIssue c op (wordOf op b) = true)
    (hp : s.isPoisoned (csAddr c (s.core c).pc) = false) (hr : b.toNat &&& reserved ≠ 0) (f : Nat → State) :
    issue c b op reserved s f = .fault .reservedBits := by
  simp only [State.canIssue, Bool.and_eq_true, Bool.not_eq_true'] at hc
  simp [issue, hc.1, hc.2, hp, hr]

/-- An issuing instruction whose effect is to set its core does that and nothing else. -/
theorem gives_onlyCore {i : Instr} {s : State} {c op reserved : Nat} {b : Body} {f : Nat → State} {k : Core}
    (e : exec i s = issue c b op reserved s f) (h : s.issues c b op reserved) (hf : f (wordOf op b) = s.setCore c k) :
    Gives i s (s.onlyCore c k) :=
  gives_issue e h (hf ▸ onlyCore_tagIssue s c op _ k)

/-- An issuing instruction gives its effect, the tags aside. -/
theorem gives_upToTags {i : Instr} {s u : State} {c op reserved : Nat} {b : Body} {f : Nat → State}
    (e : exec i s = issue c b op reserved s f) (h : s.issues c b op reserved) (hf : f (wordOf op b) = u) :
    Gives i s (u.upToTags c) :=
  gives_issue e h (hf ▸ upToTags_tagIssue s u c op _)

@[simp] theorem Core.sreg_untagged (k : Core) (n : Nat) : k.untagged.sreg n = k.sreg n := rfl

/-- A scalar register of a core that is known up to its tags. -/
theorem State.onlyCore.sreg {s t : State} {c : Nat} {k : Core} (h : s.onlyCore c k t) (n : Nat) : (t.core c).sreg n = k.sreg n := by
  obtain ⟨⟨hk, -⟩, -⟩ := h
  rw [← Core.sreg_untagged, hk, Core.sreg_untagged]

theorem Core.sreg_setS_self (k : Core) {n : Nat} (hn : n ≠ 0) (x : W64) : (k.setS n x).sreg n = x := by
  rw [Core.setS, if_neg hn, Core.sreg, if_neg hn]
  exact Store.get_set_self _ k.s n x

@[simp] theorem Core.sreg_advance (k : Core) (now n : Nat) : (k.advance now).sreg n = k.sreg n := rfl

end Sys2Proof.Machine
end

section
/-! PROOFS. Division (R185). -/

namespace Sys2Proof.Machine

open Sys2Proof

theorem ofInt_tdiv (a b : W64) : BitVec.ofInt 64 (a.toInt.tdiv b.toInt) = a.sdiv b :=
  BitVec.eq_of_toInt_eq (by rw [BitVec.toInt_ofInt, BitVec.toInt_sdiv])

theorem ofInt_tmod (a b : W64) : BitVec.ofInt 64 (a.toInt.tmod b.toInt) = a.srem b := by
  rw [← BitVec.toInt_srem, BitVec.ofInt_toInt]

/-- The one quotient that does not fit: −2^63 by −1. -/
theorem toInt_sdiv_of_not_overflow {a b : W64} (h : ¬(a.toInt = -2 ^ 63 ∧ b.toInt = -1)) :
    (a.sdiv b).toInt = a.toInt.tdiv b.toInt := by
  refine BitVec.toInt_sdiv_of_ne_or_ne a b ?_
  by_contra hc
  obtain ⟨ha, hb⟩ := not_or.mp hc
  rw [not_not] at ha hb
  subst ha hb
  exact h ⟨by decide, by decide⟩

theorem sdiv_overflow {a b : W64} (ha : a.toInt = -2 ^ 63) (hb : b.toInt = -1) :
    (a.sdiv b).toInt = -2 ^ 63 ∧ (a.srem b).toInt = 0 := by
  rw [BitVec.toInt_sdiv, BitVec.toInt_srem, ha, hb]
  decide

/-- The four FN of division are codes ALU lists (R184). -/
theorem aluFn_division_isSome {fn : Nat} (hlo : 0x18 ≤ fn) (hhi : fn ≤ 0x1B) (a b : W64) : ∃ v, aluFn fn a b = some v := by
  interval_cases fn
  all_goals exact ⟨_, rfl⟩

/-- ALU with a listed FN writes sd and moves on (R184). -/
theorem alu_gives {s : State} {c : Nat} {b : Body} {v : W64} (h : s.issues c b 0x04 0x7FFFFFFFF)
    (hv : aluFn (fnSreg (wordOf 0x04 b)) ((s.core c).sreg (fA (wordOf 0x04 b))) ((s.core c).sreg (fB (wordOf 0x04 b))) = some v) :
    Gives (.alu c b) s (s.onlyCore c (((s.core c).setS (fD (wordOf 0x04 b)) v).advance s.now)) := by
  refine gives_onlyCore (exec_alu c b s) h ?_
  simp only [hv]
  rfl

/-- Settles O11: each quotient and remainder is Lean's on the numbers the words stand for, and only −2^63 by −1 wraps. -/
theorem divisionNeverFaults : Obligations.DivisionNeverFaults := by
  unfold Obligations.DivisionNeverFaults
  refine ⟨fun s c b h hlo hhi => ?_, fun a b => ⟨_, _, _, _, rfl, rfl, rfl, rfl, ?_, ?_, ?_, ?_⟩⟩
  · obtain ⟨v, hv⟩ := aluFn_division_isSome hlo hhi ((s.core c).sreg (fA (wordOf 0x04 b))) ((s.core c).sreg (fB (wordOf 0x04 b)))
    exact ⟨v, hv, alu_gives h hv⟩
  · intro hb
    refine ⟨fun i hi => ?_, if_pos hb, if_pos hb⟩
    rw [if_pos hb, if_pos hb, BitVec.getLsbD_allOnes]
    simp [hi]
  · rintro ⟨ha, hb⟩
    have hb0 : b ≠ 0 := by
      rintro rfl
      exact absurd hb (by decide)
    rw [if_neg hb0, if_neg hb0, ofInt_tdiv, ofInt_tmod]
    exact sdiv_overflow ha hb
  · intro hb hover
    rw [if_neg hb, if_neg hb, ofInt_tdiv, ofInt_tmod]
    exact ⟨toInt_sdiv_of_not_overflow hover, BitVec.toInt_srem a b⟩
  · intro hb
    have ha := a.isLt
    have hq : a.toNat / b.toNat < 2 ^ 64 := lt_of_le_of_lt (Nat.div_le_self _ _) ha
    have hr : a.toNat % b.toNat < 2 ^ 64 := lt_of_le_of_lt (Nat.mod_le _ _) ha
    rw [if_neg hb, if_neg hb, BitVec.toNat_ofNat, BitVec.toNat_ofNat, Nat.mod_eq_of_lt hq, Nat.mod_eq_of_lt hr]
    exact ⟨rfl, rfl⟩

end Sys2Proof.Machine
end

section
/-! PROOFS. Constants: MOVI and MOVHI (R186). -/

namespace Sys2Proof.Machine

open Sys2Proof

/-- The field at the top of a number, replaced. -/
theorem putBits_top {x lo n : Nat} (h : x < 2 ^ (lo + n)) (v : Nat) : putBits x lo n v = 2 ^ lo * (v % 2 ^ n) + x % 2 ^ lo := by
  have hx : bitsOf x lo n = x / 2 ^ lo := Nat.mod_eq_of_lt (Nat.div_lt_of_lt_mul (by rwa [← Nat.pow_add]))
  have hdm := Nat.div_add_mod x (2 ^ lo)
  rw [putBits, hx, Nat.mul_comm (x / 2 ^ lo), Nat.mul_comm (v % 2 ^ n)]
  omega

/-- What MOVHI writes over `a`: bits [63:40] replaced by the low 24 bits of the word (R186). -/
def movhiValue (a : W64) (b : Body) : W64 := BitVec.ofNat 64 (putBits a.toNat 40 24 (bitsOf b.toNat 0 24))

theorem getLsbD_movhiValue (a : W64) (b : Body) {i : Nat} (hi : i < 64) :
    (movhiValue a b).getLsbD i = if 40 ≤ i then b.getLsbD (i - 40) else a.getLsbD i := by
  have hlow : a.toNat % 2 ^ 40 < 2 ^ 40 := Nat.mod_lt _ (by decide)
  rw [movhiValue, putBits_top a.isLt, BitVec.getLsbD_ofNat, Nat.testBit_two_pow_mul_add _ hlow, Nat.testBit_mod_two_pow,
    Nat.testBit_mod_two_pow, testBit_bitsOf]
  by_cases h40 : 40 ≤ i
  · have h24 : i - 40 < 24 := by omega
    simp [h40, hi, h24, Nat.not_lt.mpr h40, BitVec.getLsbD]
  · simp [h40, hi, Nat.not_le.mp h40, BitVec.getLsbD]

theorem movi_gives {s : State} {c : Nat} {b : Body} (h : s.issues c b 0x06 0) (hfn : fnSimm (wordOf 0x06 b) = 0) :
    Gives (.movi c b) s
      (s.onlyCore c (((s.core c).setS (fD (wordOf 0x06 b)) ((BitVec.ofNat 40 b.toNat).signExtend 64)).advance s.now)) := by
  refine gives_onlyCore (exec_movi c b s) h ?_
  rw [if_neg (not_not.mpr hfn), immSimm_wordOf]
  rfl

theorem movhi_gives {s : State} {c : Nat} {b : Body} (h : s.issues c b 0x07 0xFFFF000000) (hfn : fnSimm (wordOf 0x07 b) = 0) :
    Gives (.movhi c b) s (s.onlyCore c
      (((s.core c).setS (fD (wordOf 0x07 b)) (movhiValue ((s.core c).sreg (fA (wordOf 0x07 b))) b)).advance s.now)) := by
  refine gives_onlyCore (exec_movhi c b s) h ?_
  rw [if_neg (not_not.mpr hfn), bitsOf_wordOf 0x07 b (by decide)]
  rfl

/-- A word of either with FN not 0 is illegal (R179, R186). -/
theorem mov_illegal {s : State} {c : Nat} {b : Body} (hfn : fnSimm (wordOf 0x06 b) ≠ 0) :
    (s.issues c b 0x06 0 → Gives (.movi c b) s ((s.illegal c (wordOf 0x06 b)).upToTags c)) ∧
      (s.issues c b 0x07 0xFFFF000000 → Gives (.movhi c b) s ((s.illegal c (wordOf 0x07 b)).upToTags c)) := by
  have hfn' : fnSimm (wordOf 0x07 b) ≠ 0 := by simpa using hfn
  exact ⟨fun h => gives_upToTags (exec_movi c b s) h (if_pos hfn), fun h => gives_upToTags (exec_movhi c b s) h (if_pos hfn')⟩

/-- The MOVI word that puts the low 40 bits of `x` in register `d`. -/
def moviOf (d : Nat) (x : W64) : Body := BitVec.ofNat 56 (d * 2 ^ 51 + x.toNat % 2 ^ 40)

/-- The MOVHI word that puts the high 24 bits of `x` over register `d`. -/
def movhiOf (d : Nat) (x : W64) : Body := BitVec.ofNat 56 (d * 2 ^ 51 + d * 2 ^ 46 + x.toNat / 2 ^ 40)

theorem moviOf_toNat {d : Nat} (hd : d < 32) (x : W64) : (moviOf d x).toNat = d * 2 ^ 51 + x.toNat % 2 ^ 40 := by
  rw [moviOf, BitVec.toNat_ofNat, Nat.mod_eq_of_lt (by omega)]

theorem movhiOf_toNat {d : Nat} (hd : d < 32) (x : W64) : (movhiOf d x).toNat = d * 2 ^ 51 + d * 2 ^ 46 + x.toNat / 2 ^ 40 := by
  have hx := x.isLt
  rw [movhiOf, BitVec.toNat_ofNat, Nat.mod_eq_of_lt (by omega)]

theorem moviOf_fields {d : Nat} (hd : d < 32) (x : W64) :
    fnSimm (moviOf d x).toNat = 0 ∧ fD (moviOf d x).toNat = d ∧ bitsOf (moviOf d x).toNat 0 40 = x.toNat % 2 ^ 40 := by
  simp only [fnSimm, fD, bitsOf, moviOf_toNat hd]
  omega

theorem movhiOf_fields {d : Nat} (hd : d < 32) (x : W64) :
    fnSimm (movhiOf d x).toNat = 0 ∧ fD (movhiOf d x).toNat = d ∧ fA (movhiOf d x).toNat = d ∧
      bitsOf (movhiOf d x).toNat 24 16 = 0 ∧ bitsOf (movhiOf d x).toNat 0 24 = x.toNat / 2 ^ 40 := by
  have hx := x.isLt
  have htop : (d * 2 ^ 51 + d * 2 ^ 46 + x.toNat / 2 ^ 40) / 2 ^ 51 = d := by omega
  have hmid : (d * 2 ^ 51 + d * 2 ^ 46 + x.toNat / 2 ^ 40) / 2 ^ 46 = 33 * d := by omega
  simp only [fnSimm, fD, fA, bitsOf, movhiOf_toNat hd, htop, hmid]
  omega

/-- A bit of a body within its low field is the field's. -/
theorem getLsbD_eq_testBit_bitsOf (b : Body) {n i : Nat} (hi : i < n) : b.getLsbD i = (bitsOf b.toNat 0 n).testBit i := by
  simp [testBit_bitsOf, hi, BitVec.getLsbD]

/-- MOVHI over what MOVI left makes the constant: the low 40 bits come from the one, the high 24 from the other. -/
theorem movhiValue_over_movi {d : Nat} (hd : d < 32) (x : W64) :
    movhiValue ((BitVec.ofNat 40 (moviOf d x).toNat).signExtend 64) (movhiOf d x) = x := by
  obtain ⟨-, -, hlow⟩ := moviOf_fields hd x
  obtain ⟨-, -, -, -, hhigh⟩ := movhiOf_fields hd x
  refine BitVec.eq_of_getLsbD_eq fun i hi => ?_
  rw [getLsbD_movhiValue _ _ hi]
  split
  case isTrue h =>
    rw [getLsbD_eq_testBit_bitsOf _ (n := 24) (by omega), hhigh, Nat.testBit_div_two_pow, Nat.sub_add_cancel h]
    rfl
  case isFalse h =>
    have h40 : i < 40 := by omega
    rw [BitVec.getLsbD_signExtend, if_pos h40, BitVec.getLsbD_ofNat, ← BitVec.getLsbD,
      getLsbD_eq_testBit_bitsOf _ h40, hlow, Nat.testBit_mod_two_pow]
    simp [hi, h40, BitVec.getLsbD]

/-- Settles O12: the two halves of a constant, one word each. -/
theorem moviMovhiBuildAnyConstant : Obligations.MoviMovhiBuildAnyConstant := by
  unfold Obligations.MoviMovhiBuildAnyConstant
  refine ⟨fun s c b h hfn => ⟨_, BitVec.toInt_signExtend_of_le (by decide), movi_gives h hfn⟩,
    fun s c b h hfn => ⟨_, fun i hi => getLsbD_movhiValue _ b hi, movhi_gives h hfn⟩,
    fun s c b hfn => mov_illegal hfn, fun s c b hc hp hr => (exec_movhi c b s).trans (issue_reserved hc hp hr _), ?_⟩
  intro x d hd0 hd
  obtain ⟨hfn1, hd1, -⟩ := moviOf_fields hd x
  obtain ⟨hfn2, hd2, ha2, hres, -⟩ := movhiOf_fields hd x
  rw [← fnSimm_wordOf 0x06] at hfn1
  rw [← fD_wordOf 0x06] at hd1
  rw [← fnSimm_wordOf 0x07] at hfn2
  rw [← fD_wordOf 0x07] at hd2
  rw [← fA_wordOf 0x07] at ha2
  refine ⟨moviOf d x, movhiOf d x, hfn1, hd1, hfn2, hd2, ha2, (and_fieldMask_eq_zero _ 24 16).mpr hres, fun s c h => ?_⟩
  obtain ⟨t, ht, hts⟩ := movi_gives h hfn1
  refine ⟨t, ht, fun u hu hu2 => ?_⟩
  obtain ⟨v, hv, hvu⟩ := movhi_gives hu2 hfn2
  have hut : (u.core c).sreg d = (BitVec.ofNat 40 (moviOf d x).toNat).signExtend 64 := by
    rw [hu, hts.sreg, Core.sreg_advance, hd1, Core.sreg_setS_self _ hd0.ne']
  refine ⟨v, hv, ?_⟩
  change (v.core c).sreg d = x
  rw [hvu.sreg, Core.sreg_advance, hd2, Core.sreg_setS_self _ hd0.ne', ha2, hut, movhiValue_over_movi hd]

end Sys2Proof.Machine
end

section
/-! PROOFS. Branches (R190, R191). -/

namespace Sys2Proof.Machine

open Sys2Proof

/-- The conditions of BR, as comparisons of numbers. -/
theorem brHolds_eq_some {cond : Nat} (hc : cond ≤ 5) (a b : W64) (taken : Bool)
    (h : taken = true ↔ (cond = 0 ∧ a = b ∨ cond = 1 ∧ a ≠ b ∨ cond = 2 ∧ a.toInt < b.toInt ∨ cond = 3 ∧ b.toInt ≤ a.toInt ∨
      cond = 4 ∧ a.toNat < b.toNat ∨ cond = 5 ∧ b.toNat ≤ a.toNat)) : brHolds cond a b = some taken := by
  have hslt : slt64 a b = decide (a.toInt < b.toInt) := BitVec.slt_eq_decide
  interval_cases cond
  all_goals
    simp only [brHolds, Option.some.injEq, hslt]
    rw [Bool.eq_iff_iff, h]
    simp

theorem eq_zero_iff_getLsbD (p : W64) : p = 0 ↔ ∀ i < 64, p.getLsbD i = false := by
  rw [BitVec.eq_of_getLsbD_eq_iff]
  simp

theorem eq_allOnes_iff_getLsbD (p : W64) : p = BitVec.allOnes 64 ↔ ∀ i < 64, p.getLsbD i = true := by
  rw [BitVec.eq_of_getLsbD_eq_iff]
  refine forall₂_congr fun i hi => ?_
  rw [BitVec.getLsbD_allOnes, decide_eq_true hi]

/-- The conditions of BRP, as statements about the predicate's bits. -/
theorem brpHolds_eq_some {cond : Nat} (hc : cond ≤ 3) (p : W64) (taken : Bool)
    (h : taken = true ↔ (cond = 0 ∧ (∃ i < 64, p.getLsbD i = true) ∨ cond = 1 ∧ (∀ i < 64, p.getLsbD i = true) ∨
      cond = 2 ∧ (∀ i < 64, p.getLsbD i = false) ∨ cond = 3 ∧ (∃ i < 64, p.getLsbD i = false))) :
    brpHolds cond p = some taken := by
  interval_cases cond
  all_goals
    simp only [brpHolds, Option.some.injEq]
    rw [Bool.eq_iff_iff, h]
    simp only [bne_iff_ne, beq_iff_eq, ne_eq, eq_zero_iff_getLsbD, eq_allOnes_iff_getLsbD]
    simp

/-- A target is the sum modulo 2^20 of the numbers its terms stand for. -/
theorem target_cast (a o : W64) : (((a + o).toNat % 0x100000 : Nat) : Int) = (a.toInt + o.toInt) % 0x100000 := by
  have ha := a.isLt
  have ho := o.isLt
  rw [BitVec.toInt_eq_toNat_cond a, BitVec.toInt_eq_toNat_cond o, BitVec.toNat_add]
  split <;> split <;> omega

/-- As `target_cast`, for a target relative to the pc. -/
theorem pcTarget_cast (pc : Nat) (o : W64) : (((BitVec.ofNat 64 pc + o).toNat % 0x100000 : Nat) : Int) = (pc + o.toInt) % 0x100000 := by
  have ho := o.isLt
  rw [BitVec.toInt_eq_toNat_cond o, BitVec.toNat_add, BitVec.toNat_ofNat]
  split <;> omega

/-- The pc after a branch. -/
def branchPc (pc : Nat) (taken : Bool) (off : W64) : Nat :=
  (if taken then (BitVec.ofNat 64 pc + off).toNat else pc + 8) % 0x100000

theorem branchIf_eq (s : State) (c : Nat) (taken : Bool) (off : W64) :
    s.branchIf c taken off = s.setCore c { s.core c with pc := branchPc (s.core c).pc taken off, lastDone := s.now } := rfl

theorem branchPc_cast (pc : Nat) (taken : Bool) (op : Nat) (b : Body) :
    (branchPc pc taken (brOff (wordOf op b)) : Int) =
      ((pc : Int) + if taken then 8 * (BitVec.ofNat 20 b.toNat).toInt else 8) % 0x100000 := by
  cases taken with
  | true => rw [branchPc, if_pos rfl, if_pos rfl, pcTarget_cast, toInt_brOff_wordOf]
  | false => simp [branchPc]

theorem br_gives {s : State} {c : Nat} {b : Body} {taken : Bool} (h : s.issues c b 0x10 0x3FFF00000)
    (ht : brHolds (brCond b.toNat) ((s.core c).sreg (brA b.toNat)) ((s.core c).sreg (brB b.toNat)) = some taken) :
    Gives (.br c b) s (s.onlyCore c
      { s.core c with pc := branchPc (s.core c).pc taken (brOff (wordOf 0x10 b)), lastDone := s.now }) := by
  refine gives_onlyCore (exec_br c b s) h ?_
  simp only [brCond_wordOf, brA_wordOf, brB_wordOf, ht, branchIf_eq]

theorem brp_gives {s : State} {c : Nat} {b : Body} {taken : Bool} (h : s.issues c b 0x11 0x3FFF00000)
    (ht : brpHolds (brCond b.toNat) ((s.core c).preg (brP b.toNat)) = some taken) :
    Gives (.brp c b) s (s.onlyCore c
      { s.core c with pc := branchPc (s.core c).pc taken (brOff (wordOf 0x11 b)), lastDone := s.now }) := by
  refine gives_onlyCore (exec_brp c b s) h ?_
  simp only [brCond_wordOf, brP_wordOf, ht, branchIf_eq]

theorem jal_gives {s : State} {c : Nat} {b : Body} (h : s.issues c b 0x12 0x3FFF00000) (hc : brCond b.toNat = 0) :
    Gives (.jal c b) s (s.onlyCore c { (s.core c).setS (brD b.toNat) (BitVec.ofNat 64 ((s.core c).pc + 8)) with
      pc := branchPc (s.core c).pc true (brOff (wordOf 0x12 b)), lastDone := s.now }) := by
  refine gives_onlyCore (exec_jal c b s) h ?_
  simp only [brCond_wordOf, brD_wordOf, hc, ne_eq, not_true_eq_false, if_false]
  rfl

/-- The target of JALR. -/
def jalrPc (a off : W64) : Nat := (a + off).toNat % 0x100000

theorem jalrPc_eq {a : W64} {op pc : Nat} {b : Body}
    (h : (pc : Int) = (a.toInt + 8 * (BitVec.ofNat 20 b.toNat).toInt) % 0x100000) : jalrPc a (brOff (wordOf op b)) = pc := by
  have ht := target_cast a (brOff (wordOf op b))
  rw [toInt_brOff_wordOf, ← h] at ht
  exact Int.ofNat_inj.mp ht

/-- JALR to an aligned target links and jumps (R190). -/
theorem jalr_gives {s : State} {c : Nat} {b : Body} (h : s.issues c b 0x13 0x3FFF00000) (hc : brCond b.toNat = 0)
    (ht : jalrPc ((s.core c).sreg (brA b.toNat)) (brOff (wordOf 0x13 b)) % 8 = 0) :
    Gives (.jalr c b) s (s.onlyCore c { (s.core c).setS (brD b.toNat) (BitVec.ofNat 64 ((s.core c).pc + 8)) with
      pc := jalrPc ((s.core c).sreg (brA b.toNat)) (brOff (wordOf 0x13 b)), lastDone := s.now }) := by
  refine gives_onlyCore (exec_jalr c b s) h ?_
  simp only [brCond_wordOf, brA_wordOf, brD_wordOf, hc, ne_eq, not_true_eq_false, if_false]
  exact if_neg (not_not.mpr ht)

/-- JALR to a misaligned target takes the fault and links nothing (R191). -/
theorem jalr_misaligned {s : State} {c : Nat} {b : Body} (h : s.issues c b 0x13 0x3FFF00000) (hc : brCond b.toNat = 0)
    (ht : jalrPc ((s.core c).sreg (brA b.toNat)) (brOff (wordOf 0x13 b)) % 8 ≠ 0) :
    Gives (.jalr c b) s ((s.misaligned c (jalrPc ((s.core c).sreg (brA b.toNat)) (brOff (wordOf 0x13 b))) (wordOf 0x13 b)).upToTags c) := by
  refine gives_upToTags (exec_jalr c b s) h ?_
  simp only [brCond_wordOf, brA_wordOf, brD_wordOf, hc, ne_eq, not_true_eq_false, if_false]
  exact if_pos ht

/-- A target fits the INFO field of the record whole (R221). -/
theorem misaligned_jalrPc (s : State) (c w : Nat) (a off : W64) :
    s.misaligned c (jalrPc a off) w = s.instrFault c 0xA (s.core c).pc (jalrPc a off) (BitVec.ofNat 64 w) := by
  have hlt : jalrPc a off < 2 ^ 32 := lt_trans (Nat.mod_lt _ (by decide)) (by decide)
  rw [State.misaligned, State.faultHere, Nat.mod_eq_of_lt hlt]

/-- Settles O14: the conditions as comparisons, the targets as sums modulo 2^20. -/
theorem branchesReachTheirTargets : Obligations.BranchesReachTheirTargets := by
  unfold Obligations.BranchesReachTheirTargets
  intro s c b
  refine ⟨fun taken h ht hc => ?br, fun taken h ht hc => ?brp, fun h hc => ?jal, fun pc h hc hpc => ?jalr⟩
  case br => exact ⟨_, branchPc_cast _ taken 0x10 b, br_gives h (brHolds_eq_some hc _ _ taken ht)⟩
  case brp => exact ⟨_, branchPc_cast _ taken 0x11 b, brp_gives h (brpHolds_eq_some hc _ taken ht)⟩
  case jal => exact ⟨_, branchPc_cast _ true 0x12 b, jal_gives h hc⟩
  case jalr =>
    obtain rfl := jalrPc_eq (op := 0x13) hpc
    refine ⟨jalr_gives h hc, fun ht => ?_⟩
    rw [← misaligned_jalrPc]
    exact jalr_misaligned h hc ht

end Sys2Proof.Machine
end

section
/-! PROOFS. Predicate logic (R195). -/

namespace Sys2Proof.Machine

open Sys2Proof

/-- The bits a PLOG word must leave zero, field by field. -/
theorem and_plogZero_eq_zero (b : Body) :
    b.toNat &&& plogZero b = 0 ↔ bitsOf b.toNat 0 26 = 0 ∧ bitsOf b.toNat 44 2 = 0 ∧
      (vrFn b.toNat ≠ 6 → bitsOf b.toNat 54 2 = 0) ∧ (vrFn b.toNat ≠ 5 → bitsOf b.toNat 49 2 = 0) := by
  have hmask : plogZero b = 2 ^ 0 * (2 ^ 26 - 1) ||| (2 ^ 44 * (2 ^ 2 - 1) |||
      ((if vrFn b.toNat = 6 then 0 else 2 ^ 54 * (2 ^ 2 - 1)) ||| (if vrFn b.toNat = 5 then 0 else 2 ^ 49 * (2 ^ 2 - 1)))) := by
    unfold plogZero
    split <;> split <;> decide
  have hfield : ∀ (p : Prop) [Decidable p] (lo : Nat),
      b.toNat &&& (if p then 0 else 2 ^ lo * (2 ^ 2 - 1)) = 0 ↔ (¬p → bitsOf b.toNat lo 2 = 0) := by
    intro p _ lo
    by_cases hp : p
    · simp [hp]
    · rw [if_neg hp, and_fieldMask_eq_zero]
      simp [hp]
  simp only [hmask, Nat.and_or_distrib_left, Nat.or_eq_zero_iff, and_fieldMask_eq_zero, hfield, ne_eq]

/-- PLOG works on each bit alone. -/
theorem getLsbD_plogFn (fn : Nat) (a b : W64) {i : Nat} (hi : i < 64) :
    (plogFn fn a b).getLsbD i = (if fn = 0 then a.getLsbD i && b.getLsbD i else if fn = 1 then a.getLsbD i || b.getLsbD i
      else if fn = 2 then a.getLsbD i ^^ b.getLsbD i else if fn = 3 then a.getLsbD i && !b.getLsbD i else !a.getLsbD i) := by
  match fn with
  | 0 => exact BitVec.getLsbD_and
  | 1 => exact BitVec.getLsbD_or
  | 2 => exact BitVec.getLsbD_xor
  | 3 => simp [plogFn, hi]
  | n + 4 => simp [plogFn, hi]

@[simp] theorem fD_mod_eight (w : Nat) : fD w % 8 = bitsOf w 51 3 := bitsOf_mod_two_pow w 51 (m := 3) (n := 5) (by decide)
@[simp] theorem fA_mod_eight (w : Nat) : fA w % 8 = bitsOf w 46 3 := bitsOf_mod_two_pow w 46 (m := 3) (n := 5) (by decide)
@[simp] theorem fB_mod_eight (w : Nat) : fB w % 8 = bitsOf w 41 3 := bitsOf_mod_two_pow w 41 (m := 3) (n := 5) (by decide)

section
variable {s : State} {c : Nat} {b : Body} (h : s.issues c b 0x23 (plogZero b))
include h

/-- FN 0 to 4: a predicate of two predicates. -/
theorem plog_logic (hfn : vrFn b.toNat ≤ 4) :
    Gives (.plog c b) s (s.onlyCore c (((s.core c).setP (bitsOf b.toNat 51 3)
      (plogFn (vrFn b.toNat) ((s.core c).preg (bitsOf b.toNat 46 3)) ((s.core c).preg (bitsOf b.toNat 41 3)))).advance s.now)) := by
  refine gives_onlyCore (exec_plog c b s) h ?_
  simp only [vrFn_wordOf, fD_wordOf, fA_wordOf, fB_wordOf, fD_mod_eight, fA_mod_eight, fB_mod_eight]
  exact if_pos hfn

/-- FN 5: a scalar register to a predicate. -/
theorem plog_toPredicate (hfn : vrFn b.toNat = 5) :
    Gives (.plog c b) s
      (s.onlyCore c (((s.core c).setP (bitsOf b.toNat 51 3) ((s.core c).sreg (fA b.toNat))).advance s.now)) := by
  refine gives_onlyCore (exec_plog c b s) h ?_
  simp only [vrFn_wordOf, fD_wordOf, fA_wordOf, fD_mod_eight, hfn]
  rfl

/-- FN 6: a predicate to a scalar register. -/
theorem plog_toScalar (hfn : vrFn b.toNat = 6) :
    Gives (.plog c b) s
      (s.onlyCore c (((s.core c).setS (fD b.toNat) ((s.core c).preg (bitsOf b.toNat 46 3))).advance s.now)) := by
  refine gives_onlyCore (exec_plog c b s) h ?_
  simp only [vrFn_wordOf, fD_wordOf, fA_wordOf, fA_mod_eight, hfn]
  rfl

/-- Every other FN is illegal (R179). -/
theorem plog_illegal (hfn : 7 ≤ vrFn b.toNat) :
    Gives (.plog c b) s ((s.illegal c (wordOf 0x23 b)).upToTags c) := by
  refine gives_upToTags (exec_plog c b s) h ?_
  simp only [vrFn_wordOf]
  rw [if_neg (by omega), if_neg (by omega), if_neg (by omega)]

end

/-- Settles O17: the reserved bits field by field, then one rule per FN. -/
theorem predicateLogicFollowsItsTable : Obligations.PredicateLogicFollowsItsTable := by
  unfold Obligations.PredicateLogicFollowsItsTable
  intro s c b k w fn pa pb upper hc hp
  have hzero : b.toNat &&& plogZero b = 0 ↔ ¬upper ∧ bitsOf w 0 26 = 0 := by
    rw [and_plogZero_eq_zero]
    simp only [upper, fn, w]
    tauto
  refine ⟨fun hu => ?_, fun hu hlow => ?_⟩
  · exact (exec_plog c b s).trans (issue_reserved hc hp (fun hz => (hzero.mp hz).1 hu) _)
  · have h : s.issues c b 0x23 (plogZero b) := ⟨hc, hp, hzero.mpr ⟨hu, hlow⟩⟩
    exact ⟨fun hfn => ⟨_, fun i hi => getLsbD_plogFn fn pa pb hi, plog_logic h hfn⟩, plog_toPredicate h, plog_toScalar h,
      plog_illegal h⟩

end Sys2Proof.Machine
end
